-- ==== Sys2Proof/Word.lean ====
section
/-!
DEFINITION. The word types of the register space and of the packets, and the plainest arithmetic on them.
-/
namespace Sys2Proof

/-- A 32-bit register word (R19, R28). -/
abbrev Word := BitVec 32

/-- A byte of a register, a bank or an identity record. -/
abbrev Byte := BitVec 8

/-- The all-ones value of a 48-bit event counter, at which it stops (R51). -/
def count48Max : Nat := 0xFFFFFFFFFFFF

/-- The smaller of a value and a ceiling: a count that saturates at `top`. -/
def satAdd (top a b : Nat) : Nat := min top (a + b)

/-- One Boolean as a bit of a word. -/
def b2n (b : Bool) : Nat := if b then 1 else 0

/-- Quotient rounded up, as `ceil(a ÷ b)` in the manual. -/
def ceilDiv (a b : Nat) : Nat := (a + b - 1) / b

end Sys2Proof
end

