-- ==== Sys2Proof/Syntax.lean ====
section
/-!
DEFINITION. The commands the block takes from outside, one constructor per row of spec/opcode_table.json, and the types
of their operands. A command names the segment it acts on first, as the segment's ports and pages do.
-/
namespace Sys2Proof.Machine

/-- The four planes (R9). -/
inductive Plane where | req | rsp | snp | mgt
  deriving DecidableEq, Repr

/-- Plane numbers as the counters and the acknowledgement fields use them (R133, R216). -/
def Plane.code : Plane → Nat | .req => 0 | .rsp => 1 | .snp => 2 | .mgt => 3

/-- The seven ports of a router by port code (R8, R113). -/
inductive Port where | n | e | s | w | l0 | l1 | k
  deriving DecidableEq, Repr

/-- Port codes of the LA field of R113. -/
def Port.code : Port → Nat | .n => 0 | .e => 1 | .s => 2 | .w => 3 | .l0 => 4 | .l1 => 5 | .k => 6

/-- Every port, in ascending port code. -/
def Port.all : List Port := [.n, .e, .s, .w, .l0, .l1, .k]

/-- Who makes a register access (R54): the management port, or an agent by EID with the domain its NI stamped. -/
inductive Requester where
  | mp
  | agent (eid : BitVec 12) (dom : BitVec 6)
  deriving DecidableEq, Repr

/-- The 256-bit packet header of R110, field by field (reserved bits are 0 and are not held). -/
structure Hdr where
  dest : BitVec 12 := 0
  src : BitVec 12 := 0
  type : BitVec 4 := 0
  cls : BitVec 3 := 0
  reissue : Bool := false
  seq : BitVec 16 := 0
  epoch : BitVec 4 := 0
  path : Bool := false
  retry : Bool := false
  relaxed : Bool := false
  poison : Bool := false
  adapt : Bool := false
  yellow : Bool := false
  viaTwin : Bool := false
  at64 : Bool := false
  code : BitVec 3 := 0
  ack : Bool := false
  len : BitVec 10 := 0
  tag : BitVec 12 := 0
  sync : Bool := false
  age : BitVec 16 := 0
  fid : BitVec 20 := 0
  addr : BitVec 64 := 0
  aux : BitVec 16 := 0
  destGz : BitVec 12 := 0
  clsGz : BitVec 3 := 0
  typeGz : BitVec 4 := 0
  epochGz : BitVec 4 := 0
  seqGz : BitVec 16 := 0
  deriving DecidableEq, Repr

/-- The 64-bit MGT header of R114, with the domain the NI stamps beside it (R54). -/
structure MgtHdr where
  dest : BitVec 12 := 0
  src : BitVec 12 := 0
  type : BitVec 4 := 0
  epoch : BitVec 4 := 0
  tag : BitVec 8 := 0
  code : BitVec 3 := 0
  len : BitVec 3 := 0
  poison : Bool := false
  fab : Bool := false
  destGz : BitVec 12 := 0
  typeGz : BitVec 4 := 0
  dom : BitVec 6 := 0
  /-- the site's TEN_DOM word mismatched at the stamp (R63) -/
  domBad : Bool := false
  deriving DecidableEq, Repr

/-- What a flit carries beside its control bits. -/
inductive FlitBody where
  | head (h : Hdr) (imm : BitVec 768)
  | data (bits : BitVec 1024)
  | mgtHead (h : MgtHdr)
  | mgtData (bits : BitVec 64)
  deriving DecidableEq, Repr

/-- A packet's walk on a fault ring (R197, R198): the region, the exit tile, the orientation, and whether it was blocked
while moving in x. The routers work it out at the ring entry; the model keeps it with the flit. -/
structure RingWalk where
  x0 : Nat
  x1 : Nat
  y0 : Nat
  y1 : Nat
  ex : Nat
  ey : Nat
  cw : Bool
  inX : Bool
  deriving DecidableEq, Repr

/-- One flit with the control bits of R113. `upset` is how many bits of it are wrong on the wire (0, 1 or 2), as R112
tells the ECC's outcomes apart, or 3 where its control parity fails; `esc` marks a header that has left the adaptive
mode (R189). -/
structure Flit where
  body : FlitBody
  vc : Nat := 0
  tail : Bool := true
  idx : Nat := 0
  poison : Bool := false
  trunc : Bool := false
  upset : Nat := 0
  esc : Bool := false
  ring : Option RingWalk := none
  inj : Bool := false
  /-- which C1 copy it belongs to, since VC3 buffers hold flits of several packets (R223); 0 off VC3 -/
  id : Nat := 0
  /-- the effective age this router worked out for a header (R224) -/
  eff : BitVec 16 := 0
  /-- LA: the output it takes at the next router, by port code, 7 none (R113) -/
  la : Nat := 7
  /-- the outputs of this router that have decided a cycle since it came: it competes from the cycle after its arrival (R227) -/
  seen : BitVec 7 := 0
  deriving DecidableEq, Repr

/-- One data flit of a packet: 128 B and its POISON control bit (R112, R113). -/
structure DataFlit where
  bits : BitVec 1024
  poison : Bool := false
  deriving DecidableEq, Repr

/-- A data-plane or SNP packet (R109): header, immediate area, data flits; `trunc` when its tail carried TRUNC (R206);
`hdrErr` when its header had a double-bit or control-parity error (R112, R113); `inj` when the injector caused it (R446). -/
structure Packet where
  plane : Plane
  hdr : Hdr
  imm : BitVec 768 := 0
  data : List DataFlit := []
  trunc : Bool := false
  hdrErr : Bool := false
  inj : Bool := false
  /-- taken in order under receive state that has since been discarded: its delivery is acknowledged no more (R536) -/
  old : Bool := false
  deriving DecidableEq, Repr

/-- A frame as a bundle's receive half finds it (R379–R387): its fields, whether its CRC-32C is right, whether it began at a
RESYNC block, the block headers received since the frame before it, and line bits from a lane that come with it, each list
with the bit and the run length it follows. -/
structure RxFrame where
  crcOk : Bool := true
  /-- KIND is one of R384 -/
  known : Bool := true
  resync : Bool := false
  vc : Nat := 0
  fsn : BitVec 8 := 0
  ack : BitVec 8 := 0
  cidx : Nat := 31
  ccnt : BitVec 8 := 0
  tick : BitVec 9 := 0
  plane : Plane := .req
  flit : Option Flit := none
  heads : List Byte := []
  lines : List (Bool × Nat × List Bool) := []
  slips : Nat := 0
  deriving DecidableEq, Repr

/-- The lanes that pass steps 2–5 of a receive half's training, and the IDLE payload bits seen on a lane (R380, R394). -/
structure TrainLook where
  lanes : BitVec 17
  idle : List (Fin 17 × List Bool) := []
  deriving DecidableEq, Repr

/-- The HELLO payload of R404. -/
structure Hello where
  segNum : Fin 4
  joined : Bool
  anchorValid : Bool
  anchor : Fin 4
  version : BitVec 24
  nonce : Word
  digest : BitVec 64
  ftb : BitVec 64
  epoch : BitVec 4
  ringVer : BitVec 8
  joinedSet : BitVec 4
  deriving DecidableEq, Repr

/-- A fence region: columns x0–x1, rows y0–y1 (R193). -/
structure Rect where
  x0 : Nat
  x1 : Nat
  y0 : Nat
  y1 : Nat
  deriving DecidableEq, Repr

/-- The ring state of R402. Rows are 12-bit masks; `full` holds bit 48p + 2b + d of R203. `regions` are the fence regions of
the segments, which the anchor distributes (R201; with the ring state: DEDUCED, log 93). -/
structure Ring where
  joined : BitVec 4 := 0
  anchor : Fin 4 := 0
  anchorValid : Bool := false
  ver : BitVec 8 := 0
  closed : BitVec 4 := 0
  br0Rows : BitVec 48 := BitVec.allOnes 48
  br1Rows : BitVec 48 := BitVec.allOnes 48
  full : BitVec 192 := BitVec.allOnes 192
  susp : BitVec 4 := 0
  regions : List (Nat × Rect) := []
  deriving DecidableEq, Repr

/-- What one segment reports of its own bridges, and of its map, to the anchor (R201, R402). A segment that is not joined asks
to be added with it (R405 step 7); `leave` asks to be removed (R408). -/
structure RingReport where
  seg : Fin 4
  br0Rows : BitVec 12
  br1Rows : BitVec 12
  full0 : BitVec 48
  full1 : BitVec 48
  down : BitVec 2
  lost : BitVec 2
  regions : List Rect
  leave : Bool := false
  deriving DecidableEq, Repr

/-- The four stamps of one TIME exchange (R409), in FTB ticks with 4 fraction bits, and the SEQ of the frame that completes
it (R386). -/
structure Stamps where
  seq : BitVec 8 := 0
  t1 : BitVec 64
  t2 : BitVec 64
  t3 : BitVec 64
  t4 : BitVec 64
  deriving DecidableEq, Repr

/-- What a bank's beats and scrub reads find in the array (R332): word offsets with a single-bit error and with an
uncorrectable error. The manual gives the errors' handling; that they occur comes from outside. -/
structure ArrayErrs where
  corr : List Nat := []
  uncorr : List Nat := []
  deriving DecidableEq, Repr

/-- What the receiver of a flit finds in it: the bit errors, and the phase margin it measures (R112, R113, R354, R355). -/
structure FlitLook where
  upset : Fin 4
  margin : Byte
  deriving DecidableEq, Repr

/-- An output of a router, and the VCs of which a credit pulse is lost on its way there (R360). -/
structure OutputLook where
  out : Port
  lost : List (Fin 6)
  deriving DecidableEq, Repr

/-- Whose watchdog trips (R212): the router's on a VC, or with `ni` that of the NI behind port L0 or L1 on its ejection
port. -/
structure Watched where
  vc : Fin 6
  ni : Bool
  deriving DecidableEq, Repr

/-- What an endpoint finds in the packet that arrives on a plane (R112, R113): the flits in which its ECC finds one wrong
bit or two, and whether the control parity fails. -/
structure EgressLook where
  plane : Plane
  single : List (Fin 8) := []
  double : List (Fin 8) := []
  cpar : Bool := false
  deriving DecidableEq, Repr

/-- An endpoint that takes an acknowledgement, and what it finds in the one flit (R112, R113): 0 nothing, 1 one wrong bit, 2
two, 3 a failing control parity. -/
structure AckLook where
  ep : Fin 1024
  upset : Fin 4 := 0
  deriving DecidableEq, Repr

/-- A unit a map broadcast reaches, and for each flit how often its reads disagree (R361). -/
structure MapRead where
  unit : Fin 1024
  reads : List (Fin 4)
  deriving DecidableEq, Repr

/-- A site a configuration notice reaches, and for each flit how often its reads disagree (R361). -/
structure NoticeRead where
  site : Fin 288
  reads : List (Fin 4)
  deriving DecidableEq, Repr

/-- A bundle, and the lanes on which DROWSE comes (R397). -/
structure DrowseLook where
  bundle : Fin 24
  lanes : BitVec 17
  deriving DecidableEq, Repr

/-- A unit that votes on an entry (R466): a source, and at a bridge a bundle and its half. -/
structure VoteUnit where
  src : Fin 1024
  bundle : Fin 24 := 0
  rx : Bool := false
  deriving DecidableEq, Repr

/-- An event source whose pulse the collector takes, how often the two samples of the lost count that crosses with it disagreed,
and whether they then agreed (R359, R364). -/
structure EventLook where
  src : Fin 1024
  retries : Nat := 0
  agreed : Bool := true
  deriving DecidableEq, Repr

/-- The failing columns a memory run finds (R509): (bank, subarray, column) and the spares that failed. -/
structure KilnFind where
  failBits : Nat := 0
  failMems : Nat := 0
  sig : BitVec 64 := 0
  /-- a bundle has trained at full or half width after its run (R440) -/
  trained : Bool := true
  failUnits : List Nat := []
  cols : List (Nat × Nat × Nat) := []
  badSpares : List (Nat × Nat × Nat) := []
  deriving DecidableEq, Repr

/-- A mismatched collector value, as SOAK_INFO names it (R447): the word's offset and, with 0xFFF, the source. -/
structure GlazeWord where
  off : BitVec 12
  src : BitVec 10
  deriving DecidableEq, Repr

end Sys2Proof.Machine

namespace Sys2Proof

open Sys2Proof.Machine

/-- The commands. Each row's rule stands with its meaning. -/
inductive Instr where
  -- register accesses
  | registerWrite (g : Fin 4) (r : Requester) (size : BitVec 2) (addr : Word) (data : BitVec 64)
  | guardOpen (g : Fin 4) (r : Requester) (addr : Word) (data : Word)
  | guardClose (g : Fin 4) (r : Requester) (addr : Word) (data : Word)
  | guardTimeout (g : Fin 4) (page : Nat)
  | regaccReceive (g : Fin 4) (src : BitVec 12)
  | regaccSinglePacketPair (g : Fin 4) (src : BitVec 12)
  | mpRequest (g : Fin 4) (wr : Bool) (size : BitVec 2) (addr : Word) (wdata : Word)
  | mp64BitFirstRequest (g : Fin 4) (wr : Bool) (addr : Word) (wdata : Word)
  | mp64BitSecondRequest (g : Fin 4) (wr : Bool) (addr : Word) (wdata : Word)
  | mpAccessTimeout (g : Fin 4)
  | counterClear (g : Fin 4) (r : Requester) (size : BitVec 2) (addr : Word)
  | pageDisable (g : Fin 4) (r : Requester) (page : Nat)
  | pageEnable (g : Fin 4) (r : Requester) (page : Nat)
  | pageDrain (g : Fin 4) (r : Requester) (page : Nat)
  | drainComplete (g : Fin 4) (page : Nat)
  | pageOwnerWrite (g : Fin 4) (r : Requester) (page : Nat) (dom : BitVec 6) (readAny : Bool)
  | tenDomWrite (g : Fin 4) (r : Requester) (n : Fin 72) (word : Word)
  | tenDenyClear (g : Fin 4) (r : Requester)
  | segModeWrite (g : Fin 4) (r : Requester) (mode : BitVec 2)
  | expertEnWrite (g : Fin 4) (r : Requester) (en : Bool)
  | lockExpert (g : Fin 4) (r : Requester)
  | lockOwners (g : Fin 4) (r : Requester)
  | glazeMismatch (g : Fin 4) (page : Nat) (off : Nat) (flip : Word)
  -- resets, fuses, ALIVE
  | poresetAssert (g : Fin 4)
  | poresetRelease (g : Fin 4) (testMode : Bool)
  | segResetAssert (g : Fin 4)
  | segResetRelease (g : Fin 4)
  | fuseLoadComplete (g : Fin 4)
  | aliveToggle (g : Fin 4)
  -- agent ports
  | rqBeat (g : Fin 4) (site : Fin 288) (data : BitVec 1024) (par : BitVec 16)
  | wdBeat (g : Fin 4) (site : Fin 288) (data : BitVec 1024) (par : BitVec 16) (last : Bool)
  | wdStallTimeout (g : Fin 4) (site : Fin 288)
  | srBeat (g : Fin 4) (site : Fin 288) (data : BitVec 256) (par : BitVec 4) (last : Bool)
  | mgInputBeat (g : Fin 4) (site : Fin 288) (data : BitVec 64) (par : Bool) (last : Bool)
  | rsBeatTaken (g : Fin 4) (site : Fin 288)
  | snBeatTaken (g : Fin 4) (site : Fin 288)
  | mgOutputTaken (g : Fin 4) (site : Fin 288)
  | agentClockStop (g : Fin 4) (site : Fin 288)
  | agentClockReturn (g : Fin 4) (site : Fin 288)
  | agentResetAssert (g : Fin 4) (site : Fin 288)
  | agentResetRelease (g : Fin 4) (site : Fin 288)
  | agentWake (g : Fin 4) (site : Fin 288) (hold : Bool)
  | apUpRise (g : Fin 4) (site : Fin 288)
  -- transactions
  | requestInject (g : Fin 4) (site : Fin 288) (plane : Plane)
  | c1CopyRelease (g : Fin 4) (site : Fin 288) (path : Bool)
  | fenceCplSend (g : Fin 4) (site : Fin 288)
  | flitArrival (g : Fin 4) (tile : Fin 144) (plane : Plane) (port : Port) (look : FlitLook)
  | outputArbitration (g : Fin 4) (tile : Fin 144) (plane : Plane) (look : OutputLook)
  | escapeSwitch (g : Fin 4) (tile : Fin 144) (plane : Plane) (port : Port) (vc : Fin 6)
  | escapeWatchdog (g : Fin 4) (tile : Fin 144) (plane : Plane) (port : Port) (spot : Watched)
  | packetArrivalEgress (g : Fin 4) (ep : Fin 1024) (look : EgressLook)
  | ackDelayExpiry (g : Fin 4) (ep : Fin 1024) (src : BitVec 12) (plane : Plane)
  | ackReceive (g : Fin 4) (look : AckLook)
  | retryTimeout (g : Fin 4) (ep : Fin 1024) (dest : BitVec 12) (plane : Plane)
  | cplTimeout (g : Fin 4) (site : Fin 288) (tag : BitVec 12)
  | cplReceive (g : Fin 4) (site : Fin 288)
  | sourceGrantRelease (g : Fin 4) (ep : Fin 1024) (dest : BitVec 12) (plane : Plane)
  | egressGrantReclaim (g : Fin 4) (ep : Fin 1024) (src : BitVec 12) (plane : Plane)
  | bindRead (g : Fin 4) (r : Requester) (site : Fin 288) (idx : Byte)
  | bindCommit (g : Fin 4) (r : Requester) (site : Fin 288) (idx : Byte)
  | bindClear (g : Fin 4) (r : Requester) (site : Fin 288) (idx : Byte)
  | niDrainRelease (g : Fin 4) (site : Fin 288)
  | niReset (g : Fin 4) (r : Requester) (site : Fin 288)
  | niResetComplete (g : Fin 4) (site : Fin 288)
  -- banks
  -- `corr`, `uncorr`: the words in which the cycle's reads of the array find such an error (R332)
  | bankPacketAccept (g : Fin 4) (bank : Fin 72) (corr uncorr : List Nat)
  | reservationExpiry (g : Fin 4) (bank : Fin 72) (src : BitVec 12)
  | protectedEntryExpiry (g : Fin 4) (bank : Fin 72) (src : BitVec 12)
  | bankOwnCommit (g : Fin 4) (r : Requester) (bank : Fin 72) (word : Word)
  | handoverComplete (g : Fin 4) (bank : Fin 72)
  | zeroCmd (g : Fin 4) (r : Requester) (bank : Fin 72)
  | zeroingComplete (g : Fin 4) (bank : Fin 72)
  | scrubStep (g : Fin 4) (bank : Fin 72) (errs : ArrayErrs)
  | wakeScrubRow (g : Fin 4) (bank : Fin 72) (errs : ArrayErrs)
  | wakeScrubComplete (g : Fin 4) (bank : Fin 72)
  | repairWrite (g : Fin 4) (r : Requester) (bank : Fin 72) (sub : Fin 8) (word : Word)
  -- slot ticks and tables
  | slotTick (g : Fin 4) (tile : Fin 144)
  | ftbSyncBoundary (g : Fin 4) (tile : Fin 144)
  | slotDataWrite (g : Fin 4) (r : Requester) (tile : Fin 144) (word : Word)
  | slotCopy (g : Fin 4) (r : Requester) (tile : Fin 144)
  | slotClear (g : Fin 4) (r : Requester) (tile : Fin 144)
  | slotCopyClearDone (g : Fin 4) (tile : Fin 144)
  | slotSwapReq (g : Fin 4) (r : Requester) (tile : Fin 144)
  | slotValidationDone (g : Fin 4) (tile : Fin 144)
  | slotPeriodBoundary (g : Fin 4) (tile : Fin 144)
  | starveNWrite (g : Fin 4) (r : Requester) (tile : Fin 144) (n : BitVec 7)
  | resDataWrite (g : Fin 4) (r : Requester) (tile : Fin 144) (word : Word)
  | demoteClearL0 (g : Fin 4) (r : Requester) (tile : Fin 144)
  | demoteClearL1 (g : Fin 4) (r : Requester) (tile : Fin 144)
  | rejectNoticeReceive (g : Fin 4) (site : Fin 288)
  -- fence maps and epochs
  | fenceMapChange (g : Fin 4)
  | fenceMapAdopt (g : Fin 4) (read : MapRead)
  | ringNoticeReceive (g : Fin 4) (unit : Fin 1024)
  | epochDrainReport (g : Fin 4) (tile : Fin 144)
  | epochRetire (g : Fin 4)
  | drainToExpiry (g : Fin 4) (tile : Fin 144)
  -- flow policing
  | flowSendDecision (g : Fin 4) (site : Fin 288) (idx : BitVec 18)
  | flowContextReturn (g : Fin 4) (site : Fin 288) (idx : BitVec 18)
  | flowWritebackTimer (g : Fin 4) (site : Fin 288) (idx : BitVec 18)
  | flowWritebackResult (g : Fin 4) (site : Fin 288) (idx : BitVec 18)
  | flowRefresh (g : Fin 4) (site : Fin 288) (idx : BitVec 18)
  | flowSweep (g : Fin 4) (idx : BitVec 18)
  | unavailFetchRetry (g : Fin 4) (site : Fin 288) (idx : BitVec 18)
  | fwRead (g : Fin 4) (r : Requester) (idx : BitVec 18)
  | fwReadSync (g : Fin 4) (r : Requester) (idx : BitVec 18)
  | fwWriteCfg (g : Fin 4) (r : Requester) (idx : BitVec 18)
  | fwWriteRaw (g : Fin 4) (r : Requester) (idx : BitVec 18)
  | fwInit (g : Fin 4) (r : Requester)
  | fwCmdComplete (g : Fin 4)
  | configNoticeReceive (g : Fin 4) (read : NoticeRead)
  | recallReceive (g : Fin 4) (site : Fin 288)
  | recallAllReceive (g : Fin 4) (site : Fin 288)
  | flowwinDisableNotice (g : Fin 4) (site : Fin 288)
  -- clocks
  | tileCodeChange (g : Fin 4) (tile : Fin 144)
  | dcoRampDone (g : Fin 4) (tile : Fin 144)
  | tempSample (g : Fin 4) (quad : Fin 4) (temp : BitVec 9)
  | dcoLockLost (g : Fin 4) (tile : Fin 144)
  | dcoLockRegained (g : Fin 4) (tile : Fin 144)
  | pulseRaise (g : Fin 4) (src : Fin 1024) (cause : Byte) (synd : Word)
  | eventProcess (g : Fin 4) (look : EventLook)
  | clkOvrClear (g : Fin 4) (r : Requester) (w : Fin 5) (bits : Word)
  -- collector
  | activeLevelChange (g : Fin 4) (src : Fin 1024) (level : Bool)
  | srcClear (g : Fin 4) (r : Requester) (src : BitVec 10)
  | srcRestore (g : Fin 4) (r : Requester) (src : BitVec 10) (bundle : BitVec 5)
  | restoreComplete (g : Fin 4)
  | autoClear (g : Fin 4) (src : Fin 1024)
  | collectorGlazePass (g : Fin 4)
  | bulkCfgWrite (g : Fin 4) (r : Requester) (type : BitVec 3)
  | injectEvent (g : Fin 4) (r : Requester)
  | injectFlit (g : Fin 4) (r : Requester)
  | injectGlaze (g : Fin 4) (r : Requester)
  | injectLane (g : Fin 4) (r : Requester)
  | injectionSpacing (g : Fin 4)
  -- links
  | linkDnRise (g : Fin 4) (tile : Fin 144) (port : Port)
  | creditInitReceive (g : Fin 4) (tile : Fin 144) (port : Port)
  -- power
  | autoIdleEntry (g : Fin 4) (dom : Fin 1024)
  | autoDrowsyEntry (g : Fin 4) (dom : Fin 1024)
  | autoRetainEntry (g : Fin 4) (dom : Fin 1024)
  | domainWake (g : Fin 4) (dom : Fin 1024)
  | domainWakeDone (g : Fin 4) (dom : Fin 1024) (badCanary : Option (Fin 4))
  | tileOff (g : Fin 4) (r : Requester) (first last : Byte) (keep : Bool)
  | tileWake (g : Fin 4) (r : Requester) (first last : Byte)
  | bankOff (g : Fin 4) (r : Requester) (first last : Byte)
  | bankWake (g : Fin 4) (r : Requester) (first last : Byte)
  | tileWakeRowStep (g : Fin 4)
  | tileCmdComplete (g : Fin 4)
  | segEntryDrowsy (g : Fin 4) (r : Requester)
  | segEntryRetain (g : Fin 4) (r : Requester)
  | segEntryAon (g : Fin 4) (r : Requester) (halt : Bool)
  | aonHalt (g : Fin 4)
  | prepareReceive (g : Fin 4) (unit : VoteUnit)
  | sleepVote (g : Fin 4) (unit : VoteUnit)
  | niSleepRefuse (g : Fin 4) (site : Fin 288)
  | voteCollect (g : Fin 4)
  | voteTimeout (g : Fin 4)
  | commitReceive (g : Fin 4) (unit : VoteUnit)
  | abortReceive (g : Fin 4) (unit : VoteUnit)
  | regulatorFullModeReturn (g : Fin 4)
  | brownOut (g : Fin 4) (tripped : List (Fin 1024)) (belowLatch : Bool)
  | aonRestart (g : Fin 4) (testMode : Bool)
  | pgSramLoss (g : Fin 4)
  | powerCapStep (g : Fin 4)
  | residencySample (g : Fin 4)
  | vackRise (g : Fin 4) (quad : Fin 4)
  | vackTimeout (g : Fin 4) (quad : Fin 4)
  | clkSwitch (g : Fin 4) (r : Requester) (refclkOk : Bool)
  | refclkCheckRetry (g : Fin 4) (refclkOk : Bool)
  | tickLock (g : Fin 4)
  -- bridges
  | frameReceive (g : Fin 4) (br : Fin 2) (bundle : Fin 24) (f : RxFrame)
  | nakReceive (g : Fin 4) (br : Fin 2) (bundle : Fin 24) (fsn : Byte)
  | replayTimeout (g : Fin 4) (br : Fin 2) (bundle : Fin 24)
  | bridgeRetrainTimeout (g : Fin 4) (br : Fin 2) (bundle : Fin 24)
  | laneFail (g : Fin 4) (br : Fin 2) (bundle : Fin 24) (lane : Fin 17)
  | laneFrameReceive (g : Fin 4) (br : Fin 2) (bundle : Fin 24) (lane : Fin 32) (half : Bool) (mask : BitVec 17)
  | bundleTrainStart (g : Fin 4) (br : Fin 2) (bundle : Fin 24)
  | bundleTrainComplete (g : Fin 4) (br : Fin 2) (bundle : Fin 24) (rx : TrainLook) (txLanes : BitVec 17)
  | laneCmdRetrain (g : Fin 4) (r : Requester) (br : Fin 2) (bundle : BitVec 5)
  | bundleSleepEntry (g : Fin 4) (br : Fin 2) (bundle : Fin 24)
  | drowseReceive (g : Fin 4) (br : Fin 2) (look : DrowseLook)
  | bundleWake (g : Fin 4) (br : Fin 2) (bundle : Fin 24)
  | rxeiFallWake (g : Fin 4) (br : Fin 2) (bundle : Fin 24)
  | pairReturnHoldExpiry (g : Fin 4) (br : Fin 2) (bundle : Fin 24) (src dest : BitVec 12)
  | bridgeC1Release (g : Fin 4) (br : Fin 2) (bundle : Fin 24) (plane : Plane)
  | bundleStartLapse (g : Fin 4) (br : Fin 2) (bundle : Fin 24)
  | bslotDataWrite (g : Fin 4) (r : Requester) (br : Fin 2) (word : Word)
  | brSlotCopy (g : Fin 4) (r : Requester) (br : Fin 2)
  | brSlotClear (g : Fin 4) (r : Requester) (br : Fin 2)
  | brSlotSwapReq (g : Fin 4) (r : Requester) (br : Fin 2)
  | pairDown (g : Fin 4) (br : Fin 2)
  | pairRetrainTimer (g : Fin 4) (br : Fin 2)
  | join (g : Fin 4) (r : Requester)
  | helloReceive (g : Fin 4) (br : Fin 2) (h : Hello)
  | joinTimeout (g : Fin 4)
  | joinAdmitted (g : Fin 4) (ring : Ring)
  | admitSeg (g : Fin 4) (r : Requester) (t : Fin 4)
  | admitLapse (g : Fin 4)
  | leave (g : Fin 4) (r : Requester)
  | ringStateReport (g : Fin 4) (rep : RingReport)
  | ringStateAdopt (g : Fin 4) (ring : Ring)
  | beaconSend (g : Fin 4)
  | beaconAnswerTimeout (g : Fin 4) (far : Fin 4)
  | anchorTimeout (g : Fin 4)
  | timeExchange (g : Fin 4) (br : Fin 2)
  | timeFrameReceive (g : Fin 4) (br : Fin 2) (st : Stamps)
  -- bays
  | bayDebounceExpiry (g : Fin 4) (bay : Fin 8)
  | bayPresenceFall (g : Fin 4) (bay : Fin 8)
  | bayRemoval (g : Fin 4) (bay : Fin 8)
  | bayInsertionDelayExpiry (g : Fin 4) (bay : Fin 8)
  | bayPrechargeExpiry (g : Fin 4) (bay : Fin 8)
  | bayPowerGood (g : Fin 4) (bay : Fin 8)
  | bayGateRiseTimeout (g : Fin 4) (bay : Fin 8) (gateUp : Bool)
  | bayGateLost (g : Fin 4) (bay : Fin 8)
  | bayOutputWithoutGate (g : Fin 4) (bay : Fin 8)
  | bayOvercurrent (g : Fin 4) (bay : Fin 8) (nearRemoval : Bool)
  | bayWindowLoss (g : Fin 4) (bay : Fin 8) (uv ov : Bool)
  | bayRetryExpiry (g : Fin 4) (bay : Fin 8)
  | bayStrikeAgeOut (g : Fin 4) (bay : Fin 8)
  | bayIdentityDelayExpiry (g : Fin 4) (bay : Fin 8)
  | bayIdentityReadEnd (g : Fin 4) (bay : Fin 8) (record : BitVec 2048)
  | bayIdAttemptRetry (g : Fin 4) (bay : Fin 8)
  | bayBind (g : Fin 4) (r : Requester) (bay : Fin 8)
  | bayUnbind (g : Fin 4) (r : Requester) (bay : Fin 8)
  | bayReread (g : Fin 4) (r : Requester) (bay : Fin 8)
  | bayEnable (g : Fin 4) (r : Requester) (bay : Fin 8)
  | bayDisable (g : Fin 4) (r : Requester) (bay : Fin 8)
  -- kiln, factory mode, fuses
  | kilnLogic (g : Fin 4) (r : Requester) (scope : Bool) (unit : BitVec 10) (bundle : BitVec 5) (seedEn : Bool)
  | kilnMemory (g : Fin 4) (r : Requester) (scope : Bool) (unit : BitVec 10) (bundle : BitVec 5) (seedEn : Bool)
  | kilnLogicMemory (g : Fin 4) (r : Requester) (scope : Bool) (unit : BitVec 10) (bundle : BitVec 5) (seedEn : Bool)
  | kilnAbort (g : Fin 4) (r : Requester)
  | kilnApply (g : Fin 4) (r : Requester)
  | kilnRunComplete (g : Fin 4) (found : KilnFind)
  | factoryKeyWrite (g : Fin 4) (r : Requester) (key : BitVec 16) (late : Bool)
  | factoryEnter (g : Fin 4) (r : Requester) (late : Bool)
  | factoryExit (g : Fin 4) (r : Requester)
  | fuseProgram (g : Fin 4) (r : Requester) (word : BitVec 10)
  | fuseProgRepair (g : Fin 4) (r : Requester)
  | fuseCmdComplete (g : Fin 4) (stuck : Word)
  | bundleBlockSlot (g : Fin 4) (br : Fin 2) (bundle : Fin 24)
  | acknowledgePhaseEnd (g : Fin 4) (src : Fin 1024)
  | vackFall (g : Fin 4) (quad : Fin 4)
  | identityAttemptFailed (g : Fin 4) (bay : Fin 8) (stretch : Bool)
  | probeLookup (g : Fin 4) (r : Requester) (site : Fin 288) (idx : BitVec 18)
  deriving DecidableEq, Repr

end Sys2Proof
end

