-- ==== Sys2Proof/Config.lean ====
section
/-!
DEFINITION. The free values: what the manual leaves open and the machine goes on with. Each is an opaque constant,
so that no proof can see a value of it. The first argument of each is the model's own counter `Seg.free`, so that two
uses are not tied to one another.
-/
namespace Sys2Proof.Config

/-- What reserved bits and reserved words hold when read (R34 RSV, R46): free. DESIGN CHOICE, log 3. -/
opaque reserved : Nat → Nat → Nat → BitVec 32

/-- Instance description words 2–63 (R499), which the manual describes and does not give: free. Log 4. -/
opaque instanceWord : Nat → BitVec 32

/-- The expected kiln signature by unit type and run kind (R505), fixed by Phisia and not given: free. Log 5. -/
opaque gold : Nat → Nat → BitVec 64

/-- The static power in µW of a domain in a state (R473): 0 a tile, 1 a bank, 2 a bridge direction. The manual prices activity
(R524) and gives static power for whole segments only: free. Log 6. -/
opaque staticPower : Nat → Nat → Nat

/-- Whether a management-port write that timed out had taken effect (R81): free. Log 7. -/
opaque tookEffect : Nat → Bool

/-- Whether the reference clock is good at a clock switch that a plain register write commits (R496): the pins, which no
such command tells: free. Log 13. -/
opaque refclkGood : Nat → Bool

/-- A bit whose content the manual calls undefined: a replaced bank column (R342): free. Log 8. -/
opaque undefinedBit : Nat → Nat → Bool

/-- Which requested bits an interrupted fuse command had programmed (R513): free. Log 9. -/
opaque fusedSubset : Nat → Nat → BitVec 32

/-- What the scan chains put on SCAN_SO in test mode (R102, R103): the chains are not described; free. Log 88. -/
opaque scanOut : Nat → BitVec 32

/-- The ECC bits of a flit on the wire, by its payload's width and value (R112): the SEC-DED codes' check matrices are not
given; free. Log 119. -/
opaque flitEcc : Nat → Nat → Nat

/-- The data flit of a read's CPL whose access did not end OK (R114): its content is not given; free. Log 14. -/
opaque failedRead : Nat → BitVec 64

end Sys2Proof.Config
end

