-- ==== Sys2Proof/Machine/State.lean ====
section
/-!
DEFINITION. The state of the block as plain data: four segments and the queue of commands that wait. A sparse map is a
list of (key, value) pairs, keys strictly rising, no pair holding the value an unlisted key reads as
(`Machine/Ops.lean` reads and writes them; what an unlisted key reads as stands there).
-/
namespace Sys2Proof.Machine

/-- The faults. -/
inductive Fault where
  /-- A command names a port, endpoint or unit that R3, R7 and R8 leave absent: raised by the link, router and endpoint
  commands. Safe: no such command can reach the hardware. -/
  | absentUnit
  deriving DecidableEq, Repr

/-- The refusals. -/
inductive Refusal where
  /-- A command this model gives no meaning to yet, by its row's mnemonic. Raised by `exec` alone. Safe. -/
  | notModelled (mnemonic : String)
  deriving DecidableEq, Repr

/-- What the map of one epoch says (R199, R202): the regions and the attachment tile of R196, with the C1 suspension
marks and the ring version it was sent under. -/
structure FenceMap where
  rects : List Rect := []
  dormant : List Nat := []
  saggared : List Nat := []
  attach : Nat := 65
  susp : BitVec 4 := 0
  ringVer : BitVec 8 := 0
  rows0 : BitVec 48 := BitVec.allOnes 48
  rows1 : BitVec 48 := BitVec.allOnes 48
  deriving DecidableEq, Repr

/-- A packet sent and not yet acknowledged, with when it was last sent and the header-store entry it belongs to. -/
structure Unacked where
  pkt : Packet
  at_ : BitVec 64 := 0
  entry : Option Nat := none
  deriving DecidableEq, Repr

/-- Source state toward one destination on one plane (R132–R136, R140, R141, R536). -/
structure Send where
  started : Bool := false
  next : BitVec 16 := 0
  unacked : List Unacked := []
  sync : Bool := false
  grant : Bool := false
  resends : Nat := 0
  freshDue : Bool := false
  lastSent : BitVec 64 := 0
  c1 : Option Bool := none
  /-- it has failed over to ALT since its home was last in service (R145) -/
  failedOver : Bool := false
  deriving DecidableEq, Repr

/-- Receive state for one source and plane (R133, R134, R137, R139, R536). `del` is the highest SEQ delivered in order,
`owed` the deliveries up to it not yet acknowledged; `ahead` the deliveries beyond it, each with whether it earns no
grant; `twin` the C1 copies taken whose twin may still come: SEQ, PATH and RETRY. -/
structure Recv where
  active : Bool := false
  next : BitVec 16 := 0
  bySync : Bool := false
  held : List Packet := []
  grant : Bool := false
  del : BitVec 16 := 0xFFFF
  owed : Nat := 0
  oldest : BitVec 64 := 0
  noGrant : Bool := false
  ahead : List (BitVec 16 × Bool) := []
  twin : List (BitVec 16 × Bool × Bool) := []
  lastNack : Option (BitVec 64) := none
  lastPkt : BitVec 64 := 0
  deriving DecidableEq, Repr

/-- The delivery machinery of one endpoint, an NI or a bank (R132–R141, R535, R536). Keys of `send` and `recv` are
`4 × EID + plane`, of a twin site's receive state for VIA_TWIN packets (R145) 65,536 more; of `asm`,
`64 × plane + 56 + VC` (for VC3 the input port code in place of 7), at the controller 1024 × (tile + 1) more; of `inq`,
the plane. `own` holds the packets without a header-store entry whose sequence does not let them go yet (R134, R136,
R267), oldest first. -/
structure Ep where
  send : List (Nat × Send) := []
  recv : List (Nat × Recv) := []
  asm : List (Nat × List Flit) := []
  inq : List (Nat × List Packet) := []
  own : List Packet := []
  /-- its own NI reset discarded receive state, so that a source unknown to it is asked to resynchronise (R536) -/
  rxLost : Bool := false
  /-- its own NI reset discarded send state: every first packet starts a fresh sequence (R536) -/
  txFresh : Bool := false
  deriving DecidableEq, Repr

/-- Where a header-store entry stands. -/
inductive Phase where
  /-- its WD beats have not all come -/
  | data
  /-- it waits for its flow context (R289) -/
  | intake
  /-- in its flow queue (R288) -/
  | queued
  /-- past meter and shaper: eligible (R287) -/
  | eligible
  /-- a C1 packet whose copies are being released (R254) -/
  | copies
  /-- injected, not acknowledged -/
  | sent
  /-- acknowledged, its completion not come -/
  | bound
  /-- an open fence (R165) -/
  | fence
  deriving DecidableEq, Repr

/-- One entry of an NI's header store with the data buffered for it (R140). -/
structure Entry where
  id : Nat
  hdr : Hdr
  imm : BitVec 768 := 0
  data : List DataFlit := []
  need : Nat := 0
  bind : Byte := 0
  alt : BitVec 12 := 0
  altEn : Bool := false
  /-- a CPL or SNPRSP this site answers with -/
  answer : Bool := false
  phase : Phase := .data
  slots : Nat := 0
  since : BitVec 64 := 0
  bindClass : BitVec 3 := 0
  redHeld : Bool := false
  shapeHeld : Bool := false
  never : Bool := false
  waited : Bool := false
  path0 : Bool := false
  path1 : Bool := false
  acked : Bool := false
  wdUsed : Nat := 0
  /-- no access: completed or refused, kept only to take its beats or its acknowledgement -/
  dead : Bool := false
  /-- counted as having waited on an overlapping store -/
  ovWait : Bool := false
  /-- its place in the program order of the segment's agents (R153) -/
  ord : Nat := 0
  deriving DecidableEq, Repr

/-- One beat of an agent port, with PAR computed by the fabric: data, LAST, and the delivery it ends (source, plane). -/
structure Beat where
  bits : BitVec 1024
  last : Bool := true
  /-- the packet delivered with its last beat, by source, plane and SEQ; none for the NI's own beats -/
  deliv : Option (BitVec 12 × Nat × BitVec 16) := none
  /-- a CPL or SNPRSP of the site's own request, by tag -/
  cpl : Bool := false
  credit : Bool := false
  /-- the CPL of an LDRES (R173) -/
  ld : Bool := false
  /-- the packet delivered is C1 or an SNPRSP, which earn no grant (R134) -/
  noGrant : Bool := false
  /-- the CPL of a fence that an NI reset answers (R177) -/
  fence : Bool := false
  /-- what the CPL of a fence reports, a loss or a refusal, until it has been sent (R166) -/
  lost : Bool := false
  refused : Bool := false
  /-- delivered under receive state that has since been discarded (R536) -/
  old : Bool := false
  deriving DecidableEq, Repr

/-- One beat of the MG half out of the fabric, with LAST and whether the NI itself made the packet (R151). -/
structure MgBeat where
  bits : BitVec 64
  last : Bool := true
  own : Bool := false
  deriving DecidableEq, Repr

/-- An inbound non-posted request delivered to the agent, which owes an answer (R123, R124); `room` is the write/retry
entries reserved for its completion. -/
structure Inbound where
  src : BitVec 12
  tag : BitVec 12
  snp : Bool
  cls : BitVec 3
  fid : BitVec 20
  type : BitVec 4
  viaTwin : Bool := false
  room : Nat := 0
  deriving DecidableEq, Repr

/-- One way of the flow cache (R286, R292): the context in cache precision. TC and TP are unsigned 11.16, CREDIT signed
11.16; `cfg` is word 1. -/
structure Way where
  idx : BitVec 18
  last : BitVec 16 := 0
  tc : Nat := 0
  tp : Nat := 0
  credit : Int := 0
  cfg : BitVec 64 := 0
  next : BitVec 32 := 0
  hasNext : Bool := false
  dirty : Bool := false
  dirtyAt : BitVec 64 := 0
  unavail : Bool := false
  /-- a fetch is in flight: the context is not here yet -/
  fetch : Bool := false
  /-- write-backs in flight: a recall may add one (R304) -/
  wb : Nat := 0
  /-- evicted: it goes when its write-back ends -/
  evict : Bool := false
  used : Nat := 0
  deriving DecidableEq, Repr

/-- One network interface with its agent port (R66–R75, R107–R182, R274–R313). -/
structure Ni where
  clk : Bool := false
  arstN : Bool := false
  wake : Bool := false
  up : Bool := false
  store : List Entry := []
  nextId : Nat := 0
  wd : List (DataFlit × Bool) := []
  sr : List (BitVec 256 × Bool) := []
  mgIn : List (BitVec 64 × Bool) := []
  rs : List Beat := []
  sn : List Beat := []
  mgOut : List MgBeat := []
  wait : List Packet := []
  inb : List Inbound := []
  cplIn : List Packet := []
  feIn : List Packet := []
  feTags : List (Nat × Nat) := []
  retReq : Nat := 0
  retWd : Nat := 0
  retTun : Nat := 0
  retSnp : Nat := 0
  bind : List (Nat × BitVec 128) := []
  inFlight : List (Nat × Nat) := []
  fenceLost : Bool := false
  fenceRefused : Bool := false
  ldAt : Option (BitVec 64) := none
  epoch : BitVec 4 := 0
  ringVer : BitVec 8 := 0
  regacc : Option (BitVec 8) := none
  /-- the outstanding REGACC is a read (R114) -/
  regaccRd : Bool := false
  hold : Bool := false
  voted : Bool := false
  resetting : Bool := false
  cache : List Way := []
  useCount : Nat := 0
  feTag : BitVec 12 := 0
  /-- destinations of demoted flows, with whether on RSP: other C1 flows to them are treated the same way (R266) -/
  demDests : List (BitVec 12 × Bool) := []
  /-- destinations to which C1 flows of this site have sent CPLs, by FID (R266) -/
  rspDests : List (BitVec 20 × BitVec 12) := []
  /-- C1 packets acknowledged or completed of which one copy has still to go, with the entry they had (R254) -/
  late : List (Entry × Packet) := []
  deriving DecidableEq, Repr

/-- A reservation entry of a bank (R169, R172). -/
structure ResEntry where
  src : BitVec 12
  gran : BitVec 58
  prot : Bool := false
  at_ : BitVec 64 := 0
  deriving DecidableEq, Repr

/-- A burst under way at a bank port (R231, R315, R316): its packet, the lines of the beats to come, the bytes its beats have
read, the lines that carried a poison mark, and what its completion will tell. `released`: it was deferred (R172). -/
structure Burst where
  pkt : Packet
  lines : List Nat
  data : Nat := 0
  marks : List Nat := []
  bad : Bool := false
  full : Bool := false
  released : Bool := false
  deriving DecidableEq, Repr

/-- A bank port: the packets that wait, the burst under way, and the cycles it has waited (R231). -/
structure BankPort where
  q : List Packet := []
  burst : Option Burst := none
  wait : Nat := 0
  deriving DecidableEq, Repr

/-- The second cycle of a partial-word beat or an atomic (R320, R329): the line, what its subarray does, whose beat it is, and
the word an atomic writes. -/
structure Busy where
  line : Nat
  rd : Bool
  wr : Bool
  portB : Bool
  word : Option Nat := none
  deriving DecidableEq, Repr

/-- One bank beside its registers and its array (R314–R345). `hand` is the BANK_OWN word a handover will put in force. -/
structure Bank where
  res : List ResEntry := []
  protQ : List (BitVec 12 × BitVec 58) := []
  /-- deferred accesses and the beats they have still to make (R172) -/
  defer : List (Bool × Burst) := []
  pa : BankPort := {}
  pb : BankPort := {}
  /-- the port that holds the priority grant, port B if true, and the one that won it last (R321) -/
  grant : Option Bool := none
  lastB : Bool := true
  busy : List Busy := []
  /-- lines with a corrected word to write back, the cycle of an emergency grant still to come, and the cycles since the last
  such grant, 64 when it may come again (R231, R332, R334) -/
  urgent : List Nat := []
  engine : Bool := false
  since : Nat := 64
  /-- cycles for which the present row of the wake scrub has found no idle one, up to 64 (R334) -/
  noIdle : Nat := 0
  hand : Option Word := none
  zeroing : Bool := false
  zeroCmd : Bool := false
  /-- rows a zeroing has written (R326) -/
  zeroPos : Nat := 0
  scrubRow : Nat := 0
  wakeRow : Option Nat := none
  restoring : Bool := false
  deriving DecidableEq, Repr

/-- A packet on its way through a router: its output port code, output VC and, at an edge, which bundle of the row; its
effective age (R224), its epoch, and on VC3 which copy it is (R223). -/
structure Thru where
  out : Nat
  vc : Nat
  second : Bool := false
  eff : BitVec 16 := 0
  epoch : BitVec 4 := 0
  id : Nat := 0
  /-- a fabric control packet (R224), and the LA its flits carry on (R113) -/
  fab : Bool := false
  la : Nat := 7
  deriving DecidableEq, Repr

/-- What an output has decided for its next cycle (R221, R228). -/
inductive Grant where
  /-- a flit of input port code `i`, VC `v`, as background -/
  | bg (i v : Nat)
  /-- the VC3 flit of input `i`, in the slot cycle of a tick -/
  | slot (i : Nat) (tick : BitVec 64)
  /-- the drain engine -/
  | drain
  /-- a withdrawn grant: the cycle carries nothing -/
  | empty
  deriving DecidableEq, Repr

/-- A slot-owned transfer that has started (R236, R240): its input, the copy, its RTAG, and the flits left. -/
structure Run where
  inp : Nat
  id : Nat
  tag : Nat
  left : Nat
  deriving DecidableEq, Repr

/-- The arbiter state of one router output (R221, R225, R240). `next` is what is decided for the next cycle. The round robin
stands at input 6 before the first background winner, so that N is first (DESIGN CHOICE, log 89). -/
structure OutArb where
  bg : Nat := 0
  lastWin : Nat := 6
  next : Option Grant := none
  /-- cycles the drain engine owes: a forced tail, as 8 × input port code + output VC, the bundle of the row and on VC3 which
  copy it ends, or one discarded flit (R230) -/
  drain : List (Option (Nat × Bool × Nat)) := []
  /-- slot-owned transfers that have started -/
  runs : List Run := []
  /-- the tick whose slot cycle this output has decided last (R222) -/
  tick : Option (BitVec 64) := none
  /-- the tick of its last decision, and how many it has made in that tick -/
  at_ : Option (BitVec 64) := none
  phase : Nat := 0
  /-- the next cycle is the slot cycle of this tick -/
  slot : Option (BitVec 64) := none
  /-- a flit has crossed by bypass in the next cycle already (R227) -/
  used : Bool := false
  /-- the window in which a ready header was last held back (R236) -/
  deferred : Option Nat := none
  deriving DecidableEq, Repr

/-- One event source's record at the collector (R422–R441). -/
structure Src where
  total : BitVec 48 := 0
  lastCause : Byte := 0
  lastSynd : Word := 0
  count : Nat := 0
  wstart : BitVec 64 := 0
  lastFault : BitVec 64 := 0
  faulted : Bool := false
  severe : Bool := false
  kilnPass : Bool := false
  active : Bool := false
  activeEnd : BitVec 64 := 0
  /-- flipped bits of the stored complements of SRC_CFG and of the severity state (R442) -/
  cfgFlip : Bool := false
  stFlip : Bool := false
  deriving DecidableEq, Repr

/-- An event record beside a pulse (R415). -/
structure EvRec where
  cause : Byte
  synd : Word
  inj : Bool := false
  deriving DecidableEq, Repr

/-- The pulse crossing of one event source (R362–R364). `phase`: 0 idle, 1 request, 2 acknowledge. -/
structure Pulse where
  phase : Nat := 0
  flight : Option EvRec := none
  slot : Option EvRec := none
  lost : Nat := 0
  prev : Nat := 0
  deriving DecidableEq, Repr

/-- A flit frame as the transmit half sends and keeps it (R385, R387). -/
structure TxFrame where
  fsn : BitVec 8
  plane : Plane
  flit : Flit
  tick : BitVec 9 := 0
  deriving DecidableEq, Repr

/-- The frames of a transmit half (R384, R386). -/
inductive Frame where
  | idle
  | flit (f : TxFrame)
  | nak (fsn : BitVec 8)
  | lane (lane : Nat) (half : Bool) (mask : BitVec 17)
  | time (seq : BitVec 8) (tx rx : BitVec 64) (echo : BitVec 8)
  deriving DecidableEq, Repr

/-- What a transmit half sends in a block slot: the block kinds of R379, and the kindle pattern of R394. -/
inductive BlockKind where | data | resync | idle | slip | drowse | kindle
  deriving DecidableEq, Repr

/-- A frame begun, with the ACK, CIDX and CCNT fields of its header (R385). -/
structure Sent where
  frame : Frame := .idle
  ack : BitVec 8 := 0
  cidx : Nat := 31
  ccnt : BitVec 8 := 0
  deriving DecidableEq, Repr

/-- A block slot sent: its blocks, the frames begun in it in order, the units of its stream, and the line bits of each
physical lane (R378–R383). -/
structure BlockSlot where
  kind : BlockKind := .idle
  frames : List Sent := []
  units : List (BitVec 64) := []
  lanes : List (List Bool) := []
  deriving DecidableEq, Repr

/-- One bundle of a bridge, both halves (R377–R399). Keys of `txq`, `rxbuf`, `cred`, `freed`, `seen`, `waits` are
`8 × plane + VC`. -/
structure Bundle where
  txq : List (Nat × List (Flit × BitVec 9)) := []
  rxbuf : List (Nat × List (Flit × BitVec 9)) := []
  cred : List (Nat × Nat) := []
  freed : List (Nat × Nat) := []
  seen : List (Nat × Nat) := []
  replay : List TxFrame := []
  resend : List TxFrame := []
  fsn : BitVec 8 := 0
  rxFsn : BitVec 8 := 0
  discard : Bool := false
  /-- a RESYNC has come and no new frame since: frames already accepted are no error (R387) -/
  resynced : Bool := false
  nakDue : Bool := false
  laneDue : Option (Nat × Bool × BitVec 17) := none
  /-- healthy lanes of the map that the receive half adopts at the next RESYNC, and whether an injection made the change
  (R396, R446) -/
  laneNext : Option (BitVec 17 × Bool) := none
  resyncDue : Bool := false
  ackOwed : Bool := false
  replays : Nat := 0
  cidx : Nat := 0
  slots : Nat := 0
  /-- VC3 flits that the owned start in force still waits for, and the tick whose entry has been read (R393) -/
  claim : Nat := 0
  startAt : Option (BitVec 64) := none
  /-- the last block slot sent -/
  out : BlockSlot := {}
  /-- the frame in progress, and its units not sent yet (R383) -/
  cur : Option Sent := none
  left : Nat := 0
  waits : List (Nat × Nat) := []
  /-- MGT, so that REQ is first before any plane has won (DESIGN CHOICE, log 89) -/
  lastWin : Nat := 3
  rxMap : BitVec 17 := 0
  txMap : BitVec 17 := 0
  /-- the training in progress follows a wake (R395) -/
  keepTx : Bool := false
  keepRx : Bool := false
  /-- the pairs of the row's other bundle that this one carries (R399) -/
  pairs : List (BitVec 12 × BitVec 12) := []
  /-- pairs whose hold has expired: their next header stays on this bundle (R399) -/
  stay : List (BitVec 12 × BitVec 12) := []
  /-- receive VCs in the middle of a packet that the edge router takes from this bundle -/
  mid : List (Nat × Bool) := []
  /-- a control packet of the ring is coming in on MGT VC0 -/
  rxMsg : Bool := false
  timeDue : Bool := false
  timeSeq : BitVec 8 := 0
  /-- the receive stamp and SEQ of the last TIME frame taken (R386) -/
  rxStamp : BitVec 64 := 0
  rxSeq : BitVec 8 := 0
  /-- the scrambler of each physical lane (R380), and the last line bit with its run (R381) -/
  gens : List (BitVec 31) := []
  runs : List (Bool × Nat) := []
  /-- block slots of the kindle pattern still to send (R394) -/
  kindle : Nat := 0
  /-- a control frame a RESYNC abandoned: it goes out again after the replay (R232) -/
  after : Option Frame := none
  /-- the first flit of the owned start in force has gone (R241, R393) -/
  begun : Bool := false
  deriving DecidableEq, Repr

/-- One bridge beside its page (R400–R410). -/
structure Bridge where
  bundles : List (Nat × Bundle) := []
  /-- control packets that wait for the time bundle, header first (R386) -/
  msgs : List (List (BitVec 64)) := []
  /-- the pair has trained and is not down -/
  up : Bool := false
  /-- a down pair retrains every 10 µs (R401) -/
  retrain : Bool := false
  /-- consecutive exchanges with a small offset (R409, R410) -/
  okRun : Nat := 0
  /-- the bundle a LANE_CMD still trains (R411) -/
  laneRun : Option Nat := none
  deriving DecidableEq, Repr

/-- One bay beside its page (R478–R491). -/
structure Bay where
  strikes : List (BitVec 64) := []
  /-- a read is in progress and holds the I²C controller -/
  idBusy : Bool := false
  attempts : Nat := 0
  /-- when the retry timer was started -/
  retryFrom : BitVec 64 := 0
  /-- the site a BOUND bay has bound; 0x1FF names none (R489) -/
  site : Nat := 0x1FF
  deriving DecidableEq, Repr

/-- An open guard (R41): the page, the opening offset and value, and who opened it. -/
structure Guard where
  page : Nat
  off : Nat
  val : Word
  req : Requester
  deriving DecidableEq, Repr

/-- A register access at the segment controller: from the management port, from a REGACC slot or from a row of the
command table (R45, R78, R114, R210). -/
structure Access where
  req : Requester
  wr : Bool
  size : BitVec 2
  addr : Word
  data : BitVec 64 := 0
  /-- a single-packet guarded pair (R45) -/
  pair : Bool := false
  /-- a CPL with this tag is owed on the MGT plane -/
  cpl : Option (BitVec 8) := none
  /-- stamped under a mismatched TEN_DOM word: refused whatever the page's owner (R63) -/
  badDom : Bool := false
  /-- a guarded value the controller has committed, waiting for its unit to wake (R82) -/
  committed : Bool := false
  /-- it has passed the rows of R36 and waits for its unit: the access in progress -/
  passed : Bool := false
  /-- what the command itself tells: the reference clock is good (R496), or the step comes late (R511) -/
  told : Option Bool := none
  deriving DecidableEq, Repr

/-- The management port (R76–R84): its outputs as of the last completion, and a 64-bit access half done: whether it is a
write, its first address, and the data held for its second request. -/
structure Mp where
  ready : Bool := false
  ack : Bool := false
  err : Bool := false
  rdata : Word := 0
  half : Option (Bool × Word × Word) := none
  deriving DecidableEq, Repr

/-- An EVT queued for a target (R434, R435). -/
structure Evt where
  target : BitVec 12
  flit0 : BitVec 64
  flit1 : BitVec 64
  deriving DecidableEq, Repr

/-- A configuration notice (R302): index, new OTAG, word 1, the changed-field flags and whether WRITE_RAW sent it. -/
structure Notice where
  idx : BitVec 18
  otag : BitVec 2
  cfg : BitVec 64
  shapeCh : Bool
  meterCh : Bool
  raw : Bool
  deriving DecidableEq, Repr

/-- A TILE_CMD in progress (R459–R461). `stage`: 0 voting, 1 waiting for the epoch, 2 for VACK, 3 rows, 4 last epoch. -/
structure TileCmd where
  op : Nat
  first : Nat
  last : Nat
  keep : Bool
  stage : Nat := 0
  row : Nat := 0
  deriving DecidableEq, Repr

/-- The injector at work (R446): injections left and the kind of event it raises. -/
structure Inj where
  left : Nat
  mode : Nat
  deriving DecidableEq, Repr

/-- The segment controller (R11, R23, R58, R201, R302, R402–R409, R459–R466). -/
structure Ctl where
  /-- accesses waiting for a wake, and those behind them, oldest first (R23, R81) -/
  stalled : List Access := []
  /-- accesses served of the present 16 for which both kinds of requester had one waiting (R58 MP_SHARE) -/
  share : Nat := 0
  /-- SEG_LOCK has mismatched: both locks act as set until segment reset (R430) -/
  lockForced : Bool := false
  /-- quadrants whose VACK has been 0 beyond the limit, and a partition that stands (R99, R406, R436) -/
  vlow : BitVec 4 := 0
  /-- one more than the VREQ code each quadrant's supply last allowed, and whether the ramp of a tile aligns it as a C1 tile
  (R99, R352) -/
  vgood : List (Nat × Nat) := []
  rampC1 : List (Nat × Bool) := []
  parted : Bool := false
  guards : List Guard := []
  /-- maps by epoch: the current and the previous one are in use -/
  maps : List (Nat × FenceMap) := []
  epoch : BitVec 4 := 0
  prevLive : Bool := false
  mapped : Bool := false
  wantMap : Bool := false
  sagTiles : List Nat := []
  dormant : List Nat := []
  adoptDue : List Nat := []
  reportDue : List Nat := []
  ring : Ring := {}
  rings : List (Nat × Ring) := []
  ringDue : List Nat := []
  /-- the tiles whose MGT router the fence-map broadcast has reached (R201) -/
  fabAt : List Nat := []
  /-- payloads of the fence-map broadcast and of the ring notice that follows it, as sent from the attachment tile
  (R196, R202, R203) -/
  mapFab : List (BitVec 64) := []
  ringFab : List (BitVec 64) := []
  nonce : Word := 0
  /-- the HELLO last taken at each bridge of a joining segment -/
  hellos : List (Nat × Hello) := []
  /-- the joiner has stepped its FTB, and its consecutive exchanges within 2 ticks (R409) -/
  stepped : Bool := false
  okTime : Nat := 0
  /-- bridges that face a joined segment of another anchor: their pair stays closed (R406) -/
  partSides : BitVec 2 := 0
  /-- down and time-lost bits of each segment as last reported: BR0 side, BR1 side (R402, R403) -/
  ends : List (Nat × BitVec 2 × BitVec 2) := []
  /-- the segments whose reports the anchor still awaits to rebuild a mismatched ring state, and that state so far (R430) -/
  rebuild : Option (List Nat × Ring) := none
  /-- the pair an ADMIT in force closes (R408) -/
  admitting : Option Nat := none
  /-- EVTs not yet on the MGT plane -/
  evts : List Evt := []
  dropped : BitVec 4 := 0
  tileCmd : Option TileCmd := none
  voters : List Nat := []
  /-- the voters that have quiesced on PREPARE (R466) -/
  prepared : List Nat := []
  votes : List (Nat × Nat) := []
  halt : Bool := false
  halted : Bool := false
  lowPower : Bool := false
  /-- energy spent since the last power step in fJ, the estimates of the averaging window in µW, newest first, and the part of a
  µJ that CNT_ENERGY does not show yet, in 10⁻⁵ µJ (R473) -/
  spent : Nat := 0
  estimates : List Nat := []
  energyRest : Nat := 0
  /-- the tick generator was started and has not locked (R369, R496) -/
  tickStart : Bool := false
  notice : Option Notice := none
  noticeDue : List Nat := []
  recalled : Option (BitVec 18) := none
  recallDue : List Nat := []
  recallAll : Option (BitVec 18 × BitVec 18) := none
  recallAllDue : List Nat := []
  /-- the contexts of the INIT in progress are not written yet (R305) -/
  fwInit : Bool := false
  disableDue : List Nat := []
  inj : Option Inj := none
  injFlit : Bool := false
  /-- the last flip in a value of the collector came from the injector (R446) -/
  collInj : Bool := false
  /-- the bulk write in progress: its type and value (R447) -/
  bulk : Option (Nat × Word) := none
  restore : Option (Nat × Nat) := none
  /-- the bays that wait for the I²C controller, in the order asked (R486) -/
  i2cAsked : List Nat := []
  deriving DecidableEq, Repr

/-- The kiln, factory mode and fuses beside the KILN page (R498–R513). -/
structure Kiln where
  run : Option (Nat × Bool × Nat × Nat × Bool) := none
  sols : List (Nat × Word) := []
  solOk : List (Nat × Nat) := []
  fuseCmd : Option (Nat × Nat) := none
  /-- when the last key was accepted (R511) -/
  keyAt : BitVec 64 := 0
  loading : Bool := true
  deriving DecidableEq, Repr

/-- The outputs and static inputs of a segment that no page shows (R84, R88, R93, R102, R105). `fuseClk` tells that
FUSE_CLK runs. -/
structure Pins where
  poresetN : Bool := true
  segResetN : Bool := true
  alive : Bool := false
  bypOpen : Bool := false
  i2cSel : Option Nat := none
  fuseClk : Bool := false
  fuseCs : Bool := false
  fusePgm : Bool := false
  fuseAddr : BitVec 10 := 0
  fusePbit : BitVec 5 := 0
  deriving DecidableEq, Repr

/-- One segment. `regs` is keyed by `1024 × page + offset ÷ 4` and holds every word of every page that is not computed when it
is read; `cnts` by `4096 × (1024 × page + view) + offset`; `flips` holds the flipped bits of glaze complements, keyed as
`regs`. `srcCfg` is SRC_CFG by local source. `inFlow` lists the packets in transfer by input VC, on VC3 perhaps several;
`dropTail` the packets of an input VC of which the rest is discarded, each with 1 + its output port code, or 0. `free` counts
the free values used: the model's own field. `canary` is keyed by 32 × bank + 8 × row + word. -/
structure Seg where
  strap : Nat := 0
  regs : List (Nat × Word) := []
  cnts : List (Nat × Nat) := []
  flips : List (Nat × Word) := []
  fuses : List (Nat × Word) := []
  /-- the code a tile is changing to (R351); 0: none -/
  ramp : List (Nat × Nat) := []
  /-- the tile's DCO is phase-locked to the slot tick (R352) -/
  aligned : List (Nat × Bool) := []
  /-- VREQ was raised and its VACK has not come (R99), by quadrant -/
  vwait : List (Nat × Bool) := []
  /-- the tile's DCO is out of lock (R353) -/
  dcoLost : List (Nat × Bool) := []
  held : List (Nat × Word) := []
  ftb : BitVec 64 := 0
  bisque : BitVec 64 := 0
  tileFtb : List (Nat × BitVec 64) := []
  synced : List (Nat × Bool) := []
  pins : Pins := {}
  mp : Mp := {}
  ctl : Ctl := {}
  kiln : Kiln := {}
  srcs : List (Nat × Src) := []
  srcCfg : List (Nat × Word) := []
  pulses : List (Nat × Pulse) := []
  eps : List (Nat × Ep) := []
  nis : List (Nat × Ni) := []
  banks : List (Nat × Bank) := []
  bmem : List Host.Cell := []
  marks : List (Nat × Bool) := []
  canary : List (Nat × BitVec 64) := []
  landing : List (Nat × List Flit) := []
  /-- the sampling path of a landing FIFO (R354): 0 two-flop, 1 fast, 2 aligned -/
  samp : List (Nat × Nat) := []
  vcbuf : List (Nat × List Flit) := []
  inFlow : List (Nat × Thru) := []
  outVc : List (Nat × Nat) := []
  cred : List (Nat × Nat) := []
  freed : List (Nat × Nat) := []
  seenGray : List (Nat × Nat) := []
  waits : List (Nat × Nat) := []
  outs : List (Nat × OutArb) := []
  linkDn : List (Nat × Bool) := []
  initDue : List (Nat × Bool) := []
  dropTail : List (Nat × List (Nat × Nat)) := []
  slots : List (Nat × Nat) := []
  descs : List (Nat × Word) := []
  bslots : List (Nat × Nat) := []
  brs : List (Nat × Bridge) := []
  bays : List (Nat × Bay) := []
  /-- RQ beats taken in the segment: the place of the next in program order (R153) -/
  order : Nat := 0
  free : Nat := 0
  deriving DecidableEq, Repr

/-- The block: four segments (R2, R6) and the commands that wait, first in, first out. -/
structure State where
  s0 : Seg
  s1 : Seg
  s2 : Seg
  s3 : Seg
  pending : List Instr
  deriving DecidableEq, Repr

/-- A segment right after PORESET_N is released with the given segment-number strap (R95, R495 step 1): the bisque
state, fuses not yet read, TEST_MODE sampled at 0. -/
def Seg.reset (strap : Nat) : Seg := { strap := strap, pins := { fuseClk := true, fuseCs := true } }

/-- The machine right after reset: every segment right after its PORESET_N release, straps 0 to 3 (R97), no command
waiting. -/
def State.reset : State :=
  { s0 := Seg.reset 0, s1 := Seg.reset 1, s2 := Seg.reset 2, s3 := Seg.reset 3, pending := [] }

end Sys2Proof.Machine
end

