-- ==== Sys2Proof/Machine/RegMap.lean ====
section
/-!
DEFINITION. The register maps: every page's words and fields with their bits, access codes and reset values, as the
map tables of the manual give them (R28, R58, R61, R148, R180, R213, R244, R272, R308, R311, R343, R373, R411, R447,
R474, R492, R514). Rows keep the tables' order.
-/
namespace Sys2Proof.Machine

/-- The access codes of R34 that a word can hold (counters are elsewhere). -/
inductive Acc where | ro | rw | rwl | w1c | wg | rsv
  deriving DecidableEq, Repr

/-- The kinds of page of R26. -/
inductive Kind where | seg | coll | pwr | clk | kiln | ten | flowwin | br | bay | router | ni | bank
  deriving DecidableEq, Repr

/-- A field by the byte offset of its word and its bits. -/
structure Field where
  off : Nat
  hi : Nat
  lo : Nat
  deriving DecidableEq, Repr

/-- The same field in the `i`-th word of an array of words 4 bytes apart. -/
def Field.at (f : Field) (i : Nat) : Field := { f with off := f.off + 4 * i }

/-- The same field in the `i`-th word of an array of words 8 bytes apart. -/
def Field.at8 (f : Field) (i : Nat) : Field := { f with off := f.off + 8 * i }

/-- A row of a register map: `count` words from `base`, `stride` bytes apart, bits `hi`–`lo`, reset value `rst`
(`none`: the manual gives none). -/
structure MapRow where
  base : Nat
  stride : Nat
  count : Nat
  hi : Nat
  lo : Nat
  acc : Acc
  rst : Option Nat
  deriving DecidableEq, Repr

namespace Reg.PAGE
/-- TYPE (R28). -/
def PAGE_ID_TYPE : Field := ⟨0x0, 31, 24⟩
/-- INDEX (R28). -/
def PAGE_ID_INDEX : Field := ⟨0x0, 23, 12⟩
/-- VERSION (R28). -/
def PAGE_ID_VERSION : Field := ⟨0x0, 11, 0⟩
/-- DRAIN (R28). -/
def PAGE_CAP_DRAIN : Field := ⟨0x4, 12, 12⟩
/-- OWNER_FIXED (R28). -/
def PAGE_CAP_OWNER_FIXED : Field := ⟨0x4, 11, 11⟩
/-- GLAZE (R28). -/
def PAGE_CAP_GLAZE : Field := ⟨0x4, 10, 10⟩
/-- PROGRESS (R28). -/
def PAGE_CAP_PROGRESS : Field := ⟨0x4, 9, 9⟩
/-- EXPERT (R28). -/
def PAGE_CAP_EXPERT : Field := ⟨0x4, 8, 8⟩
/-- CNT_PAIRS (R28). -/
def PAGE_CAP_CNT_PAIRS : Field := ⟨0x4, 7, 0⟩
/-- DRAIN (R28). -/
def PAGE_CTRL_DRAIN : Field := ⟨0x8, 1, 1⟩
/-- ENABLE (R28). -/
def PAGE_CTRL_ENABLE : Field := ⟨0x8, 0, 0⟩
/-- RETENTION_LOST (R28). -/
def PAGE_STAT_RETENTION_LOST : Field := ⟨0xC, 3, 3⟩
/-- SAGGARED (R28). -/
def PAGE_STAT_SAGGARED : Field := ⟨0xC, 2, 2⟩
/-- BUSY (R28). -/
def PAGE_STAT_BUSY : Field := ⟨0xC, 1, 1⟩
/-- ENABLED (R28). -/
def PAGE_STAT_ENABLED : Field := ⟨0xC, 0, 0⟩
/-- UNIT (R28). -/
def PAGE_EVT_UNIT : Field := ⟨0x10, 31, 8⟩
/-- CFG (R28). -/
def PAGE_EVT_CFG : Field := ⟨0x10, 1, 1⟩
/-- CNT_SAT (R28). -/
def PAGE_EVT_CNT_SAT : Field := ⟨0x10, 0, 0⟩
/-- MASK (R28). -/
def PAGE_EVT_MASK_MASK : Field := ⟨0x14, 31, 0⟩
/-- CNT_SAT (R28). -/
def PAGE_FLAGS_CNT_SAT : Field := ⟨0x18, 4, 4⟩
/-- BAD_WIDTH (R28). -/
def PAGE_FLAGS_BAD_WIDTH : Field := ⟨0x18, 3, 3⟩
/-- LOCK_HIT (R28). -/
def PAGE_FLAGS_LOCK_HIT : Field := ⟨0x18, 2, 2⟩
/-- GUARD_FAIL (R28). -/
def PAGE_FLAGS_GUARD_FAIL : Field := ⟨0x18, 1, 1⟩
/-- CFG_IGNORED (R28). -/
def PAGE_FLAGS_CFG_IGNORED : Field := ⟨0x18, 0, 0⟩
/-- READ_ANY (R28). -/
def PAGE_OWNER_READ_ANY : Field := ⟨0x1C, 8, 8⟩
/-- OWNER_DOM (R28). -/
def PAGE_OWNER_OWNER_DOM : Field := ⟨0x1C, 5, 0⟩
/-- BUSY (R28). -/
def PROGRESS_BUSY : Field := ⟨0x20, 31, 31⟩
/-- PERCENT (R28). -/
def PROGRESS_PERCENT : Field := ⟨0x20, 30, 24⟩
/-- POSITION (R28). -/
def PROGRESS_POSITION : Field := ⟨0x20, 23, 0⟩

end Reg.PAGE

def commonMap0 : List MapRow := [
  ⟨0x0, 0, 1, 31, 24, .ro, none⟩,
  ⟨0x0, 0, 1, 23, 12, .ro, none⟩,
  ⟨0x0, 0, 1, 11, 0, .ro, some 0x320⟩,
  ⟨0x4, 0, 1, 31, 13, .rsv, none⟩,
  ⟨0x4, 0, 1, 12, 12, .ro, none⟩,
  ⟨0x4, 0, 1, 11, 11, .ro, none⟩,
  ⟨0x4, 0, 1, 10, 10, .ro, none⟩,
  ⟨0x4, 0, 1, 9, 9, .ro, none⟩,
  ⟨0x4, 0, 1, 8, 8, .ro, none⟩,
  ⟨0x4, 0, 1, 7, 0, .ro, none⟩,
  ⟨0x8, 0, 1, 31, 2, .rsv, none⟩,
  ⟨0x8, 0, 1, 1, 1, .rwl, some 0x0⟩,
  ⟨0x8, 0, 1, 0, 0, .rwl, none⟩,
  ⟨0xC, 0, 1, 31, 4, .rsv, none⟩,
  ⟨0xC, 0, 1, 3, 3, .ro, some 0x0⟩,
  ⟨0xC, 0, 1, 2, 2, .ro, some 0x0⟩,
  ⟨0xC, 0, 1, 1, 1, .ro, some 0x0⟩,
  ⟨0xC, 0, 1, 0, 0, .ro, some 0x0⟩,
  ⟨0x10, 0, 1, 31, 8, .w1c, some 0x0⟩,
  ⟨0x10, 0, 1, 7, 2, .rsv, none⟩,
  ⟨0x10, 0, 1, 1, 1, .w1c, some 0x0⟩,
  ⟨0x10, 0, 1, 0, 0, .w1c, some 0x0⟩,
  ⟨0x14, 0, 1, 31, 0, .rwl, some 0x0⟩,
  ⟨0x18, 0, 1, 31, 5, .rsv, none⟩]

def commonMap1 : List MapRow := [
  ⟨0x18, 0, 1, 4, 4, .w1c, some 0x0⟩,
  ⟨0x18, 0, 1, 3, 3, .w1c, some 0x0⟩,
  ⟨0x18, 0, 1, 2, 2, .w1c, some 0x0⟩,
  ⟨0x18, 0, 1, 1, 1, .w1c, some 0x0⟩,
  ⟨0x18, 0, 1, 0, 0, .w1c, some 0x0⟩,
  ⟨0x1C, 0, 1, 31, 9, .rsv, none⟩,
  ⟨0x1C, 0, 1, 8, 8, .wg, some 0x0⟩,
  ⟨0x1C, 0, 1, 7, 6, .rsv, none⟩,
  ⟨0x1C, 0, 1, 5, 0, .wg, some 0x0⟩,
  ⟨0x20, 0, 1, 31, 31, .ro, some 0x0⟩,
  ⟨0x20, 0, 1, 30, 24, .ro, some 0x0⟩,
  ⟨0x20, 0, 1, 23, 0, .ro, some 0x0⟩]

/-- The map of the PAGE page, common registers (R28). -/
def commonMap : List MapRow := commonMap0 ++ commonMap1

namespace Reg.SEG
/-- JOINED (R58). -/
def SEG_ID_JOINED : Field := ⟨0x100, 3, 3⟩
/-- ANCHOR (R58). -/
def SEG_ID_ANCHOR : Field := ⟨0x100, 2, 2⟩
/-- SEG_NUM (R58). -/
def SEG_ID_SEG_NUM : Field := ⟨0x100, 1, 0⟩
/-- MAJOR (R58). -/
def SEG_VERSION_MAJOR : Field := ⟨0x104, 23, 16⟩
/-- MINOR (R58). -/
def SEG_VERSION_MINOR : Field := ⟨0x104, 15, 8⟩
/-- PATCH (R58). -/
def SEG_VERSION_PATCH : Field := ⟨0x104, 7, 0⟩
/-- BISQUE (R58). -/
def SEG_STAT_BISQUE : Field := ⟨0x108, 6, 6⟩
/-- SOAK (R58). -/
def SEG_STAT_SOAK : Field := ⟨0x108, 5, 5⟩
/-- FACTORY (R58). -/
def SEG_STAT_FACTORY : Field := ⟨0x108, 4, 4⟩
/-- MODE (R58). -/
def SEG_CTRL_MODE : Field := ⟨0x110, 5, 4⟩
/-- EXPERT_EN (R58). -/
def SEG_CTRL_EXPERT_EN : Field := ⟨0x110, 0, 0⟩
/-- LOCK_EXPERT (R58). -/
def SEG_LOCK_LOCK_EXPERT : Field := ⟨0x118, 1, 1⟩
/-- LOCK_OWNERS (R58). -/
def SEG_LOCK_LOCK_OWNERS : Field := ⟨0x118, 0, 0⟩
/-- SCRATCH0 (R58). -/
def SCRATCH0 : Field := ⟨0x120, 31, 0⟩
/-- SCRATCH1 (R58). -/
def SCRATCH1 : Field := ⟨0x124, 31, 0⟩
/-- FTB (R58). -/
def FTB_LO : Field := ⟨0x130, 31, 0⟩
/-- FTB (R58). -/
def FTB_HI : Field := ⟨0x134, 31, 0⟩
/-- MESH_DIM (R58). -/
def SEG_CAP_MESH_DIM : Field := ⟨0x140, 15, 8⟩
/-- SEG_BUILT (R58). -/
def SEG_CAP_SEG_BUILT : Field := ⟨0x140, 2, 0⟩
/-- CFG_DIGEST (R58). -/
def CFG_DIGEST_LO : Field := ⟨0x148, 31, 0⟩
/-- CFG_DIGEST (R58). -/
def CFG_DIGEST_HI : Field := ⟨0x14C, 31, 0⟩
/-- MP_SHARE (R58). -/
def MP_SHARE : Field := ⟨0x400, 3, 0⟩
/-- SEG_CTRL_GZ (R60). -/
def SEG_CTRL_GZ : Field := ⟨0xE00, 31, 0⟩
/-- SEG_LOCK_GZ (R60). -/
def SEG_LOCK_GZ : Field := ⟨0xE04, 31, 0⟩

end Reg.SEG

def segMap0 : List MapRow := [
  ⟨0x100, 0, 1, 31, 4, .rsv, none⟩,
  ⟨0x100, 0, 1, 3, 3, .ro, some 0x0⟩,
  ⟨0x100, 0, 1, 2, 2, .ro, some 0x0⟩,
  ⟨0x100, 0, 1, 1, 0, .ro, none⟩,
  ⟨0x104, 0, 1, 31, 24, .rsv, none⟩,
  ⟨0x104, 0, 1, 23, 16, .ro, some 0x3⟩,
  ⟨0x104, 0, 1, 15, 8, .ro, some 0x2⟩,
  ⟨0x104, 0, 1, 7, 0, .ro, some 0x0⟩,
  ⟨0x108, 0, 1, 31, 7, .rsv, none⟩,
  ⟨0x108, 0, 1, 6, 6, .ro, some 0x1⟩,
  ⟨0x108, 0, 1, 5, 5, .ro, some 0x0⟩,
  ⟨0x108, 0, 1, 4, 4, .ro, some 0x0⟩,
  ⟨0x108, 0, 1, 3, 0, .rsv, none⟩,
  ⟨0x110, 0, 1, 31, 6, .rsv, none⟩,
  ⟨0x110, 0, 1, 5, 4, .wg, some 0x1⟩,
  ⟨0x110, 0, 1, 3, 1, .rsv, none⟩,
  ⟨0x110, 0, 1, 0, 0, .wg, some 0x0⟩,
  ⟨0x118, 0, 1, 31, 2, .rsv, none⟩,
  ⟨0x118, 0, 1, 1, 1, .wg, some 0x0⟩,
  ⟨0x118, 0, 1, 0, 0, .wg, some 0x0⟩,
  ⟨0x120, 0, 1, 31, 0, .rwl, some 0x0⟩,
  ⟨0x124, 0, 1, 31, 0, .rwl, some 0x0⟩,
  ⟨0x130, 0, 1, 31, 0, .ro, some 0x0⟩,
  ⟨0x134, 0, 1, 31, 0, .ro, some 0x0⟩]

def segMap1 : List MapRow := [
  ⟨0x140, 0, 1, 31, 16, .rsv, none⟩,
  ⟨0x140, 0, 1, 15, 8, .ro, some 0xc⟩,
  ⟨0x140, 0, 1, 7, 3, .rsv, none⟩,
  ⟨0x140, 0, 1, 2, 0, .ro, some 0x4⟩,
  ⟨0x148, 0, 1, 31, 0, .ro, none⟩,
  ⟨0x14C, 0, 1, 31, 0, .ro, none⟩,
  ⟨0x400, 0, 1, 31, 4, .rsv, none⟩,
  ⟨0x400, 0, 1, 3, 0, .rwl, some 0x8⟩,
  ⟨0xE00, 0, 1, 31, 0, .ro, some 0xffffffef⟩,
  ⟨0xE04, 0, 1, 31, 0, .ro, some 0xffffffff⟩]

/-- The map of the SEG page. -/
def segMap : List MapRow := segMap0 ++ segMap1

namespace Reg.COLL
/-- SEVERE_N (R447). -/
def COLL_STAT_SEVERE_N : Field := ⟨0x100, 25, 16⟩
/-- AUTO (R447). -/
def COLL_STAT_AUTO : Field := ⟨0x100, 3, 3⟩
/-- ANY_SEVERE (R447). -/
def COLL_STAT_ANY_SEVERE : Field := ⟨0x100, 2, 2⟩
/-- SOAK (R447). -/
def COLL_STAT_SOAK : Field := ⟨0x100, 1, 1⟩
/-- RUNNING (R447). -/
def COLL_STAT_RUNNING : Field := ⟨0x100, 0, 0⟩
/-- SRC_SEL (R447). -/
def SRC_SEL : Field := ⟨0x104, 9, 0⟩
/-- W (R447). -/
def SRC_CFG_W : Field := ⟨0x108, 27, 16⟩
/-- SHERD_ALL (R447). -/
def SRC_CFG_SHERD_ALL : Field := ⟨0x108, 14, 14⟩
/-- TGT (R447). -/
def SRC_CFG_TGT : Field := ⟨0x108, 13, 10⟩
/-- REACT (R447). -/
def SRC_CFG_REACT : Field := ⟨0x108, 9, 8⟩
/-- N (R447). -/
def SRC_CFG_N : Field := ⟨0x108, 7, 0⟩
/-- LAST_CAUSE (R447). -/
def SRC_STAT_LAST_CAUSE : Field := ⟨0x10C, 23, 16⟩
/-- COUNT (R447). -/
def SRC_STAT_COUNT : Field := ⟨0x10C, 15, 8⟩
/-- KILN_PASS (R447). -/
def SRC_STAT_KILN_PASS : Field := ⟨0x10C, 3, 3⟩
/-- ACTIVE (R447). -/
def SRC_STAT_ACTIVE : Field := ⟨0x10C, 2, 2⟩
/-- SAGGARED (R447). -/
def SRC_STAT_SAGGARED : Field := ⟨0x10C, 1, 1⟩
/-- SEVERE (R447). -/
def SRC_STAT_SEVERE : Field := ⟨0x10C, 0, 0⟩
/-- LAST_SYND (R447). -/
def LAST_SYND : Field := ⟨0x110, 31, 0⟩
/-- SRC (R447). -/
def SRC_CMD_SRC : Field := ⟨0x118, 17, 8⟩
/-- BUNDLE (R447). -/
def SRC_CMD_BUNDLE : Field := ⟨0x118, 6, 2⟩
/-- OP (R447). -/
def SRC_CMD_OP : Field := ⟨0x118, 1, 0⟩
/-- BUSY (R447). -/
def CMD_STAT_BUSY : Field := ⟨0x120, 31, 31⟩
/-- RESULT (R447). -/
def CMD_STAT_RESULT : Field := ⟨0x120, 3, 0⟩
/-- VALID (R447). -/
def TGT_VALID : Field := ⟨0x130, 31, 31⟩
/-- EID (R447). -/
def TGT_EID : Field := ⟨0x130, 11, 0⟩
/-- BUSY (R447). -/
def BULK_CMD_BUSY : Field := ⟨0x140, 31, 31⟩
/-- TYPE (R447). -/
def BULK_CMD_TYPE : Field := ⟨0x140, 2, 0⟩
/-- BULK_CFG (R447). -/
def BULK_CFG : Field := ⟨0x144, 31, 0⟩
/-- QUIET (R447). -/
def QUIET : Field := ⟨0x150, 11, 0⟩
/-- WRITES (R447). -/
def SHERD_HEAD_WRITES : Field := ⟨0x160, 31, 16⟩
/-- NEXT (R447). -/
def SHERD_HEAD_NEXT : Field := ⟨0x160, 4, 0⟩
/-- VALID (R447). -/
def SOAK_INFO_VALID : Field := ⟨0x170, 31, 31⟩
/-- SRC (R447). -/
def SOAK_INFO_SRC : Field := ⟨0x170, 21, 12⟩
/-- OFFSET (R447). -/
def SOAK_INFO_OFFSET : Field := ⟨0x170, 11, 0⟩
/-- SEVERE_MAP (R447). -/
def SEVERE_MAP : Field := ⟨0x180, 31, 0⟩
/-- SHERD (R447). -/
def SHERD : Field := ⟨0x200, 31, 0⟩
/-- TGT_GZ (R447). -/
def TGT_GZ : Field := ⟨0xE00, 31, 0⟩
/-- QUIET_GZ (R447). -/
def QUIET_GZ : Field := ⟨0xE10, 31, 0⟩
/-- SPACING (R447). -/
def INJ_CTRL_SPACING : Field := ⟨0xF00, 31, 16⟩
/-- COUNT (R447). -/
def INJ_CTRL_COUNT : Field := ⟨0xF00, 15, 8⟩
/-- KIND (R447). -/
def INJ_CTRL_KIND : Field := ⟨0xF00, 5, 4⟩
/-- MODE (R447). -/
def INJ_CTRL_MODE : Field := ⟨0xF00, 2, 1⟩
/-- GO (R447). -/
def INJ_CTRL_GO : Field := ⟨0xF00, 0, 0⟩
/-- DOUBLE (R447). -/
def INJ_SEL_DOUBLE : Field := ⟨0xF04, 21, 21⟩
/-- PLANE (R447). -/
def INJ_SEL_PLANE : Field := ⟨0xF04, 20, 19⟩
/-- PORT (R447). -/
def INJ_SEL_PORT : Field := ⟨0xF04, 18, 16⟩
/-- LANE (R447). -/
def INJ_SEL_LANE : Field := ⟨0xF04, 15, 11⟩
/-- INJ_SRC (R447). -/
def INJ_SEL_INJ_SRC : Field := ⟨0xF04, 9, 0⟩
/-- INJ_SYND (R447). -/
def INJ_SYND : Field := ⟨0xF08, 31, 0⟩
/-- INJ_PAGE (R447). -/
def INJ_LOC_INJ_PAGE : Field := ⟨0xF0C, 17, 17⟩
/-- BUNDLE (R447). -/
def INJ_LOC_BUNDLE : Field := ⟨0xF0C, 16, 12⟩
/-- OFFSET (R447). -/
def INJ_LOC_OFFSET : Field := ⟨0xF0C, 11, 0⟩

end Reg.COLL

def collMap0 : List MapRow := [
  ⟨0x100, 0, 1, 31, 26, .rsv, none⟩,
  ⟨0x100, 0, 1, 25, 16, .ro, some 0x0⟩,
  ⟨0x100, 0, 1, 15, 4, .rsv, none⟩,
  ⟨0x100, 0, 1, 3, 3, .ro, some 0x1⟩,
  ⟨0x100, 0, 1, 2, 2, .ro, some 0x0⟩,
  ⟨0x100, 0, 1, 1, 1, .ro, some 0x0⟩,
  ⟨0x100, 0, 1, 0, 0, .ro, some 0x0⟩,
  ⟨0x104, 0, 1, 31, 10, .rsv, none⟩,
  ⟨0x104, 0, 1, 9, 0, .rwl, some 0x0⟩,
  ⟨0x108, 0, 1, 31, 28, .rsv, none⟩,
  ⟨0x108, 0, 1, 27, 16, .rwl, none⟩,
  ⟨0x108, 0, 1, 15, 15, .rsv, none⟩,
  ⟨0x108, 0, 1, 14, 14, .rwl, none⟩,
  ⟨0x108, 0, 1, 13, 10, .rwl, some 0x0⟩,
  ⟨0x108, 0, 1, 9, 8, .rwl, none⟩,
  ⟨0x108, 0, 1, 7, 0, .rwl, some 0x8⟩,
  ⟨0x10C, 0, 1, 31, 24, .rsv, none⟩,
  ⟨0x10C, 0, 1, 23, 16, .ro, some 0x0⟩,
  ⟨0x10C, 0, 1, 15, 8, .ro, some 0x0⟩,
  ⟨0x10C, 0, 1, 7, 4, .rsv, none⟩,
  ⟨0x10C, 0, 1, 3, 3, .ro, some 0x0⟩,
  ⟨0x10C, 0, 1, 2, 2, .ro, some 0x0⟩,
  ⟨0x10C, 0, 1, 1, 1, .ro, some 0x0⟩,
  ⟨0x10C, 0, 1, 0, 0, .ro, some 0x0⟩]

def collMap1 : List MapRow := [
  ⟨0x110, 0, 1, 31, 0, .ro, some 0x0⟩,
  ⟨0x118, 0, 1, 31, 18, .rsv, none⟩,
  ⟨0x118, 0, 1, 17, 8, .wg, some 0x0⟩,
  ⟨0x118, 0, 1, 7, 7, .rsv, none⟩,
  ⟨0x118, 0, 1, 6, 2, .wg, some 0x0⟩,
  ⟨0x118, 0, 1, 1, 0, .wg, some 0x0⟩,
  ⟨0x120, 0, 1, 31, 31, .ro, some 0x0⟩,
  ⟨0x120, 0, 1, 30, 4, .rsv, none⟩,
  ⟨0x120, 0, 1, 3, 0, .ro, some 0x0⟩,
  ⟨0x130, 4, 4, 31, 31, .rwl, some 0x0⟩,
  ⟨0x130, 4, 4, 30, 12, .rsv, none⟩,
  ⟨0x130, 4, 4, 11, 0, .rwl, some 0x0⟩,
  ⟨0x140, 0, 1, 31, 31, .ro, some 0x0⟩,
  ⟨0x140, 0, 1, 30, 3, .rsv, none⟩,
  ⟨0x140, 0, 1, 2, 0, .rwl, some 0x0⟩,
  ⟨0x144, 0, 1, 31, 0, .rwl, some 0x1250008⟩,
  ⟨0x150, 0, 1, 31, 12, .rsv, none⟩,
  ⟨0x150, 0, 1, 11, 0, .rwl, some 0xb72⟩,
  ⟨0x160, 0, 1, 31, 16, .ro, some 0x0⟩,
  ⟨0x160, 0, 1, 15, 5, .rsv, none⟩,
  ⟨0x160, 0, 1, 4, 0, .ro, some 0x0⟩,
  ⟨0x170, 0, 1, 31, 31, .ro, some 0x0⟩,
  ⟨0x170, 0, 1, 30, 22, .rsv, none⟩,
  ⟨0x170, 0, 1, 21, 12, .ro, some 0x0⟩]

def collMap2 : List MapRow := [
  ⟨0x170, 0, 1, 11, 0, .ro, some 0x0⟩,
  ⟨0x180, 4, 32, 31, 0, .ro, some 0x0⟩,
  ⟨0x200, 4, 128, 31, 0, .ro, some 0x0⟩,
  ⟨0xE00, 4, 4, 31, 0, .ro, some 0xffffffff⟩,
  ⟨0xE10, 0, 1, 31, 0, .ro, some 0xfffff48d⟩,
  ⟨0xF00, 0, 1, 31, 16, .rw, some 0x1⟩,
  ⟨0xF00, 0, 1, 15, 8, .rw, some 0x1⟩,
  ⟨0xF00, 0, 1, 7, 6, .rsv, none⟩,
  ⟨0xF00, 0, 1, 5, 4, .rw, some 0x0⟩,
  ⟨0xF00, 0, 1, 3, 3, .rsv, none⟩,
  ⟨0xF00, 0, 1, 2, 1, .rw, some 0x0⟩,
  ⟨0xF00, 0, 1, 0, 0, .rwl, some 0x0⟩,
  ⟨0xF04, 0, 1, 31, 22, .rsv, none⟩,
  ⟨0xF04, 0, 1, 21, 21, .rw, some 0x0⟩,
  ⟨0xF04, 0, 1, 20, 19, .rw, some 0x0⟩,
  ⟨0xF04, 0, 1, 18, 16, .rw, some 0x0⟩,
  ⟨0xF04, 0, 1, 15, 11, .rw, some 0x0⟩,
  ⟨0xF04, 0, 1, 10, 10, .rsv, none⟩,
  ⟨0xF04, 0, 1, 9, 0, .rw, some 0x0⟩,
  ⟨0xF08, 0, 1, 31, 0, .rw, some 0x0⟩,
  ⟨0xF0C, 0, 1, 31, 18, .rsv, none⟩,
  ⟨0xF0C, 0, 1, 17, 17, .rw, some 0x0⟩,
  ⟨0xF0C, 0, 1, 16, 12, .rw, some 0x0⟩,
  ⟨0xF0C, 0, 1, 11, 0, .rw, some 0x0⟩]

/-- The map of the COLL page. -/
def collMap : List MapRow := collMap0 ++ collMap1 ++ collMap2

namespace Reg.PWR
/-- HALT (R474). -/
def PWR_SEG_CMD_HALT : Field := ⟨0x100, 2, 2⟩
/-- LEVEL (R474). -/
def PWR_SEG_CMD_LEVEL : Field := ⟨0x100, 1, 0⟩
/-- PHASE (R474). -/
def PWR_SEG_STAT_PHASE : Field := ⟨0x108, 6, 4⟩
/-- LEVEL (R474). -/
def PWR_SEG_STAT_LEVEL : Field := ⟨0x108, 1, 0⟩
/-- VALID (R474). -/
def PWR_REFUSE_VALID : Field := ⟨0x10C, 31, 31⟩
/-- REASON (R474). -/
def PWR_REFUSE_REASON : Field := ⟨0x10C, 30, 28⟩
/-- LEVEL (R474). -/
def PWR_REFUSE_LEVEL : Field := ⟨0x10C, 27, 26⟩
/-- UNIT (R474). -/
def PWR_REFUSE_UNIT : Field := ⟨0x10C, 9, 0⟩
/-- CAP_EN (R474). -/
def PWR_CAP_CAP_EN : Field := ⟨0x110, 12, 12⟩
/-- SHARE (R474). -/
def PWR_CAP_SHARE : Field := ⟨0x110, 11, 8⟩
/-- CAP_W (R474). -/
def PWR_CAP_CAP_W : Field := ⟨0x110, 6, 0⟩
/-- UNMET (R474). -/
def PWR_EST_UNMET : Field := ⟨0x114, 17, 17⟩
/-- LIMITING (R474). -/
def PWR_EST_LIMITING : Field := ⟨0x114, 16, 16⟩
/-- EST (R474). -/
def PWR_EST_EST : Field := ⟨0x114, 15, 8⟩
/-- CAPCODE (R474). -/
def PWR_EST_CAPCODE : Field := ⟨0x114, 5, 0⟩
/-- TGT_TILE (R474). -/
def PWR_TGT_TILE_TGT_TILE : Field := ⟨0x120, 31, 0⟩
/-- TGT_BANK (R474). -/
def PWR_TGT_BANK_TGT_BANK : Field := ⟨0x160, 31, 0⟩
/-- OP (R474). -/
def TILE_CMD_OP : Field := ⟨0x180, 26, 24⟩
/-- LAST (R474). -/
def TILE_CMD_LAST : Field := ⟨0x180, 23, 16⟩
/-- FIRST (R474). -/
def TILE_CMD_FIRST : Field := ⟨0x180, 15, 8⟩
/-- KEEP_BANK (R474). -/
def TILE_CMD_KEEP_BANK : Field := ⟨0x180, 0, 0⟩
/-- BUSY (R474). -/
def TILE_STAT_BUSY : Field := ⟨0x188, 31, 31⟩
/-- RESULT (R474). -/
def TILE_STAT_RESULT : Field := ⟨0x188, 3, 0⟩
/-- ST_TILE (R474). -/
def PWR_ST_TILE_ST_TILE : Field := ⟨0x200, 31, 0⟩
/-- ST_BANK (R474). -/
def PWR_ST_BANK_ST_BANK : Field := ⟨0x250, 31, 0⟩
/-- WAKE_PEND (R474). -/
def WAKE_PEND : Field := ⟨0x280, 31, 0⟩
/-- BROWNOUT (R474). -/
def REG_STAT_BROWNOUT : Field := ⟨0x2C0, 31, 31⟩
/-- MODE_AT (R474). -/
def REG_STAT_MODE_AT : Field := ⟨0x2C0, 25, 24⟩
/-- MARKED (R474). -/
def REG_STAT_MARKED : Field := ⟨0x2C0, 15, 0⟩
/-- DROWSY_AFTER (R474). -/
def PWR_EXP0_DROWSY_AFTER : Field := ⟨0x400, 23, 16⟩
/-- RETAIN_AFTER (R474). -/
def PWR_EXP0_RETAIN_AFTER : Field := ⟨0x400, 11, 0⟩
/-- IDLE_AFTER (R474). -/
def PWR_EXP1_IDLE_AFTER : Field := ⟨0x404, 7, 0⟩
/-- AVG (R474). -/
def PWR_EXP2_AVG : Field := ⟨0x408, 7, 0⟩
/-- PWR_CAP_GZ (R474). -/
def PWR_CAP_GZ : Field := ⟨0xE00, 31, 0⟩

end Reg.PWR

def pwrMap0 : List MapRow := [
  ⟨0x100, 0, 1, 31, 3, .rsv, none⟩,
  ⟨0x100, 0, 1, 2, 2, .wg, some 0x0⟩,
  ⟨0x100, 0, 1, 1, 0, .wg, some 0x0⟩,
  ⟨0x108, 0, 1, 31, 7, .rsv, none⟩,
  ⟨0x108, 0, 1, 6, 4, .ro, some 0x0⟩,
  ⟨0x108, 0, 1, 3, 2, .rsv, none⟩,
  ⟨0x108, 0, 1, 1, 0, .ro, some 0x0⟩,
  ⟨0x10C, 0, 1, 31, 31, .w1c, some 0x0⟩,
  ⟨0x10C, 0, 1, 30, 28, .ro, some 0x0⟩,
  ⟨0x10C, 0, 1, 27, 26, .ro, some 0x0⟩,
  ⟨0x10C, 0, 1, 25, 10, .rsv, none⟩,
  ⟨0x10C, 0, 1, 9, 0, .ro, some 0x0⟩,
  ⟨0x110, 0, 1, 31, 13, .rsv, none⟩,
  ⟨0x110, 0, 1, 12, 12, .rwl, some 0x0⟩,
  ⟨0x110, 0, 1, 11, 8, .rwl, some 0x4⟩,
  ⟨0x110, 0, 1, 7, 7, .rsv, none⟩,
  ⟨0x110, 0, 1, 6, 0, .rwl, some 0x78⟩,
  ⟨0x114, 0, 1, 31, 18, .rsv, none⟩,
  ⟨0x114, 0, 1, 17, 17, .ro, some 0x0⟩,
  ⟨0x114, 0, 1, 16, 16, .ro, some 0x0⟩,
  ⟨0x114, 0, 1, 15, 8, .ro, some 0x0⟩,
  ⟨0x114, 0, 1, 7, 6, .rsv, none⟩,
  ⟨0x114, 0, 1, 5, 0, .ro, some 0x30⟩,
  ⟨0x120, 4, 9, 31, 0, .rwl, some 0x0⟩]

def pwrMap1 : List MapRow := [
  ⟨0x160, 4, 4, 31, 0, .rwl, some 0x0⟩,
  ⟨0x170, 0, 1, 31, 16, .rsv, none⟩,
  ⟨0x170, 0, 1, 15, 0, .rwl, some 0x0⟩,
  ⟨0x180, 0, 1, 31, 27, .rsv, none⟩,
  ⟨0x180, 0, 1, 26, 24, .wg, some 0x0⟩,
  ⟨0x180, 0, 1, 23, 16, .wg, some 0x0⟩,
  ⟨0x180, 0, 1, 15, 8, .wg, some 0x0⟩,
  ⟨0x180, 0, 1, 7, 1, .rsv, none⟩,
  ⟨0x180, 0, 1, 0, 0, .wg, some 0x0⟩,
  ⟨0x188, 0, 1, 31, 31, .ro, some 0x0⟩,
  ⟨0x188, 0, 1, 30, 4, .rsv, none⟩,
  ⟨0x188, 0, 1, 3, 0, .ro, some 0x0⟩,
  ⟨0x200, 4, 18, 31, 0, .ro, some 0x44444444⟩,
  ⟨0x250, 4, 9, 31, 0, .ro, some 0x44444444⟩,
  ⟨0x280, 4, 9, 31, 0, .w1c, some 0x0⟩,
  ⟨0x2C0, 0, 1, 31, 31, .w1c, some 0x0⟩,
  ⟨0x2C0, 0, 1, 30, 26, .rsv, none⟩,
  ⟨0x2C0, 0, 1, 25, 24, .ro, some 0x0⟩,
  ⟨0x2C0, 0, 1, 23, 16, .rsv, none⟩,
  ⟨0x2C0, 0, 1, 15, 0, .ro, some 0x0⟩,
  ⟨0x400, 0, 1, 31, 24, .rsv, none⟩,
  ⟨0x400, 0, 1, 23, 16, .rwl, some 0x2f⟩,
  ⟨0x400, 0, 1, 15, 12, .rsv, none⟩,
  ⟨0x400, 0, 1, 11, 0, .rwl, some 0x125⟩,
  ⟨0x404, 0, 1, 31, 8, .rsv, none⟩,
  ⟨0x404, 0, 1, 7, 0, .rwl, some 0x10⟩]

def pwrMap2 : List MapRow := [
  ⟨0x408, 0, 1, 31, 8, .rsv, none⟩,
  ⟨0x408, 0, 1, 7, 0, .rwl, some 0x1e⟩,
  ⟨0xE00, 0, 1, 31, 0, .ro, some 0xfffffb87⟩]

/-- The map of the PWR page. -/
def pwrMap : List MapRow := pwrMap0 ++ pwrMap1 ++ pwrMap2

namespace Reg.CLK
/-- DCO_FAULT (R373). -/
def CLK_STAT_DCO_FAULT : Field := ⟨0x100, 3, 3⟩
/-- FTB_RUN (R373). -/
def CLK_STAT_FTB_RUN : Field := ⟨0x100, 2, 2⟩
/-- TICK_LOCK (R373). -/
def CLK_STAT_TICK_LOCK : Field := ⟨0x100, 1, 1⟩
/-- SWITCHED (R373). -/
def CLK_STAT_SWITCHED : Field := ⟨0x100, 0, 0⟩
/-- SWITCH (R373). -/
def CLK_SW_SWITCH : Field := ⟨0x104, 0, 0⟩
/-- FMIN (R373). -/
def CLK_LIMIT_FMIN : Field := ⟨0x110, 13, 8⟩
/-- FMAX (R373). -/
def CLK_LIMIT_FMAX : Field := ⟨0x110, 5, 0⟩
/-- TCODE (R373). -/
def CLK_TEMP_TCODE : Field := ⟨0x120, 21, 16⟩
/-- TEMP (R373). -/
def CLK_TEMP_TEMP : Field := ⟨0x120, 8, 0⟩
/-- VACK (R373). -/
def CLK_V_VACK : Field := ⟨0x130, 8, 8⟩
/-- VREQ (R373). -/
def CLK_V_VREQ : Field := ⟨0x130, 5, 0⟩
/-- FLOOR (R373). -/
def CLK_TILE_FLOOR : Field := ⟨0x140, 24, 24⟩
/-- BOUND (R373). -/
def CLK_TILE_BOUND : Field := ⟨0x140, 23, 20⟩
/-- STATE (R373). -/
def CLK_TILE_STATE : Field := ⟨0x140, 19, 16⟩
/-- CUR (R373). -/
def CLK_TILE_CUR : Field := ⟨0x140, 13, 8⟩
/-- REQ (R373). -/
def CLK_TILE_REQ : Field := ⟨0x140, 5, 0⟩
/-- OVR (R373). -/
def CLK_OVR_OVR : Field := ⟨0x380, 31, 0⟩
/-- TICK_TRIM (R373). -/
def CLK_TRIM_TICK_TRIM : Field := ⟨0x400, 3, 0⟩
/-- MARGIN (R373). -/
def CLK_SAMP_MARGIN : Field := ⟨0x640, 15, 8⟩
/-- FAST_EN (R373). -/
def CLK_SAMP_FAST_EN : Field := ⟨0x640, 0, 0⟩
/-- VOFFSET (R373). -/
def CLK_VOFS_VOFFSET : Field := ⟨0x644, 2, 0⟩
/-- CLK_LIMIT_GZ (R376). -/
def CLK_LIMIT_GZ : Field := ⟨0xE00, 31, 0⟩

end Reg.CLK

def clkMap0 : List MapRow := [
  ⟨0x100, 0, 1, 31, 4, .rsv, none⟩,
  ⟨0x100, 0, 1, 3, 3, .ro, some 0x0⟩,
  ⟨0x100, 0, 1, 2, 2, .ro, some 0x0⟩,
  ⟨0x100, 0, 1, 1, 1, .ro, some 0x0⟩,
  ⟨0x100, 0, 1, 0, 0, .ro, some 0x0⟩,
  ⟨0x104, 0, 1, 31, 1, .rsv, none⟩,
  ⟨0x104, 0, 1, 0, 0, .wg, some 0x0⟩,
  ⟨0x110, 0, 1, 31, 14, .rsv, none⟩,
  ⟨0x110, 0, 1, 13, 8, .rwl, some 0xc⟩,
  ⟨0x110, 0, 1, 7, 6, .rsv, none⟩,
  ⟨0x110, 0, 1, 5, 0, .rwl, some 0x30⟩,
  ⟨0x120, 4, 4, 31, 22, .rsv, none⟩,
  ⟨0x120, 4, 4, 21, 16, .ro, some 0x30⟩,
  ⟨0x120, 4, 4, 15, 9, .rsv, none⟩,
  ⟨0x120, 4, 4, 8, 0, .ro, some 0x0⟩,
  ⟨0x130, 4, 4, 31, 9, .rsv, none⟩,
  ⟨0x130, 4, 4, 8, 8, .ro, some 0x0⟩,
  ⟨0x130, 4, 4, 7, 6, .rsv, none⟩,
  ⟨0x130, 4, 4, 5, 0, .ro, some 0x19⟩,
  ⟨0x140, 4, 144, 31, 25, .rsv, none⟩,
  ⟨0x140, 4, 144, 24, 24, .ro, some 0x0⟩,
  ⟨0x140, 4, 144, 23, 20, .ro, some 0x0⟩,
  ⟨0x140, 4, 144, 19, 16, .ro, some 0x0⟩,
  ⟨0x140, 4, 144, 15, 14, .rsv, none⟩]

def clkMap1 : List MapRow := [
  ⟨0x140, 4, 144, 13, 8, .ro, some 0x0⟩,
  ⟨0x140, 4, 144, 7, 6, .rsv, none⟩,
  ⟨0x140, 4, 144, 5, 0, .rwl, some 0x18⟩,
  ⟨0x380, 4, 5, 31, 0, .w1c, some 0x0⟩,
  ⟨0x400, 4, 144, 31, 4, .rsv, none⟩,
  ⟨0x400, 4, 144, 3, 0, .rwl, some 0x8⟩,
  ⟨0x640, 0, 1, 31, 16, .rsv, none⟩,
  ⟨0x640, 0, 1, 15, 8, .rwl, some 0x3c⟩,
  ⟨0x640, 0, 1, 7, 1, .rsv, none⟩,
  ⟨0x640, 0, 1, 0, 0, .rwl, some 0x1⟩,
  ⟨0x644, 4, 4, 31, 3, .rsv, none⟩,
  ⟨0x644, 4, 4, 2, 0, .rwl, some 0x0⟩,
  ⟨0xE00, 0, 1, 31, 0, .ro, some 0xfffff3cf⟩]

/-- The map of the CLK page. -/
def clkMap : List MapRow := clkMap0 ++ clkMap1

namespace Reg.KILN
/-- SEED_EN (R514). -/
def KILN_CMD_SEED_EN : Field := ⟨0x100, 19, 19⟩
/-- BUNDLE (R514). -/
def KILN_CMD_BUNDLE : Field := ⟨0x100, 18, 14⟩
/-- UNIT (R514). -/
def KILN_CMD_UNIT : Field := ⟨0x100, 13, 4⟩
/-- SCOPE (R514). -/
def KILN_CMD_SCOPE : Field := ⟨0x100, 3, 3⟩
/-- OP (R514). -/
def KILN_CMD_OP : Field := ⟨0x100, 2, 0⟩
/-- BUSY (R514). -/
def KILN_STAT_BUSY : Field := ⟨0x108, 31, 31⟩
/-- VERDICT (R514). -/
def KILN_STAT_VERDICT : Field := ⟨0x108, 23, 20⟩
/-- RESULT (R514). -/
def KILN_STAT_RESULT : Field := ⟨0x108, 19, 16⟩
/-- UNIT (R514). -/
def KILN_STAT_UNIT : Field := ⟨0x108, 9, 0⟩
/-- SIG (R514). -/
def SIG_LO : Field := ⟨0x110, 31, 0⟩
/-- SIG (R514). -/
def SIG_HI : Field := ⟨0x114, 31, 0⟩
/-- GOLD (R514). -/
def GOLD_LO : Field := ⟨0x118, 31, 0⟩
/-- GOLD (R514). -/
def GOLD_HI : Field := ⟨0x11C, 31, 0⟩
/-- FAIL_MEMS (R514). -/
def KILN_FAIL_FAIL_MEMS : Field := ⟨0x120, 31, 16⟩
/-- FAIL_BITS (R514). -/
def KILN_FAIL_FAIL_BITS : Field := ⟨0x120, 15, 0⟩
/-- SOL_SEL (R514). -/
def SOL_SEL : Field := ⟨0x12C, 6, 0⟩
/-- NEW (R514). -/
def SOL_STAT_NEW : Field := ⟨0x130, 2, 2⟩
/-- REPAIRABLE (R514). -/
def SOL_STAT_REPAIRABLE : Field := ⟨0x130, 1, 1⟩
/-- VALID (R514). -/
def SOL_STAT_VALID : Field := ⟨0x130, 0, 0⟩
/-- REPAIR_SOL (R514). -/
def REPAIR_SOL : Field := ⟨0x180, 31, 0⟩
/-- KEY_STEP (R514). -/
def KILN_BOOT_KEY_STEP : Field := ⟨0x150, 15, 12⟩
/-- KEY_FAILS (R514). -/
def KILN_BOOT_KEY_FAILS : Field := ⟨0x150, 11, 8⟩
/-- LOCKOUT (R514). -/
def KILN_BOOT_LOCKOUT : Field := ⟨0x150, 5, 5⟩
/-- FIELD_LOCK (R514). -/
def KILN_BOOT_FIELD_LOCK : Field := ⟨0x150, 4, 4⟩
/-- TEST_MODE (R514). -/
def KILN_BOOT_TEST_MODE : Field := ⟨0x150, 3, 3⟩
/-- REFCLK_BAD (R514). -/
def KILN_BOOT_REFCLK_BAD : Field := ⟨0x150, 2, 2⟩
/-- FUSE_ERR (R514). -/
def KILN_BOOT_FUSE_ERR : Field := ⟨0x150, 1, 1⟩
/-- FUSE_DONE (R514). -/
def KILN_BOOT_FUSE_DONE : Field := ⟨0x150, 0, 0⟩
/-- KEY (R514). -/
def FACTORY_KEY_KEY : Field := ⟨0x160, 15, 0⟩
/-- EXIT (R514). -/
def FACTORY_CTRL_EXIT : Field := ⟨0x168, 1, 1⟩
/-- ENTER (R514). -/
def FACTORY_CTRL_ENTER : Field := ⟨0x168, 0, 0⟩
/-- INSTANCE (R514). -/
def INSTANCE : Field := ⟨0x300, 31, 0⟩
/-- SEED (R514). -/
def SEED_LO : Field := ⟨0x400, 31, 0⟩
/-- SEED (R514). -/
def SEED_HI : Field := ⟨0x404, 31, 0⟩
/-- PATTERNS (R514). -/
def EXP_PATTERNS : Field := ⟨0x408, 7, 0⟩
/-- SIG_GZ (R514). -/
def SIG_GZ_LO : Field := ⟨0xE00, 31, 0⟩
/-- SIG_GZ (R514). -/
def SIG_GZ_HI : Field := ⟨0xE04, 31, 0⟩
/-- OP (R514). -/
def FUSE_CMD_OP : Field := ⟨0xF00, 12, 10⟩
/-- FUSE_ADDR (R514). -/
def FUSE_CMD_FUSE_ADDR : Field := ⟨0xF00, 9, 0⟩
/-- FUSE_DATA (R514). -/
def FUSE_DATA : Field := ⟨0xF08, 31, 0⟩
/-- BUSY (R514). -/
def FUSE_STAT_BUSY : Field := ⟨0xF0C, 31, 31⟩
/-- RESULT (R514). -/
def FUSE_STAT_RESULT : Field := ⟨0xF0C, 3, 0⟩

end Reg.KILN

def kilnMap0 : List MapRow := [
  ⟨0x100, 0, 1, 31, 20, .rsv, none⟩,
  ⟨0x100, 0, 1, 19, 19, .wg, some 0x0⟩,
  ⟨0x100, 0, 1, 18, 14, .wg, some 0x0⟩,
  ⟨0x100, 0, 1, 13, 4, .wg, some 0x0⟩,
  ⟨0x100, 0, 1, 3, 3, .wg, some 0x0⟩,
  ⟨0x100, 0, 1, 2, 0, .wg, some 0x0⟩,
  ⟨0x108, 0, 1, 31, 31, .ro, some 0x0⟩,
  ⟨0x108, 0, 1, 30, 24, .rsv, none⟩,
  ⟨0x108, 0, 1, 23, 20, .ro, some 0x0⟩,
  ⟨0x108, 0, 1, 19, 16, .ro, some 0x0⟩,
  ⟨0x108, 0, 1, 15, 10, .rsv, none⟩,
  ⟨0x108, 0, 1, 9, 0, .ro, some 0x0⟩,
  ⟨0x110, 0, 1, 31, 0, .ro, some 0x0⟩,
  ⟨0x114, 0, 1, 31, 0, .ro, some 0x0⟩,
  ⟨0x118, 0, 1, 31, 0, .ro, some 0x0⟩,
  ⟨0x11C, 0, 1, 31, 0, .ro, some 0x0⟩,
  ⟨0x120, 0, 1, 31, 16, .ro, some 0x0⟩,
  ⟨0x120, 0, 1, 15, 0, .ro, some 0x0⟩,
  ⟨0x12C, 0, 1, 31, 7, .rsv, none⟩,
  ⟨0x12C, 0, 1, 6, 0, .rwl, some 0x0⟩,
  ⟨0x130, 0, 1, 31, 3, .rsv, none⟩,
  ⟨0x130, 0, 1, 2, 2, .ro, some 0x0⟩,
  ⟨0x130, 0, 1, 1, 1, .ro, some 0x0⟩,
  ⟨0x130, 0, 1, 0, 0, .ro, some 0x0⟩]

def kilnMap1 : List MapRow := [
  ⟨0x180, 4, 8, 31, 0, .ro, some 0x0⟩,
  ⟨0x150, 0, 1, 31, 16, .rsv, none⟩,
  ⟨0x150, 0, 1, 15, 12, .ro, some 0x0⟩,
  ⟨0x150, 0, 1, 11, 8, .ro, some 0x0⟩,
  ⟨0x150, 0, 1, 7, 6, .rsv, none⟩,
  ⟨0x150, 0, 1, 5, 5, .ro, some 0x0⟩,
  ⟨0x150, 0, 1, 4, 4, .ro, none⟩,
  ⟨0x150, 0, 1, 3, 3, .ro, none⟩,
  ⟨0x150, 0, 1, 2, 2, .ro, some 0x0⟩,
  ⟨0x150, 0, 1, 1, 1, .ro, some 0x0⟩,
  ⟨0x150, 0, 1, 0, 0, .ro, some 0x0⟩,
  ⟨0x160, 0, 1, 31, 16, .rsv, none⟩,
  ⟨0x160, 0, 1, 15, 0, .wg, some 0x0⟩,
  ⟨0x168, 0, 1, 31, 2, .rsv, none⟩,
  ⟨0x168, 0, 1, 1, 1, .wg, some 0x0⟩,
  ⟨0x168, 0, 1, 0, 0, .wg, some 0x0⟩,
  ⟨0x300, 4, 64, 31, 0, .ro, none⟩,
  ⟨0x400, 0, 1, 31, 0, .rwl, some 0x1⟩,
  ⟨0x404, 0, 1, 31, 0, .rwl, some 0x0⟩,
  ⟨0x408, 0, 1, 31, 8, .rsv, none⟩,
  ⟨0x408, 0, 1, 7, 0, .rwl, some 0x40⟩,
  ⟨0xE00, 0, 1, 31, 0, .ro, some 0xffffffff⟩,
  ⟨0xE04, 0, 1, 31, 0, .ro, some 0xffffffff⟩,
  ⟨0xF00, 0, 1, 31, 13, .rsv, none⟩]

def kilnMap2 : List MapRow := [
  ⟨0xF00, 0, 1, 12, 10, .wg, some 0x0⟩,
  ⟨0xF00, 0, 1, 9, 0, .wg, some 0x0⟩,
  ⟨0xF08, 0, 1, 31, 0, .rw, some 0x0⟩,
  ⟨0xF0C, 0, 1, 31, 31, .ro, some 0x0⟩,
  ⟨0xF0C, 0, 1, 30, 4, .rsv, none⟩,
  ⟨0xF0C, 0, 1, 3, 0, .ro, some 0x0⟩]

/-- The map of the KILN page. -/
def kilnMap : List MapRow := kilnMap0 ++ kilnMap1 ++ kilnMap2

namespace Reg.TEN
/-- DOM3 (R61). -/
def TEN_DOM_DOM3 : Field := ⟨0x100, 29, 24⟩
/-- DOM2 (R61). -/
def TEN_DOM_DOM2 : Field := ⟨0x100, 21, 16⟩
/-- DOM1 (R61). -/
def TEN_DOM_DOM1 : Field := ⟨0x100, 13, 8⟩
/-- DOM0 (R61). -/
def TEN_DOM_DOM0 : Field := ⟨0x100, 5, 0⟩
/-- VALID (R61). -/
def TEN_DENY_VALID : Field := ⟨0x390, 31, 31⟩
/-- WRITE (R61). -/
def TEN_DENY_WRITE : Field := ⟨0x390, 24, 24⟩
/-- DOMAIN (R61). -/
def TEN_DENY_DOMAIN : Field := ⟨0x390, 21, 16⟩
/-- EID (R61). -/
def TEN_DENY_EID : Field := ⟨0x390, 11, 0⟩
/-- ADDR (R61). -/
def TEN_DENY_ADDR_ADDR : Field := ⟨0x394, 31, 0⟩

end Reg.TEN

def tenMap0 : List MapRow := [
  ⟨0x100, 8, 72, 31, 30, .rsv, some 0x0⟩,
  ⟨0x100, 8, 72, 23, 22, .rsv, some 0x0⟩,
  ⟨0x100, 8, 72, 15, 14, .rsv, some 0x0⟩,
  ⟨0x100, 8, 72, 7, 6, .rsv, some 0x0⟩,
  ⟨0x100, 8, 72, 29, 24, .wg, some 0x3f⟩,
  ⟨0x100, 8, 72, 21, 16, .wg, some 0x3f⟩,
  ⟨0x100, 8, 72, 13, 8, .wg, some 0x3f⟩,
  ⟨0x100, 8, 72, 5, 0, .wg, some 0x3f⟩,
  ⟨0x390, 0, 1, 31, 31, .w1c, some 0x0⟩,
  ⟨0x390, 0, 1, 30, 25, .rsv, some 0x0⟩,
  ⟨0x390, 0, 1, 24, 24, .ro, some 0x0⟩,
  ⟨0x390, 0, 1, 23, 22, .rsv, some 0x0⟩,
  ⟨0x390, 0, 1, 21, 16, .ro, some 0x0⟩,
  ⟨0x390, 0, 1, 15, 12, .rsv, some 0x0⟩,
  ⟨0x390, 0, 1, 11, 0, .ro, some 0x0⟩,
  ⟨0x394, 0, 1, 31, 0, .ro, some 0x0⟩]

/-- The map of the TEN page. -/
def tenMap : List MapRow := tenMap0

namespace Reg.FLOWWIN
/-- BUSY (R308). -/
def FW_CMD_BUSY : Field := ⟨0x100, 31, 31⟩
/-- OP (R308). -/
def FW_CMD_OP : Field := ⟨0x100, 26, 24⟩
/-- INDEX (R308). -/
def FW_CMD_INDEX : Field := ⟨0x100, 17, 0⟩
/-- RESULT (R308). -/
def FW_STAT_RESULT : Field := ⟨0x104, 2, 0⟩
/-- FW_D (R308). -/
def FW_D : Field := ⟨0x110, 31, 0⟩
/-- INIT_FIRST (R308). -/
def INIT_FIRST : Field := ⟨0x120, 17, 0⟩
/-- INIT_LAST (R308). -/
def INIT_LAST : Field := ⟨0x124, 17, 0⟩
/-- MAP3 (R308). -/
def FE_MAP_MAP3 : Field := ⟨0x140, 30, 24⟩
/-- MAP2 (R308). -/
def FE_MAP_MAP2 : Field := ⟨0x140, 22, 16⟩
/-- MAP1 (R308). -/
def FE_MAP_MAP1 : Field := ⟨0x140, 14, 8⟩
/-- MAP0 (R308). -/
def FE_MAP_MAP0 : Field := ⟨0x140, 6, 0⟩
/-- FE_AVAIL (R308). -/
def FE_AVAIL : Field := ⟨0x180, 31, 0⟩
/-- FE_MAP_GZ (R308). -/
def FE_MAP_GZ : Field := ⟨0xE00, 31, 0⟩

end Reg.FLOWWIN

def flowwinMap0 : List MapRow := [
  ⟨0x100, 0, 1, 31, 31, .ro, some 0x0⟩,
  ⟨0x100, 0, 1, 30, 27, .rsv, none⟩,
  ⟨0x100, 0, 1, 26, 24, .rwl, some 0x0⟩,
  ⟨0x100, 0, 1, 23, 18, .rsv, none⟩,
  ⟨0x100, 0, 1, 17, 0, .rwl, some 0x0⟩,
  ⟨0x104, 0, 1, 31, 3, .rsv, none⟩,
  ⟨0x104, 0, 1, 2, 0, .ro, some 0x0⟩,
  ⟨0x110, 4, 4, 31, 0, .rwl, some 0x0⟩,
  ⟨0x120, 0, 1, 31, 18, .rsv, none⟩,
  ⟨0x120, 0, 1, 17, 0, .rwl, some 0x1⟩,
  ⟨0x124, 0, 1, 31, 18, .rsv, none⟩,
  ⟨0x124, 0, 1, 17, 0, .rwl, some 0x3fffe⟩,
  ⟨0x140, 4, 8, 31, 31, .rsv, some 0x0⟩,
  ⟨0x140, 4, 8, 23, 23, .rsv, some 0x0⟩,
  ⟨0x140, 4, 8, 15, 15, .rsv, some 0x0⟩,
  ⟨0x140, 4, 8, 7, 7, .rsv, some 0x0⟩,
  ⟨0x140, 4, 8, 30, 24, .rw, none⟩,
  ⟨0x140, 4, 8, 22, 16, .rw, none⟩,
  ⟨0x140, 4, 8, 14, 8, .rw, none⟩,
  ⟨0x140, 4, 8, 6, 0, .rw, none⟩,
  ⟨0x180, 0, 1, 31, 0, .ro, some 0xffffffff⟩,
  ⟨0xE00, 4, 8, 31, 0, .ro, none⟩]

/-- The map of the FLOWWIN page. -/
def flowwinMap : List MapRow := flowwinMap0

namespace Reg.BR
/-- IDLE_TO (R411). -/
def BR_CTRL_IDLE_TO : Field := ⟨0x100, 23, 16⟩
/-- SLEEP_EN (R411). -/
def BR_CTRL_SLEEP_EN : Field := ⟨0x100, 0, 0⟩
/-- ROWS (R411). -/
def BR_STAT_ROWS : Field := ⟨0x104, 27, 16⟩
/-- TIME_BUNDLE (R411). -/
def BR_STAT_TIME_BUNDLE : Field := ⟨0x104, 15, 11⟩
/-- FAR_VALID (R411). -/
def BR_STAT_FAR_VALID : Field := ⟨0x104, 10, 10⟩
/-- FAR_SEG (R411). -/
def BR_STAT_FAR_SEG : Field := ⟨0x104, 9, 8⟩
/-- SELF_LOOP (R411). -/
def BR_STAT_SELF_LOOP : Field := ⟨0x104, 4, 4⟩
/-- C1_SUSP (R411). -/
def BR_STAT_C1_SUSP : Field := ⟨0x104, 3, 3⟩
/-- TIME_LOST (R411). -/
def BR_STAT_TIME_LOST : Field := ⟨0x104, 2, 2⟩
/-- TIME_OK (R411). -/
def BR_STAT_TIME_OK : Field := ⟨0x104, 1, 1⟩
/-- PAIR_UP (R411). -/
def BR_STAT_PAIR_UP : Field := ⟨0x104, 0, 0⟩
/-- OFFSET (R411). -/
def BR_TIME_OFFSET : Field := ⟨0x108, 15, 0⟩
/-- ADMIT_SEG (R411). -/
def RING_CTRL_ADMIT_SEG : Field := ⟨0x120, 5, 4⟩
/-- ADMIT (R411). -/
def RING_CTRL_ADMIT : Field := ⟨0x120, 2, 2⟩
/-- LEAVE (R411). -/
def RING_CTRL_LEAVE : Field := ⟨0x120, 1, 1⟩
/-- JOIN (R411). -/
def RING_CTRL_JOIN : Field := ⟨0x120, 0, 0⟩
/-- RING_VER (R411). -/
def RING_STAT_RING_VER : Field := ⟨0x128, 31, 24⟩
/-- CLOSED (R411). -/
def RING_STAT_CLOSED : Field := ⟨0x128, 23, 20⟩
/-- JOINED_SET (R411). -/
def RING_STAT_JOINED_SET : Field := ⟨0x128, 19, 16⟩
/-- REASON (R411). -/
def RING_STAT_REASON : Field := ⟨0x128, 15, 12⟩
/-- ADMIT_READY (R411). -/
def RING_STAT_ADMIT_READY : Field := ⟨0x128, 11, 11⟩
/-- JOIN_STATE (R411). -/
def RING_STAT_JOIN_STATE : Field := ⟨0x128, 10, 8⟩
/-- ANCHOR_VALID (R411). -/
def RING_STAT_ANCHOR_VALID : Field := ⟨0x128, 6, 6⟩
/-- ANCHOR_SEG (R411). -/
def RING_STAT_ANCHOR_SEG : Field := ⟨0x128, 5, 4⟩
/-- PARENT (R411). -/
def RING_STAT_PARENT : Field := ⟨0x128, 1, 0⟩
/-- JOIN_TO (R411). -/
def RING_JOIN_TO_JOIN_TO : Field := ⟨0x12C, 15, 0⟩
/-- FREQ (R411). -/
def RING_TRIM_FREQ : Field := ⟨0x130, 31, 16⟩
/-- TRIM (R411). -/
def RING_TRIM_TRIM : Field := ⟨0x130, 15, 0⟩
/-- SPARE_FOR (R411). -/
def BUNDLE_SPARE_FOR : Field := ⟨0x140, 12, 8⟩
/-- RX_STATE (R411). -/
def BUNDLE_RX_STATE : Field := ⟨0x140, 7, 4⟩
/-- TX_STATE (R411). -/
def BUNDLE_TX_STATE : Field := ⟨0x140, 3, 0⟩
/-- LANE_BAD (R411). -/
def BUNDLE_LANE_LANE_BAD : Field := ⟨0x144, 16, 0⟩
/-- SWAP_AT (R411). -/
def BSLOT_CTRL_SWAP_AT : Field := ⟨0x400, 31, 16⟩
/-- AT_EN (R411). -/
def BSLOT_CTRL_AT_EN : Field := ⟨0x400, 4, 4⟩
/-- CLEAR (R411). -/
def BSLOT_CTRL_CLEAR : Field := ⟨0x400, 3, 3⟩
/-- COPY (R411). -/
def BSLOT_CTRL_COPY : Field := ⟨0x400, 2, 2⟩
/-- SWAP_REQ (R411). -/
def BSLOT_CTRL_SWAP_REQ : Field := ⟨0x400, 0, 0⟩
/-- BANK (R411). -/
def BSLOT_ADDR_BANK : Field := ⟨0x404, 15, 15⟩
/-- BUNDLE (R411). -/
def BSLOT_ADDR_BUNDLE : Field := ⟨0x404, 14, 10⟩
/-- INDEX (R411). -/
def BSLOT_ADDR_INDEX : Field := ⟨0x404, 8, 0⟩
/-- BSLOT_DATA (R411). -/
def BSLOT_DATA : Field := ⟨0x408, 31, 0⟩
/-- REFUSED (R411). -/
def BSLOT_STAT_REFUSED : Field := ⟨0x40C, 31, 31⟩
/-- REASON (R411). -/
def BSLOT_STAT_REASON : Field := ⟨0x40C, 27, 24⟩
/-- FAIL_BUNDLE (R411). -/
def BSLOT_STAT_FAIL_BUNDLE : Field := ⟨0x40C, 20, 16⟩
/-- DELAYS (R411). -/
def BSLOT_STAT_DELAYS : Field := ⟨0x40C, 15, 8⟩
/-- VALIDATING (R411). -/
def BSLOT_STAT_VALIDATING : Field := ⟨0x40C, 2, 2⟩
/-- SWAP_PEND (R411). -/
def BSLOT_STAT_SWAP_PEND : Field := ⟨0x40C, 1, 1⟩
/-- ACTIVE (R411). -/
def BSLOT_STAT_ACTIVE : Field := ⟨0x40C, 0, 0⟩
/-- BUSY (R411). -/
def LANE_CMD_BUSY : Field := ⟨0x410, 31, 31⟩
/-- OP (R411). -/
def LANE_CMD_OP : Field := ⟨0x410, 9, 8⟩
/-- BUNDLE (R411). -/
def LANE_CMD_BUNDLE : Field := ⟨0x410, 4, 0⟩
/-- TIME_ASYM (R411). -/
def TIME_ASYM : Field := ⟨0x414, 15, 0⟩
/-- CNT_BUNDLE (R411). -/
def CNT_BUNDLE : Field := ⟨0x418, 4, 0⟩
/-- BR_CTRL_GZ (R413). -/
def BR_CTRL_GZ : Field := ⟨0xE00, 31, 0⟩
/-- RING_GZ (R413). -/
def RING_GZ : Field := ⟨0xE04, 31, 0⟩

end Reg.BR

def brMap0 : List MapRow := [
  ⟨0x100, 0, 1, 31, 24, .rsv, none⟩,
  ⟨0x100, 0, 1, 23, 16, .rwl, some 0x2f⟩,
  ⟨0x100, 0, 1, 15, 1, .rsv, none⟩,
  ⟨0x100, 0, 1, 0, 0, .rwl, some 0x0⟩,
  ⟨0x104, 0, 1, 31, 28, .rsv, none⟩,
  ⟨0x104, 0, 1, 27, 16, .ro, some 0x0⟩,
  ⟨0x104, 0, 1, 15, 11, .ro, some 0x0⟩,
  ⟨0x104, 0, 1, 10, 10, .ro, some 0x0⟩,
  ⟨0x104, 0, 1, 9, 8, .ro, some 0x0⟩,
  ⟨0x104, 0, 1, 7, 5, .rsv, none⟩,
  ⟨0x104, 0, 1, 4, 4, .ro, some 0x0⟩,
  ⟨0x104, 0, 1, 3, 3, .ro, some 0x0⟩,
  ⟨0x104, 0, 1, 2, 2, .ro, some 0x0⟩,
  ⟨0x104, 0, 1, 1, 1, .ro, some 0x0⟩,
  ⟨0x104, 0, 1, 0, 0, .ro, some 0x0⟩,
  ⟨0x108, 0, 1, 31, 16, .rsv, none⟩,
  ⟨0x108, 0, 1, 15, 0, .ro, some 0x0⟩,
  ⟨0x120, 0, 1, 31, 6, .rsv, none⟩,
  ⟨0x120, 0, 1, 5, 4, .wg, some 0x0⟩,
  ⟨0x120, 0, 1, 3, 3, .rsv, none⟩,
  ⟨0x120, 0, 1, 2, 2, .wg, some 0x0⟩,
  ⟨0x120, 0, 1, 1, 1, .wg, some 0x0⟩,
  ⟨0x120, 0, 1, 0, 0, .wg, some 0x0⟩,
  ⟨0x128, 0, 1, 31, 24, .ro, some 0x0⟩]

def brMap1 : List MapRow := [
  ⟨0x128, 0, 1, 23, 20, .ro, some 0x0⟩,
  ⟨0x128, 0, 1, 19, 16, .ro, some 0x0⟩,
  ⟨0x128, 0, 1, 15, 12, .ro, some 0x0⟩,
  ⟨0x128, 0, 1, 11, 11, .ro, some 0x0⟩,
  ⟨0x128, 0, 1, 10, 8, .ro, some 0x0⟩,
  ⟨0x128, 0, 1, 7, 7, .rsv, none⟩,
  ⟨0x128, 0, 1, 6, 6, .ro, some 0x0⟩,
  ⟨0x128, 0, 1, 5, 4, .ro, some 0x0⟩,
  ⟨0x128, 0, 1, 3, 2, .rsv, none⟩,
  ⟨0x128, 0, 1, 1, 0, .ro, some 0x0⟩,
  ⟨0x12C, 0, 1, 31, 16, .rsv, none⟩,
  ⟨0x12C, 0, 1, 15, 0, .rwl, some 0x20⟩,
  ⟨0x130, 0, 1, 31, 16, .ro, some 0x0⟩,
  ⟨0x130, 0, 1, 15, 0, .ro, some 0x0⟩,
  ⟨0x140, 8, 24, 31, 13, .rsv, none⟩,
  ⟨0x140, 8, 24, 12, 8, .ro, some 0x1f⟩,
  ⟨0x140, 8, 24, 7, 4, .ro, some 0x0⟩,
  ⟨0x140, 8, 24, 3, 0, .ro, some 0x0⟩,
  ⟨0x144, 8, 24, 31, 17, .rsv, none⟩,
  ⟨0x144, 8, 24, 16, 0, .ro, some 0x0⟩,
  ⟨0x400, 0, 1, 31, 16, .rwl, some 0x0⟩,
  ⟨0x400, 0, 1, 15, 5, .rsv, none⟩,
  ⟨0x400, 0, 1, 4, 4, .rwl, some 0x0⟩,
  ⟨0x400, 0, 1, 3, 3, .rwl, some 0x0⟩]

def brMap2 : List MapRow := [
  ⟨0x400, 0, 1, 2, 2, .rwl, some 0x0⟩,
  ⟨0x400, 0, 1, 1, 1, .rsv, none⟩,
  ⟨0x400, 0, 1, 0, 0, .rwl, some 0x0⟩,
  ⟨0x404, 0, 1, 31, 16, .rsv, none⟩,
  ⟨0x404, 0, 1, 15, 15, .rwl, some 0x0⟩,
  ⟨0x404, 0, 1, 14, 10, .rwl, some 0x0⟩,
  ⟨0x404, 0, 1, 9, 9, .rsv, none⟩,
  ⟨0x404, 0, 1, 8, 0, .rwl, some 0x0⟩,
  ⟨0x408, 0, 1, 31, 0, .rwl, some 0x0⟩,
  ⟨0x40C, 0, 1, 31, 31, .w1c, some 0x0⟩,
  ⟨0x40C, 0, 1, 30, 28, .rsv, none⟩,
  ⟨0x40C, 0, 1, 27, 24, .ro, some 0x0⟩,
  ⟨0x40C, 0, 1, 23, 21, .rsv, none⟩,
  ⟨0x40C, 0, 1, 20, 16, .ro, some 0x0⟩,
  ⟨0x40C, 0, 1, 15, 8, .ro, some 0x0⟩,
  ⟨0x40C, 0, 1, 7, 3, .rsv, none⟩,
  ⟨0x40C, 0, 1, 2, 2, .ro, some 0x0⟩,
  ⟨0x40C, 0, 1, 1, 1, .ro, some 0x0⟩,
  ⟨0x40C, 0, 1, 0, 0, .ro, some 0x0⟩,
  ⟨0x410, 0, 1, 31, 31, .ro, some 0x0⟩,
  ⟨0x410, 0, 1, 30, 10, .rsv, none⟩,
  ⟨0x410, 0, 1, 9, 8, .rwl, some 0x0⟩,
  ⟨0x410, 0, 1, 7, 5, .rsv, none⟩,
  ⟨0x410, 0, 1, 4, 0, .rwl, some 0x0⟩]

def brMap3 : List MapRow := [
  ⟨0x414, 0, 1, 31, 16, .rsv, none⟩,
  ⟨0x414, 0, 1, 15, 0, .rwl, some 0x0⟩,
  ⟨0x418, 0, 1, 31, 5, .rsv, none⟩,
  ⟨0x418, 0, 1, 4, 0, .rwl, some 0x0⟩,
  ⟨0xE00, 0, 1, 31, 0, .ro, some 0xffd0ffff⟩,
  ⟨0xE04, 0, 1, 31, 0, .ro, some 0xffffffff⟩]

/-- The map of the BR pages. -/
def brMap : List MapRow := brMap0 ++ brMap1 ++ brMap2 ++ brMap3

namespace Reg.BAY
/-- ID_ADDR (R492). -/
def BAY_CFG_ID_ADDR : Field := ⟨0x100, 22, 16⟩
/-- I2C_FAST (R492). -/
def BAY_CFG_I2C_FAST : Field := ⟨0x100, 13, 13⟩
/-- AUTO_BIND (R492). -/
def BAY_CFG_AUTO_BIND : Field := ⟨0x100, 12, 12⟩
/-- SITE (R492). -/
def BAY_CFG_SITE : Field := ⟨0x100, 8, 0⟩
/-- GATE_T (R492). -/
def BAY_T0_GATE_T : Field := ⟨0x104, 29, 24⟩
/-- PRECHARGE (R492). -/
def BAY_T0_PRECHARGE : Field := ⟨0x104, 23, 16⟩
/-- INS_DELAY (R492). -/
def BAY_T0_INS_DELAY : Field := ⟨0x104, 15, 8⟩
/-- DEBOUNCE (R492). -/
def BAY_T0_DEBOUNCE : Field := ⟨0x104, 7, 0⟩
/-- DECAY (R492). -/
def BAY_T1_DECAY : Field := ⟨0x108, 31, 24⟩
/-- STRIKES_MAX (R492). -/
def BAY_T1_STRIKES_MAX : Field := ⟨0x108, 18, 16⟩
/-- STRIKE_WIN (R492). -/
def BAY_T1_STRIKE_WIN : Field := ⟨0x108, 15, 8⟩
/-- RETRY (R492). -/
def BAY_T1_RETRY : Field := ⟨0x108, 7, 0⟩
/-- ID_DELAY (R492). -/
def BAY_T2_ID_DELAY : Field := ⟨0x10C, 7, 0⟩
/-- SAG_CAUSE (R492). -/
def BAY_STAT_SAG_CAUSE : Field := ⟨0x110, 23, 20⟩
/-- TIMER (R492). -/
def BAY_STAT_TIMER : Field := ⟨0x110, 18, 18⟩
/-- PRE_SHORT (R492). -/
def BAY_STAT_PRE_SHORT : Field := ⟨0x110, 17, 17⟩
/-- ID_VALID (R492). -/
def BAY_STAT_ID_VALID : Field := ⟨0x110, 16, 16⟩
/-- BOUND (R492). -/
def BAY_STAT_BOUND : Field := ⟨0x110, 15, 15⟩
/-- GATE_EN (R492). -/
def BAY_STAT_GATE_EN : Field := ⟨0x110, 14, 14⟩
/-- PRE_EN (R492). -/
def BAY_STAT_PRE_EN : Field := ⟨0x110, 13, 13⟩
/-- OC (R492). -/
def BAY_STAT_OC : Field := ⟨0x110, 12, 12⟩
/-- VOUT_DET (R492). -/
def BAY_STAT_VOUT_DET : Field := ⟨0x110, 11, 11⟩
/-- GATE_UP (R492). -/
def BAY_STAT_GATE_UP : Field := ⟨0x110, 10, 10⟩
/-- OV_OK (R492). -/
def BAY_STAT_OV_OK : Field := ⟨0x110, 9, 9⟩
/-- UV_OK (R492). -/
def BAY_STAT_UV_OK : Field := ⟨0x110, 8, 8⟩
/-- PRES (R492). -/
def BAY_STAT_PRES : Field := ⟨0x110, 7, 7⟩
/-- STRIKES (R492). -/
def BAY_STAT_STRIKES : Field := ⟨0x110, 6, 4⟩
/-- STATE (R492). -/
def BAY_STAT_STATE : Field := ⟨0x110, 3, 0⟩
/-- OP (R492). -/
def BAY_CMD_OP : Field := ⟨0x114, 1, 0⟩
/-- RESULT (R492). -/
def BAY_RESULT_RESULT : Field := ⟨0x118, 3, 0⟩
/-- RETRY_LEFT (R492). -/
def BAY_RETRY_RETRY_LEFT : Field := ⟨0x120, 15, 0⟩
/-- ID_REC (R492). -/
def ID_REC : Field := ⟨0x200, 31, 0⟩
/-- BAY_CFG_GZ (R492). -/
def BAY_CFG_GZ : Field := ⟨0xE00, 31, 0⟩

end Reg.BAY

def bayMap0 : List MapRow := [
  ⟨0x100, 0, 1, 31, 23, .rsv, none⟩,
  ⟨0x100, 0, 1, 22, 16, .rw, some 0x50⟩,
  ⟨0x100, 0, 1, 15, 14, .rsv, none⟩,
  ⟨0x100, 0, 1, 13, 13, .rw, some 0x1⟩,
  ⟨0x100, 0, 1, 12, 12, .rw, some 0x0⟩,
  ⟨0x100, 0, 1, 11, 9, .rsv, none⟩,
  ⟨0x100, 0, 1, 8, 0, .rw, some 0x1ff⟩,
  ⟨0x104, 0, 1, 31, 30, .rsv, none⟩,
  ⟨0x104, 0, 1, 29, 24, .rw, some 0x5⟩,
  ⟨0x104, 0, 1, 23, 16, .rw, some 0x14⟩,
  ⟨0x104, 0, 1, 15, 8, .rw, some 0x14⟩,
  ⟨0x104, 0, 1, 7, 0, .rw, some 0x32⟩,
  ⟨0x108, 0, 1, 31, 24, .rw, some 0xa⟩,
  ⟨0x108, 0, 1, 23, 19, .rsv, none⟩,
  ⟨0x108, 0, 1, 18, 16, .rw, some 0x3⟩,
  ⟨0x108, 0, 1, 15, 8, .rw, some 0x3c⟩,
  ⟨0x108, 0, 1, 7, 0, .rw, some 0xa⟩,
  ⟨0x10C, 0, 1, 31, 8, .rsv, none⟩,
  ⟨0x10C, 0, 1, 7, 0, .rw, some 0xa⟩,
  ⟨0x110, 0, 1, 31, 24, .rsv, none⟩,
  ⟨0x110, 0, 1, 23, 20, .ro, some 0x0⟩,
  ⟨0x110, 0, 1, 19, 19, .rsv, none⟩,
  ⟨0x110, 0, 1, 18, 18, .ro, some 0x0⟩,
  ⟨0x110, 0, 1, 17, 17, .ro, some 0x0⟩]

def bayMap1 : List MapRow := [
  ⟨0x110, 0, 1, 16, 16, .ro, some 0x0⟩,
  ⟨0x110, 0, 1, 15, 15, .ro, some 0x0⟩,
  ⟨0x110, 0, 1, 14, 14, .ro, some 0x0⟩,
  ⟨0x110, 0, 1, 13, 13, .ro, some 0x0⟩,
  ⟨0x110, 0, 1, 12, 12, .ro, some 0x0⟩,
  ⟨0x110, 0, 1, 11, 11, .ro, some 0x0⟩,
  ⟨0x110, 0, 1, 10, 10, .ro, some 0x0⟩,
  ⟨0x110, 0, 1, 9, 9, .ro, some 0x0⟩,
  ⟨0x110, 0, 1, 8, 8, .ro, some 0x0⟩,
  ⟨0x110, 0, 1, 7, 7, .ro, some 0x0⟩,
  ⟨0x110, 0, 1, 6, 4, .ro, some 0x0⟩,
  ⟨0x110, 0, 1, 3, 0, .ro, some 0x0⟩,
  ⟨0x114, 0, 1, 31, 2, .rsv, none⟩,
  ⟨0x114, 0, 1, 1, 0, .rwl, some 0x0⟩,
  ⟨0x118, 0, 1, 31, 4, .rsv, none⟩,
  ⟨0x118, 0, 1, 3, 0, .ro, some 0x0⟩,
  ⟨0x120, 0, 1, 31, 16, .rsv, none⟩,
  ⟨0x120, 0, 1, 15, 0, .ro, some 0x0⟩,
  ⟨0x200, 4, 64, 31, 0, .ro, some 0x0⟩,
  ⟨0xE00, 0, 1, 31, 0, .ro, some 0xffafde00⟩]

/-- The map of the BAY pages. -/
def bayMap : List MapRow := bayMap0 ++ bayMap1

namespace Reg.ROUTER
/-- Y (R213). -/
def RT_ID_Y : Field := ⟨0x100, 7, 4⟩
/-- X (R213). -/
def RT_ID_X : Field := ⟨0x100, 3, 0⟩
/-- PREV_LIVE (R213). -/
def RT_EPOCH_PREV_LIVE : Field := ⟨0x104, 8, 8⟩
/-- PREV (R213). -/
def RT_EPOCH_PREV : Field := ⟨0x104, 7, 4⟩
/-- CUR (R213). -/
def RT_EPOCH_CUR : Field := ⟨0x104, 3, 0⟩
/-- SELF_SHADOW (R213). -/
def RT_FENCE_SELF_SHADOW : Field := ⟨0x108, 6, 6⟩
/-- SELF_DORMANT (R213). -/
def RT_FENCE_SELF_DORMANT : Field := ⟨0x108, 5, 5⟩
/-- SELF_FENCED (R213). -/
def RT_FENCE_SELF_FENCED : Field := ⟨0x108, 4, 4⟩
/-- NB_FENCED (R213). -/
def RT_FENCE_NB_FENCED : Field := ⟨0x108, 3, 0⟩
/-- ADAPT_EN (R213). -/
def RT_CFG_ADAPT_EN : Field := ⟨0x10C, 0, 0⟩
/-- ROW_HI (R213). -/
def RT_ROW_ROW_HI : Field := ⟨0x110, 27, 16⟩
/-- ROW_LO (R213). -/
def RT_ROW_ROW_LO : Field := ⟨0x110, 11, 0⟩
/-- COL_HI (R213). -/
def RT_COL_COL_HI : Field := ⟨0x130, 27, 16⟩
/-- COL_LO (R213). -/
def RT_COL_COL_LO : Field := ⟨0x130, 11, 0⟩
/-- BR1_ROWS (R213). -/
def RT_BRROW_BR1_ROWS : Field := ⟨0x150, 27, 16⟩
/-- BR0_ROWS (R213). -/
def RT_BRROW_BR0_ROWS : Field := ⟨0x150, 11, 0⟩
/-- ESC_AFTER (R213). -/
def RT_EXP_ESC_ESC_AFTER : Field := ⟨0x600, 7, 0⟩
/-- DRAIN_TO (R213). -/
def RT_EXP_DRAIN_DRAIN_TO : Field := ⟨0x604, 7, 0⟩
/-- STARVE_N (R244). -/
def ARB_CFG_STARVE_N : Field := ⟨0x300, 6, 0⟩
/-- VIEW (R244). -/
def ARB_CNT_SEL_VIEW : Field := ⟨0x304, 2, 0⟩
/-- PERIOD (R244). -/
def SLOT_STAT_PERIOD : Field := ⟨0x308, 31, 16⟩
/-- DELAYS (R244). -/
def SLOT_STAT_DELAYS : Field := ⟨0x308, 15, 8⟩
/-- FORCING (R244). -/
def SLOT_STAT_FORCING : Field := ⟨0x308, 3, 3⟩
/-- VALIDATING (R244). -/
def SLOT_STAT_VALIDATING : Field := ⟨0x308, 2, 2⟩
/-- SWAP_PEND (R244). -/
def SLOT_STAT_SWAP_PEND : Field := ⟨0x308, 1, 1⟩
/-- ACTIVE (R244). -/
def SLOT_STAT_ACTIVE : Field := ⟨0x308, 0, 0⟩
/-- SWAP_AT (R244). -/
def SLOT_CTRL_SWAP_AT : Field := ⟨0x400, 31, 16⟩
/-- AT_EN (R244). -/
def SLOT_CTRL_AT_EN : Field := ⟨0x400, 4, 4⟩
/-- CLEAR (R244). -/
def SLOT_CTRL_CLEAR : Field := ⟨0x400, 3, 3⟩
/-- COPY (R244). -/
def SLOT_CTRL_COPY : Field := ⟨0x400, 2, 2⟩
/-- SWAP_REQ (R244). -/
def SLOT_CTRL_SWAP_REQ : Field := ⟨0x400, 0, 0⟩
/-- BANK (R244). -/
def SLOT_ADDR_BANK : Field := ⟨0x404, 13, 13⟩
/-- PLANE (R244). -/
def SLOT_ADDR_PLANE : Field := ⟨0x404, 12, 12⟩
/-- OUT (R244). -/
def SLOT_ADDR_OUT : Field := ⟨0x404, 11, 9⟩
/-- INDEX (R244). -/
def SLOT_ADDR_INDEX : Field := ⟨0x404, 8, 0⟩
/-- ENTRY_HI (R244). -/
def SLOT_DATA_ENTRY_HI : Field := ⟨0x408, 31, 16⟩
/-- ENTRY_LO (R244). -/
def SLOT_DATA_ENTRY_LO : Field := ⟨0x408, 15, 0⟩
/-- SWAP_FORCE_AFTER (R244). -/
def ARB_EXP_SWAP_FORCE_AFTER : Field := ⟨0x40C, 15, 8⟩
/-- BYPASS_EN (R244). -/
def ARB_EXP_BYPASS_EN : Field := ⟨0x40C, 0, 0⟩
/-- ADAPT_OK (R272). -/
def CLASS_MAP_ADAPT_OK : Field := ⟨0x200, 16, 16⟩
/-- BONUS (R272). -/
def CLASS_MAP_BONUS : Field := ⟨0x200, 11, 0⟩
/-- BR_SUSP (R272). -/
def C1_STAT_BR_SUSP : Field := ⟨0x220, 11, 8⟩
/-- RATE (R272). -/
def C1_STAT_RATE : Field := ⟨0x220, 1, 1⟩
/-- C1_TILE (R272). -/
def C1_STAT_C1_TILE : Field := ⟨0x220, 0, 0⟩
/-- BANK (R272). -/
def RES_ADDR_BANK : Field := ⟨0x240, 13, 13⟩
/-- PLANE (R272). -/
def RES_ADDR_PLANE : Field := ⟨0x240, 12, 12⟩
/-- OUT (R272). -/
def RES_ADDR_OUT : Field := ⟨0x240, 11, 9⟩
/-- RTAG (R272). -/
def RES_ADDR_RTAG : Field := ⟨0x240, 5, 0⟩
/-- RES_DATA (R272). -/
def RES_DATA : Field := ⟨0x244, 31, 0⟩
/-- REFUSED (R272). -/
def VAL_STAT_REFUSED : Field := ⟨0x248, 31, 31⟩
/-- REASON (R272). -/
def VAL_STAT_REASON : Field := ⟨0x248, 27, 24⟩
/-- REJECTS (R272). -/
def VAL_STAT_REJECTS : Field := ⟨0x248, 23, 16⟩
/-- PLANE (R272). -/
def VAL_STAT_PLANE : Field := ⟨0x248, 15, 15⟩
/-- OUT (R272). -/
def VAL_STAT_OUT : Field := ⟨0x248, 14, 12⟩
/-- DETAIL (R272). -/
def VAL_STAT_DETAIL : Field := ⟨0x248, 9, 0⟩
/-- VALID (R272). -/
def DEM_L0_VALID : Field := ⟨0x260, 31, 31⟩
/-- REASON (R272). -/
def DEM_L0_REASON : Field := ⟨0x260, 25, 24⟩
/-- PLANE (R272). -/
def DEM_L0_PLANE : Field := ⟨0x260, 20, 20⟩
/-- FID (R272). -/
def DEM_L0_FID : Field := ⟨0x260, 19, 0⟩
/-- DEM_L1 (R272). -/
def DEM_L1 : Field := ⟨0x2A0, 31, 0⟩
/-- ALL_L1 (R272). -/
def DEMOTE_CTRL_ALL_L1 : Field := ⟨0x2E0, 5, 5⟩
/-- ALL_L0 (R272). -/
def DEMOTE_CTRL_ALL_L0 : Field := ⟨0x2E0, 4, 4⟩
/-- CLEAR_L1 (R272). -/
def DEMOTE_CTRL_CLEAR_L1 : Field := ⟨0x2E0, 1, 1⟩
/-- CLEAR_L0 (R272). -/
def DEMOTE_CTRL_CLEAR_L0 : Field := ⟨0x2E0, 0, 0⟩

end Reg.ROUTER

def routerMap0 : List MapRow := [
  ⟨0x100, 0, 1, 31, 8, .rsv, none⟩,
  ⟨0x100, 0, 1, 7, 4, .ro, none⟩,
  ⟨0x100, 0, 1, 3, 0, .ro, none⟩,
  ⟨0x104, 0, 1, 31, 9, .rsv, none⟩,
  ⟨0x104, 0, 1, 8, 8, .ro, some 0x0⟩,
  ⟨0x104, 0, 1, 7, 4, .ro, some 0x0⟩,
  ⟨0x104, 0, 1, 3, 0, .ro, some 0x0⟩,
  ⟨0x108, 0, 1, 31, 7, .rsv, none⟩,
  ⟨0x108, 0, 1, 6, 6, .ro, some 0x0⟩,
  ⟨0x108, 0, 1, 5, 5, .ro, some 0x0⟩,
  ⟨0x108, 0, 1, 4, 4, .ro, some 0x0⟩,
  ⟨0x108, 0, 1, 3, 0, .ro, some 0x0⟩,
  ⟨0x10C, 0, 1, 31, 1, .rsv, none⟩,
  ⟨0x10C, 0, 1, 0, 0, .rw, some 0x1⟩,
  ⟨0x110, 4, 6, 31, 28, .rsv, some 0x0⟩,
  ⟨0x110, 4, 6, 15, 12, .rsv, some 0x0⟩,
  ⟨0x110, 4, 6, 27, 16, .ro, some 0x0⟩,
  ⟨0x110, 4, 6, 11, 0, .ro, some 0x0⟩,
  ⟨0x130, 4, 6, 31, 28, .rsv, some 0x0⟩,
  ⟨0x130, 4, 6, 15, 12, .rsv, some 0x0⟩,
  ⟨0x130, 4, 6, 27, 16, .ro, some 0x0⟩,
  ⟨0x130, 4, 6, 11, 0, .ro, some 0x0⟩,
  ⟨0x150, 4, 4, 31, 28, .rsv, some 0x0⟩,
  ⟨0x150, 4, 4, 15, 12, .rsv, some 0x0⟩]

def routerMap1 : List MapRow := [
  ⟨0x150, 4, 4, 27, 16, .ro, some 0xfff⟩,
  ⟨0x150, 4, 4, 11, 0, .ro, some 0xfff⟩,
  ⟨0x600, 0, 1, 31, 8, .rsv, none⟩,
  ⟨0x600, 0, 1, 7, 0, .rw, some 0x10⟩,
  ⟨0x604, 0, 1, 31, 8, .rsv, none⟩,
  ⟨0x604, 0, 1, 7, 0, .rw, some 0xa⟩,
  ⟨0x300, 0, 1, 31, 7, .rsv, none⟩,
  ⟨0x300, 0, 1, 6, 0, .rwl, some 0x10⟩,
  ⟨0x304, 0, 1, 31, 3, .rsv, none⟩,
  ⟨0x304, 0, 1, 2, 0, .rwl, some 0x0⟩,
  ⟨0x308, 0, 1, 31, 16, .ro, some 0x0⟩,
  ⟨0x308, 0, 1, 15, 8, .ro, some 0x0⟩,
  ⟨0x308, 0, 1, 7, 4, .rsv, none⟩,
  ⟨0x308, 0, 1, 3, 3, .ro, some 0x0⟩,
  ⟨0x308, 0, 1, 2, 2, .ro, some 0x0⟩,
  ⟨0x308, 0, 1, 1, 1, .ro, some 0x0⟩,
  ⟨0x308, 0, 1, 0, 0, .ro, some 0x0⟩,
  ⟨0x400, 0, 1, 31, 16, .rwl, some 0x0⟩,
  ⟨0x400, 0, 1, 15, 5, .rsv, none⟩,
  ⟨0x400, 0, 1, 4, 4, .rwl, some 0x0⟩,
  ⟨0x400, 0, 1, 3, 3, .rwl, some 0x0⟩,
  ⟨0x400, 0, 1, 2, 2, .rwl, some 0x0⟩,
  ⟨0x400, 0, 1, 1, 1, .rsv, none⟩,
  ⟨0x400, 0, 1, 0, 0, .rwl, some 0x0⟩]

def routerMap2 : List MapRow := [
  ⟨0x404, 0, 1, 31, 14, .rsv, none⟩,
  ⟨0x404, 0, 1, 13, 13, .rwl, some 0x0⟩,
  ⟨0x404, 0, 1, 12, 12, .rwl, some 0x0⟩,
  ⟨0x404, 0, 1, 11, 9, .rwl, some 0x0⟩,
  ⟨0x404, 0, 1, 8, 0, .rwl, some 0x0⟩,
  ⟨0x408, 0, 1, 31, 16, .rwl, some 0x7⟩,
  ⟨0x408, 0, 1, 15, 0, .rwl, some 0x7⟩,
  ⟨0x40C, 0, 1, 31, 16, .rsv, none⟩,
  ⟨0x40C, 0, 1, 15, 8, .rwl, some 0x10⟩,
  ⟨0x40C, 0, 1, 7, 1, .rsv, none⟩,
  ⟨0x40C, 0, 1, 0, 0, .rwl, some 0x1⟩,
  ⟨0x200, 4, 8, 31, 17, .rsv, none⟩,
  ⟨0x200, 4, 8, 16, 16, .rwl, none⟩,
  ⟨0x200, 4, 8, 15, 12, .rsv, none⟩,
  ⟨0x200, 4, 8, 11, 0, .rwl, none⟩,
  ⟨0x220, 0, 1, 31, 12, .rsv, none⟩,
  ⟨0x220, 0, 1, 11, 8, .ro, some 0x0⟩,
  ⟨0x220, 0, 1, 7, 2, .rsv, none⟩,
  ⟨0x220, 0, 1, 1, 1, .ro, some 0x0⟩,
  ⟨0x220, 0, 1, 0, 0, .ro, some 0x0⟩,
  ⟨0x240, 0, 1, 31, 14, .rsv, none⟩,
  ⟨0x240, 0, 1, 13, 13, .rwl, some 0x0⟩,
  ⟨0x240, 0, 1, 12, 12, .rwl, some 0x0⟩,
  ⟨0x240, 0, 1, 11, 9, .rwl, some 0x0⟩]

def routerMap3 : List MapRow := [
  ⟨0x240, 0, 1, 8, 6, .rsv, none⟩,
  ⟨0x240, 0, 1, 5, 0, .rwl, some 0x0⟩,
  ⟨0x244, 0, 1, 31, 0, .rwl, some 0x0⟩,
  ⟨0x248, 0, 1, 31, 31, .w1c, some 0x0⟩,
  ⟨0x248, 0, 1, 30, 28, .rsv, none⟩,
  ⟨0x248, 0, 1, 27, 24, .ro, some 0x0⟩,
  ⟨0x248, 0, 1, 23, 16, .ro, some 0x0⟩,
  ⟨0x248, 0, 1, 15, 15, .ro, some 0x0⟩,
  ⟨0x248, 0, 1, 14, 12, .ro, some 0x0⟩,
  ⟨0x248, 0, 1, 11, 10, .rsv, none⟩,
  ⟨0x248, 0, 1, 9, 0, .ro, some 0x0⟩,
  ⟨0x260, 4, 16, 31, 31, .ro, some 0x0⟩,
  ⟨0x260, 4, 16, 30, 26, .rsv, none⟩,
  ⟨0x260, 4, 16, 25, 24, .ro, some 0x0⟩,
  ⟨0x260, 4, 16, 23, 21, .rsv, none⟩,
  ⟨0x260, 4, 16, 20, 20, .ro, some 0x0⟩,
  ⟨0x260, 4, 16, 19, 0, .ro, some 0x0⟩,
  ⟨0x2A0, 4, 16, 31, 0, .ro, some 0x0⟩,
  ⟨0x2E0, 0, 1, 31, 6, .rsv, none⟩,
  ⟨0x2E0, 0, 1, 5, 5, .ro, some 0x0⟩,
  ⟨0x2E0, 0, 1, 4, 4, .ro, some 0x0⟩,
  ⟨0x2E0, 0, 1, 3, 2, .rsv, none⟩,
  ⟨0x2E0, 0, 1, 1, 1, .rwl, some 0x0⟩,
  ⟨0x2E0, 0, 1, 0, 0, .rwl, some 0x0⟩]

/-- The map of the ROUTER pages. -/
def routerMap : List MapRow := routerMap0 ++ routerMap1 ++ routerMap2 ++ routerMap3

namespace Reg.NI
/-- COMPLETER (R148). -/
def NI_CFG_COMPLETER : Field := ⟨0x100, 3, 3⟩
/-- POSTED_CPL (R148). -/
def NI_CFG_POSTED_CPL : Field := ⟨0x100, 2, 2⟩
/-- TWIN (R148). -/
def NI_CFG_TWIN : Field := ⟨0x100, 1, 1⟩
/-- DUAL (R148). -/
def NI_CFG_DUAL : Field := ⟨0x100, 0, 0⟩
/-- PAIR_EID (R148). -/
def NI_ID_PAIR_EID : Field := ⟨0x104, 23, 12⟩
/-- EID (R148). -/
def NI_ID_EID : Field := ⟨0x104, 11, 0⟩
/-- SNP_CRED (R148). -/
def NI_CREDIT_SNP_CRED : Field := ⟨0x108, 29, 24⟩
/-- TUN_CRED (R148). -/
def NI_CREDIT_TUN_CRED : Field := ⟨0x108, 22, 16⟩
/-- WD_CRED (R148). -/
def NI_CREDIT_WD_CRED : Field := ⟨0x108, 13, 8⟩
/-- REQ_CRED (R148). -/
def NI_CREDIT_REQ_CRED : Field := ⟨0x108, 7, 0⟩
/-- BUSY (R148). -/
def BIND_CMD_BUSY : Field := ⟨0x110, 31, 31⟩
/-- OP (R148). -/
def BIND_CMD_OP : Field := ⟨0x110, 9, 8⟩
/-- IDX (R148). -/
def BIND_CMD_IDX : Field := ⟨0x110, 7, 0⟩
/-- REFUSED (R148). -/
def BIND_STAT_REFUSED : Field := ⟨0x114, 31, 31⟩
/-- IN_FLIGHT (R148). -/
def BIND_STAT_IN_FLIGHT : Field := ⟨0x114, 15, 0⟩
/-- BIND_D (R148). -/
def BIND_D : Field := ⟨0x120, 31, 0⟩
/-- RETRY_MAX (R148). -/
def RETRY_CFG_RETRY_MAX : Field := ⟨0x140, 11, 8⟩
/-- RETRY_TO (R148). -/
def RETRY_CFG_RETRY_TO : Field := ⟨0x140, 7, 0⟩
/-- CPL_TO (R148). -/
def CPL_TO : Field := ⟨0x144, 11, 0⟩
/-- LOST_LO (R148). -/
def LOST_LO : Field := ⟨0x150, 31, 0⟩
/-- LOST_HI (R148). -/
def LOST_HI : Field := ⟨0x154, 31, 0⟩
/-- VALID (R148). -/
def LOST_INFO_VALID : Field := ⟨0x158, 31, 31⟩
/-- DEST (R148). -/
def LOST_INFO_DEST : Field := ⟨0x158, 11, 0⟩
/-- ACK_DELAY (R148). -/
def ACK_CFG_ACK_DELAY : Field := ⟨0x400, 15, 8⟩
/-- ACK_EVERY (R148). -/
def ACK_CFG_ACK_EVERY : Field := ⟨0x400, 4, 0⟩
/-- SRC_IDLE (R148). -/
def ADAPT_CFG_SRC_IDLE : Field := ⟨0x404, 15, 8⟩
/-- GRANT_MAX (R148). -/
def ADAPT_CFG_GRANT_MAX : Field := ⟨0x404, 4, 0⟩
/-- RELAXED_OK (R180). -/
def NI_ORD_CFG_RELAXED_OK : Field := ⟨0x200, 0, 0⟩
/-- FENCE_ERR (R180). -/
def NI_ORD_STAT_FENCE_ERR : Field := ⟨0x204, 31, 31⟩
/-- LD_PEND (R180). -/
def NI_ORD_STAT_LD_PEND : Field := ⟨0x204, 24, 16⟩
/-- ST_PEND (R180). -/
def NI_ORD_STAT_ST_PEND : Field := ⟨0x204, 8, 0⟩
/-- VALID (R180). -/
def NI_RES_STAT_VALID : Field := ⟨0x208, 31, 31⟩
/-- DEST (R180). -/
def NI_RES_STAT_DEST : Field := ⟨0x208, 11, 0⟩
/-- GRAN_LO (R180). -/
def NI_RES_LO_GRAN_LO : Field := ⟨0x20C, 31, 6⟩
/-- GRAN_HI (R180). -/
def NI_RES_HI_GRAN_HI : Field := ⟨0x210, 31, 0⟩
/-- RESET (R180). -/
def NI_RST_RESET : Field := ⟨0x220, 0, 0⟩
/-- RST_LOST_CNT (R180). -/
def RST_LOST_CNT : Field := ⟨0x228, 15, 0⟩
/-- VALID (R180). -/
def RST_LOST_INFO_VALID : Field := ⟨0x22C, 31, 31⟩
/-- DEST (R180). -/
def RST_LOST_INFO_DEST : Field := ⟨0x22C, 11, 0⟩
/-- RST_LOST_LO (R180). -/
def RST_LOST_LO : Field := ⟨0x230, 31, 0⟩
/-- RST_LOST_HI (R180). -/
def RST_LOST_HI : Field := ⟨0x234, 31, 0⟩
/-- REFUSED (R180). -/
def SLEEP_STAT_REFUSED : Field := ⟨0x238, 31, 31⟩
/-- REASON (R180). -/
def SLEEP_STAT_REASON : Field := ⟨0x238, 1, 0⟩
/-- LD_PASS_EN (R180). -/
def NI_ORD_EXP_LD_PASS_EN : Field := ⟨0x500, 1, 1⟩
/-- FWD_EN (R180). -/
def NI_ORD_EXP_FWD_EN : Field := ⟨0x500, 0, 0⟩
/-- POL_EN (R311). -/
def NI_POL_CFG_POL_EN : Field := ⟨0x280, 0, 0⟩
/-- CACHED (R311). -/
def CACHE_STAT_CACHED : Field := ⟨0x284, 25, 16⟩
/-- PINNED (R311). -/
def CACHE_STAT_PINNED : Field := ⟨0x284, 8, 0⟩
/-- PROBE_IDX (R311). -/
def PROBE_IDX : Field := ⟨0x288, 17, 0⟩
/-- HIT (R311). -/
def PROBE_STAT_HIT : Field := ⟨0x28C, 31, 31⟩
/-- DIRTY (R311). -/
def PROBE_STAT_DIRTY : Field := ⟨0x28C, 30, 30⟩
/-- UNAVAIL (R311). -/
def PROBE_STAT_UNAVAIL : Field := ⟨0x28C, 29, 29⟩
/-- QCOUNT (R311). -/
def PROBE_STAT_QCOUNT : Field := ⟨0x28C, 7, 0⟩
/-- PROBE_D (R311). -/
def PROBE_D : Field := ⟨0x290, 31, 0⟩
/-- GRAN (R311). -/
def WHL_CTRL_GRAN : Field := ⟨0x580, 7, 4⟩
/-- WHL_EN (R311). -/
def WHL_CTRL_WHL_EN : Field := ⟨0x580, 0, 0⟩
/-- FLOWS (R311). -/
def WHL_STAT_FLOWS : Field := ⟨0x584, 25, 16⟩
/-- CUR (R311). -/
def WHL_STAT_CUR : Field := ⟨0x584, 11, 0⟩
/-- BURST (R311). -/
def WHL_PROF_BURST : Field := ⟨0x5C0, 23, 16⟩
/-- INTERVAL (R311). -/
def WHL_PROF_INTERVAL : Field := ⟨0x5C0, 15, 0⟩

end Reg.NI

def niMap0 : List MapRow := [
  ⟨0x100, 0, 1, 31, 4, .rsv, none⟩,
  ⟨0x100, 0, 1, 3, 3, .rw, some 0x0⟩,
  ⟨0x100, 0, 1, 2, 2, .rw, some 0x0⟩,
  ⟨0x100, 0, 1, 1, 1, .rw, some 0x0⟩,
  ⟨0x100, 0, 1, 0, 0, .rw, some 0x0⟩,
  ⟨0x104, 0, 1, 31, 24, .rsv, none⟩,
  ⟨0x104, 0, 1, 23, 12, .rw, some 0x0⟩,
  ⟨0x104, 0, 1, 11, 0, .ro, none⟩,
  ⟨0x108, 0, 1, 31, 30, .rsv, none⟩,
  ⟨0x108, 0, 1, 29, 24, .rw, some 0x20⟩,
  ⟨0x108, 0, 1, 23, 23, .rsv, none⟩,
  ⟨0x108, 0, 1, 22, 16, .rw, some 0x40⟩,
  ⟨0x108, 0, 1, 15, 14, .rsv, none⟩,
  ⟨0x108, 0, 1, 13, 8, .rw, some 0x20⟩,
  ⟨0x108, 0, 1, 7, 0, .rw, some 0x80⟩,
  ⟨0x110, 0, 1, 31, 31, .ro, some 0x0⟩,
  ⟨0x110, 0, 1, 30, 10, .rsv, none⟩,
  ⟨0x110, 0, 1, 9, 8, .rwl, some 0x0⟩,
  ⟨0x110, 0, 1, 7, 0, .rwl, some 0x0⟩,
  ⟨0x114, 0, 1, 31, 31, .ro, some 0x0⟩,
  ⟨0x114, 0, 1, 30, 16, .rsv, none⟩,
  ⟨0x114, 0, 1, 15, 0, .ro, some 0x0⟩,
  ⟨0x120, 4, 4, 31, 0, .rwl, some 0x0⟩,
  ⟨0x140, 0, 1, 31, 12, .rsv, none⟩]

def niMap1 : List MapRow := [
  ⟨0x140, 0, 1, 11, 8, .rw, some 0x3⟩,
  ⟨0x140, 0, 1, 7, 0, .rw, some 0x7⟩,
  ⟨0x144, 0, 1, 31, 12, .rsv, none⟩,
  ⟨0x144, 0, 1, 11, 0, .rw, some 0x125⟩,
  ⟨0x150, 0, 1, 31, 0, .ro, some 0x0⟩,
  ⟨0x154, 0, 1, 31, 0, .ro, some 0x0⟩,
  ⟨0x158, 0, 1, 31, 31, .w1c, some 0x0⟩,
  ⟨0x158, 0, 1, 30, 12, .rsv, none⟩,
  ⟨0x158, 0, 1, 11, 0, .ro, some 0x0⟩,
  ⟨0x400, 0, 1, 31, 16, .rsv, none⟩,
  ⟨0x400, 0, 1, 15, 8, .rw, some 0x8⟩,
  ⟨0x400, 0, 1, 7, 5, .rsv, none⟩,
  ⟨0x400, 0, 1, 4, 0, .rw, some 0x10⟩,
  ⟨0x404, 0, 1, 31, 16, .rsv, none⟩,
  ⟨0x404, 0, 1, 15, 8, .rw, some 0x13⟩,
  ⟨0x404, 0, 1, 7, 5, .rsv, none⟩,
  ⟨0x404, 0, 1, 4, 0, .rw, some 0x10⟩,
  ⟨0x200, 0, 1, 31, 1, .rsv, none⟩,
  ⟨0x200, 0, 1, 0, 0, .rw, some 0x1⟩,
  ⟨0x204, 0, 1, 31, 31, .ro, some 0x0⟩,
  ⟨0x204, 0, 1, 30, 25, .rsv, none⟩,
  ⟨0x204, 0, 1, 24, 16, .ro, some 0x0⟩,
  ⟨0x204, 0, 1, 15, 9, .rsv, none⟩,
  ⟨0x204, 0, 1, 8, 0, .ro, some 0x0⟩]

def niMap2 : List MapRow := [
  ⟨0x208, 0, 1, 31, 31, .ro, some 0x0⟩,
  ⟨0x208, 0, 1, 30, 12, .rsv, none⟩,
  ⟨0x208, 0, 1, 11, 0, .ro, some 0x0⟩,
  ⟨0x20C, 0, 1, 31, 6, .ro, some 0x0⟩,
  ⟨0x20C, 0, 1, 5, 0, .rsv, some 0x0⟩,
  ⟨0x210, 0, 1, 31, 0, .ro, some 0x0⟩,
  ⟨0x220, 0, 1, 31, 1, .rsv, none⟩,
  ⟨0x220, 0, 1, 0, 0, .wg, some 0x0⟩,
  ⟨0x228, 0, 1, 31, 16, .rsv, none⟩,
  ⟨0x228, 0, 1, 15, 0, .ro, some 0x0⟩,
  ⟨0x22C, 0, 1, 31, 31, .w1c, some 0x0⟩,
  ⟨0x22C, 0, 1, 30, 12, .rsv, none⟩,
  ⟨0x22C, 0, 1, 11, 0, .ro, some 0x0⟩,
  ⟨0x230, 0, 1, 31, 0, .ro, some 0x0⟩,
  ⟨0x234, 0, 1, 31, 0, .ro, some 0x0⟩,
  ⟨0x238, 0, 1, 31, 31, .ro, some 0x0⟩,
  ⟨0x238, 0, 1, 30, 2, .rsv, none⟩,
  ⟨0x238, 0, 1, 1, 0, .ro, some 0x0⟩,
  ⟨0x500, 0, 1, 31, 2, .rsv, none⟩,
  ⟨0x500, 0, 1, 1, 1, .rw, some 0x1⟩,
  ⟨0x500, 0, 1, 0, 0, .rw, some 0x1⟩,
  ⟨0x280, 0, 1, 31, 1, .rsv, none⟩,
  ⟨0x280, 0, 1, 0, 0, .rw, some 0x1⟩,
  ⟨0x284, 0, 1, 31, 26, .rsv, none⟩]

def niMap3 : List MapRow := [
  ⟨0x284, 0, 1, 25, 16, .ro, some 0x0⟩,
  ⟨0x284, 0, 1, 15, 9, .rsv, none⟩,
  ⟨0x284, 0, 1, 8, 0, .ro, some 0x0⟩,
  ⟨0x288, 0, 1, 31, 18, .rsv, none⟩,
  ⟨0x288, 0, 1, 17, 0, .rwl, some 0x0⟩,
  ⟨0x28C, 0, 1, 31, 31, .ro, some 0x0⟩,
  ⟨0x28C, 0, 1, 30, 30, .ro, some 0x0⟩,
  ⟨0x28C, 0, 1, 29, 29, .ro, some 0x0⟩,
  ⟨0x28C, 0, 1, 28, 8, .rsv, none⟩,
  ⟨0x28C, 0, 1, 7, 0, .ro, some 0x0⟩,
  ⟨0x290, 4, 4, 31, 0, .ro, some 0x0⟩,
  ⟨0x580, 0, 1, 31, 8, .rsv, none⟩,
  ⟨0x580, 0, 1, 7, 4, .rw, some 0x4⟩,
  ⟨0x580, 0, 1, 3, 1, .rsv, none⟩,
  ⟨0x580, 0, 1, 0, 0, .rw, some 0x0⟩,
  ⟨0x584, 0, 1, 31, 26, .rsv, none⟩,
  ⟨0x584, 0, 1, 25, 16, .ro, some 0x0⟩,
  ⟨0x584, 0, 1, 15, 12, .rsv, none⟩,
  ⟨0x584, 0, 1, 11, 0, .ro, some 0x0⟩,
  ⟨0x5C0, 4, 16, 31, 24, .rsv, none⟩,
  ⟨0x5C0, 4, 16, 23, 16, .rw, some 0x0⟩,
  ⟨0x5C0, 4, 16, 15, 0, .rw, some 0x100⟩]

/-- The map of the NI pages. -/
def niMap : List MapRow := niMap0 ++ niMap1 ++ niMap2 ++ niMap3

namespace Reg.BANK
/-- MODE (R343). -/
def BANK_OWN_MODE : Field := ⟨0x100, 17, 16⟩
/-- ACCESS (R343). -/
def BANK_OWN_ACCESS : Field := ⟨0x100, 13, 13⟩
/-- ZERO (R343). -/
def BANK_OWN_ZERO : Field := ⟨0x100, 12, 12⟩
/-- EID (R343). -/
def BANK_OWN_EID : Field := ⟨0x100, 11, 0⟩
/-- FE_NAMED (R343). -/
def BANK_STAT_FE_NAMED : Field := ⟨0x108, 4, 4⟩
/-- DEFER_FULL (R343). -/
def BANK_STAT_DEFER_FULL : Field := ⟨0x108, 3, 3⟩
/-- WAKE_SCRUB (R343). -/
def BANK_STAT_WAKE_SCRUB : Field := ⟨0x108, 2, 2⟩
/-- ZEROING (R343). -/
def BANK_STAT_ZEROING : Field := ⟨0x108, 1, 1⟩
/-- HANDOVER (R343). -/
def BANK_STAT_HANDOVER : Field := ⟨0x108, 0, 0⟩
/-- VALID (R343). -/
def RL_INFO_VALID : Field := ⟨0x10C, 31, 31⟩
/-- CAUSE (R343). -/
def RL_INFO_CAUSE : Field := ⟨0x10C, 25, 24⟩
/-- ROW (R343). -/
def RL_INFO_ROW : Field := ⟨0x10C, 21, 20⟩
/-- OFFSET (R343). -/
def RL_INFO_OFFSET : Field := ⟨0x10C, 16, 3⟩
/-- ZERO_CMD (R343). -/
def ZERO_CMD : Field := ⟨0x110, 0, 0⟩
/-- SCRUB_EN (R343). -/
def SCRUB_CFG_SCRUB_EN : Field := ⟨0x120, 8, 8⟩
/-- STEP (R343). -/
def SCRUB_CFG_STEP : Field := ⟨0x120, 7, 0⟩
/-- ROW (R343). -/
def SCRUB_STAT_ROW : Field := ⟨0x124, 10, 0⟩
/-- VALID (R343). -/
def POISON_LAST_VALID : Field := ⟨0x130, 31, 31⟩
/-- OFFSET (R343). -/
def POISON_LAST_OFFSET : Field := ⟨0x130, 16, 3⟩
/-- VALID1 (R343). -/
def REPAIR_VALID1 : Field := ⟨0x400, 31, 31⟩
/-- COL1 (R343). -/
def REPAIR_COL1 : Field := ⟨0x400, 25, 16⟩
/-- VALID0 (R343). -/
def REPAIR_VALID0 : Field := ⟨0x400, 15, 15⟩
/-- COL0 (R343). -/
def REPAIR_COL0 : Field := ⟨0x400, 9, 0⟩
/-- CANARY_EN (R343). -/
def EXP_CFG_CANARY_EN : Field := ⟨0x420, 0, 0⟩
/-- BANK_OWN_GZ (R345). -/
def BANK_OWN_GZ : Field := ⟨0xE00, 31, 0⟩
/-- REPAIR_GZ (R345). -/
def REPAIR_GZ : Field := ⟨0xE10, 31, 0⟩

end Reg.BANK

def bankMap0 : List MapRow := [
  ⟨0x100, 0, 1, 31, 18, .rsv, none⟩,
  ⟨0x100, 0, 1, 17, 16, .wg, none⟩,
  ⟨0x100, 0, 1, 15, 14, .rsv, none⟩,
  ⟨0x100, 0, 1, 13, 13, .wg, some 0x0⟩,
  ⟨0x100, 0, 1, 12, 12, .wg, some 0x0⟩,
  ⟨0x100, 0, 1, 11, 0, .wg, some 0x0⟩,
  ⟨0x108, 0, 1, 31, 5, .rsv, none⟩,
  ⟨0x108, 0, 1, 4, 4, .ro, none⟩,
  ⟨0x108, 0, 1, 3, 3, .ro, some 0x0⟩,
  ⟨0x108, 0, 1, 2, 2, .ro, some 0x0⟩,
  ⟨0x108, 0, 1, 1, 1, .ro, some 0x0⟩,
  ⟨0x108, 0, 1, 0, 0, .ro, some 0x0⟩,
  ⟨0x10C, 0, 1, 31, 31, .w1c, some 0x0⟩,
  ⟨0x10C, 0, 1, 30, 26, .rsv, none⟩,
  ⟨0x10C, 0, 1, 25, 24, .ro, some 0x0⟩,
  ⟨0x10C, 0, 1, 23, 22, .rsv, none⟩,
  ⟨0x10C, 0, 1, 21, 20, .ro, some 0x0⟩,
  ⟨0x10C, 0, 1, 19, 17, .rsv, none⟩,
  ⟨0x10C, 0, 1, 16, 3, .ro, some 0x0⟩,
  ⟨0x10C, 0, 1, 2, 0, .rsv, none⟩,
  ⟨0x110, 0, 1, 31, 1, .rsv, none⟩,
  ⟨0x110, 0, 1, 0, 0, .rwl, some 0x0⟩,
  ⟨0x120, 0, 1, 31, 9, .rsv, none⟩,
  ⟨0x120, 0, 1, 8, 8, .rwl, some 0x1⟩]

def bankMap1 : List MapRow := [
  ⟨0x120, 0, 1, 7, 0, .rwl, some 0x10⟩,
  ⟨0x124, 0, 1, 31, 11, .rsv, none⟩,
  ⟨0x124, 0, 1, 10, 0, .ro, some 0x0⟩,
  ⟨0x130, 0, 1, 31, 31, .w1c, some 0x0⟩,
  ⟨0x130, 0, 1, 30, 17, .rsv, none⟩,
  ⟨0x130, 0, 1, 16, 3, .ro, some 0x0⟩,
  ⟨0x130, 0, 1, 2, 0, .rsv, none⟩,
  ⟨0x400, 4, 8, 31, 31, .rw, none⟩,
  ⟨0x400, 4, 8, 30, 26, .rsv, none⟩,
  ⟨0x400, 4, 8, 25, 16, .rw, none⟩,
  ⟨0x400, 4, 8, 15, 15, .rw, none⟩,
  ⟨0x400, 4, 8, 14, 10, .rsv, none⟩,
  ⟨0x400, 4, 8, 9, 0, .rw, none⟩,
  ⟨0x420, 0, 1, 31, 1, .rsv, none⟩,
  ⟨0x420, 0, 1, 0, 0, .rw, some 0x1⟩,
  ⟨0xE00, 0, 1, 31, 0, .ro, none⟩,
  ⟨0xE10, 4, 8, 31, 0, .ro, none⟩]

/-- The map of the BANK pages. -/
def bankMap : List MapRow := bankMap0 ++ bankMap1

/-- The map of a kind of page, without the common registers. -/
def kindMap : Kind → List MapRow
  | .seg => segMap | .coll => collMap | .pwr => pwrMap | .clk => clkMap | .kiln => kilnMap | .ten => tenMap
  | .flowwin => flowwinMap | .br => brMap | .bay => bayMap | .router => routerMap | .ni => niMap | .bank => bankMap

/-- Whether a row of a map covers the word at `off`. -/
def MapRow.covers (r : MapRow) (off : Nat) : Bool :=
  r.base ≤ off && (if r.stride = 0 then off = r.base
    else (off - r.base) % r.stride = 0 && (off - r.base) / r.stride < r.count)

/-- The rows of the word at `off` of a page of kind `k`. -/
def wordRows (k : Kind) (off : Nat) : List MapRow :=
  (if off < 0x100 then commonMap else kindMap k).filter (·.covers off)

/-- The page map of R26: the kind of a page and its index, by page number. -/
def pageKind (p : Nat) : Option (Kind × Nat) :=
  if p = 0 then some (.seg, 0) else if p = 1 then some (.coll, 0) else if p = 2 then some (.pwr, 0)
  else if p = 3 then some (.clk, 0) else if p = 4 then some (.kiln, 0) else if p = 5 then some (.ten, 0)
  else if p = 6 then some (.flowwin, 0)
  else if 0x10 ≤ p ∧ p ≤ 0x11 then some (.br, p - 0x10)
  else if 0x20 ≤ p ∧ p ≤ 0x27 then some (.bay, p - 0x20)
  else if 0x100 ≤ p ∧ p ≤ 0x18F then some (.router, p - 0x100)
  else if 0x200 ≤ p ∧ p ≤ 0x31F then some (.ni, p - 0x200)
  else if 0x400 ≤ p ∧ p ≤ 0x447 then some (.bank, p - 0x400)
  else none

/-- PAGE_ID.TYPE of R26. -/
def Kind.typeCode : Kind → Nat
  | .seg => 0x01 | .coll => 0x02 | .pwr => 0x03 | .clk => 0x04 | .kiln => 0x05 | .ten => 0x06 | .flowwin => 0x07
  | .br => 0x10 | .bay => 0x20 | .router => 0x30 | .ni => 0x40 | .bank => 0x50

/-- PAGE_CAP of each page (R58, R61, R149, R214, R308, R343, R373, R411, R447, R474, R492, R514). -/
def Kind.cap : Kind → Nat
  | .seg => 0x0D06 | .ten => 0x0842 | .ni => 0x11FF | .router => 0x13FF | .flowwin => 0x0606 | .bank => 0x1717
  | .clk => 0x0D08 | .br => 0x0522 | .coll => 0x0C0C | .pwr => 0x0F15 | .bay => 0x040A | .kiln => 0x0F08

/-- The pages whose PAGE_CTRL.ENABLE ignores writes of 0 (R35). -/
def Kind.alwaysOn : Kind → Bool
  | .seg | .coll | .pwr | .clk | .kiln | .ten | .br => true
  | .flowwin | .bay | .router | .ni | .bank => false

/-- The reset value of PAGE_CTRL.ENABLE (R58, R61, R149, R214, R308, R343, R373, R411, R447, R474, R492, R514). -/
def Kind.enableReset : Kind → Bool
  | .flowwin | .ni | .bay => false
  | _ => true

/-- The class map's resets (R247): ADAPT_OK and BONUS of class c. -/
def classMapReset (c : Nat) : Nat :=
  if c = 1 then 0
  else 0x10000 + (if c = 0 then 1024 else if c = 2 then 256 else if c = 3 then 24 else if c = 4 then 16
    else if c = 5 then 8 else if c = 6 then 4 else 0)

/-- SRC_CFG's reset by local source (R447). -/
def srcCfgReset (src : Nat) : Word :=
  if src < 0x18 then 0x01254108 else if src < 0x40 then 0x01254208
  else if src < 0x200 then 0x01250208 else 0x01250108

/-- Reset values that are not one number for a whole row: identity, straps, class maps, FE_MAP, ownership (R26, R58,
R148, R213, R247, R308, R328). `strap` is the segment-number strap. -/
def resetSpecial (strap : Nat) (k : Kind) (i off : Nat) : Option Nat :=
  match k with
  | .seg => if off = 0x100 then some strap else none
  | .ni => if off = 0x104 then some (strap * 1024 + i) else none
  | .router =>
    if off = 0x100 then some ((i / 12) * 16 + i % 12)
    else if 0x200 ≤ off ∧ off < 0x220 then some (classMapReset ((off - 0x200) / 4)) else none
  | .flowwin =>
    if 0x140 ≤ off ∧ off < 0x160 then
      let w := off - 0x140
      some (w + (w + 1) * 0x100 + (w + 2) * 0x10000 + (w + 3) * 0x1000000)
    else none
  | .bank => if off = 0x100 then some (if i < 0x20 then 0x20000 else 0) else none
  | _ => none

/-- The value of the word at `off` of page `p` right after PORESET_N release, before the fuses are read. A field the
manual gives no reset value reads 0 here: reserved bits are free when read, `Access.lean`. -/
def regReset (strap p off : Nat) : Word :=
  match pageKind p with
  | none => 0
  | some (k, i) =>
    if off = 0x000 then BitVec.ofNat 32 (k.typeCode * 0x1000000 + i * 0x1000 + 0x320)
    else if off = 0x004 then BitVec.ofNat 32 k.cap
    else if off = 0x008 then (if k.enableReset then 1 else 0)
    else match resetSpecial strap k i off with
      | some v => BitVec.ofNat 32 v
      | none => BitVec.ofNat 32 ((wordRows k off).foldl (fun a r => a + (r.rst.getD 0) * 2 ^ r.lo) 0)

end Sys2Proof.Machine
end

