-- ==== Sys2Proof/Machine/Ops.lean ====
section
/-!
DEFINITION. The named operations over the state: sparse maps, the segments, registers, fields, counters, the fabric
time base, bank arrays, and the units' keys.
-/
namespace Sys2Proof.Machine

/-! ### Sparse maps -/

/-- The value at `k`: the first pair's, or `d`, what an unlisted key reads as. -/
def SMap.get {α : Type} (d : α) : List (Nat × α) → Nat → α
  | [], _ => d
  | (k', v) :: m, k => if k' = k then v else SMap.get d m k

/-- `m` without the key `k`. -/
def SMap.del {α : Type} (m : List (Nat × α)) (k : Nat) : List (Nat × α) := m.filter (fun e => e.1 != k)

/-- `(k, v)` put before the first greater key. -/
def SMap.ins {α : Type} (k : Nat) (v : α) : List (Nat × α) → List (Nat × α)
  | [] => [(k, v)]
  | (k', v') :: m => if k < k' then (k, v) :: (k', v') :: m else (k', v') :: SMap.ins k v m

/-- `m` with `v` at `k`; a value equal to what an unlisted key reads as removes the entry. -/
def SMap.put {α : Type} [DecidableEq α] (d : α) (m : List (Nat × α)) (k : Nat) (v : α) : List (Nat × α) :=
  if v = d then SMap.del m k else SMap.ins k v (SMap.del m k)

/-- The canonical form: keys strictly rising, no entry equal to what an unlisted key reads as. -/
def SMap.wf {α : Type} [DecidableEq α] (d : Nat → α) : List (Nat × α) → Bool
  | [] => true
  | [(k, v)] => decide (v ≠ d k)
  | (k, v) :: (k', v') :: m => decide (v ≠ d k) && decide (k < k') && SMap.wf d ((k', v') :: m)

/-- Every value mapped by `f`, entries equal to `d` dropped. -/
def SMap.mapNorm {α : Type} [DecidableEq α] (d : α) (f : Nat → α → α) : List (Nat × α) → List (Nat × α)
  | [] => []
  | (k, v) :: m => if f k v = d then SMap.del (SMap.mapNorm d f m) k else (k, f k v) :: SMap.mapNorm d f m

/-! ### Segments -/

/-- Segment `g`. -/
def State.seg (s : State) : Fin 4 → Seg
  | 0 => s.s0 | 1 => s.s1 | 2 => s.s2 | 3 => s.s3

/-- The state with segment `g` replaced. -/
def State.setSeg (s : State) (g : Fin 4) (t : Seg) : State :=
  match g with
  | 0 => { s with s0 := t } | 1 => { s with s1 := t } | 2 => { s with s2 := t } | 3 => { s with s3 := t }

/-! ### Registers and fields -/

/-- The word at byte offset `off` of page `p`, as the block holds it. -/
def Seg.word (s : Seg) (p off : Nat) : Word := SMap.get (regReset s.strap p off) s.regs (1024 * p + off / 4)

/-- The word at `off` of page `p` replaced. -/
def Seg.setWord (s : Seg) (p off : Nat) (w : Word) : Seg :=
  { s with regs := SMap.put (regReset s.strap p off) s.regs (1024 * p + off / 4) w }

/-- A field's width in bits. -/
def Field.width (f : Field) : Nat := f.hi - f.lo + 1

/-- A field of a word. -/
def Field.get (f : Field) (w : Word) : Nat := w.toNat / 2 ^ f.lo % 2 ^ f.width

/-- A word with a field replaced by the low bits of `v`. -/
def Field.set (f : Field) (w : Word) (v : Nat) : Word :=
  BitVec.ofNat 32 (w.toNat - f.get w * 2 ^ f.lo + v % 2 ^ f.width * 2 ^ f.lo)

/-- Field `f` of page `p`. -/
def Seg.rd (s : Seg) (p : Nat) (f : Field) : Nat := f.get (s.word p f.off)

/-- Field `f` of page `p` set to `v`. -/
def Seg.wr (s : Seg) (p : Nat) (f : Field) (v : Nat) : Seg := s.setWord p f.off (f.set (s.word p f.off) v)

/-- A one-bit field as a Boolean. -/
def Seg.flag (s : Seg) (p : Nat) (f : Field) : Bool := s.rd p f != 0

/-- Bit `i` of the word at `off` of page `p`. -/
def Seg.bit (s : Seg) (p off i : Nat) : Bool := (s.word p off).toNat / 2 ^ i % 2 == 1

/-- Bit `i` of the word at `off` of page `p` set or cleared. -/
def Seg.setBit (s : Seg) (p off i : Nat) (b : Bool) : Seg := s.wr p ⟨off, i, i⟩ (b2n b)

/-- A 64-bit register: the word at `off` low, the next high. -/
def Seg.word64 (s : Seg) (p off : Nat) : BitVec 64 := s.word p (off + 4) ++ s.word p off

/-- A 64-bit register replaced. -/
def Seg.setWord64 (s : Seg) (p off : Nat) (v : BitVec 64) : Seg :=
  (s.setWord p off (v.truncate 32)).setWord p (off + 4) ((v >>> 32).truncate 32)

/-! ### Pages by unit (R26) -/

/-- Page numbers. -/
def pgSeg : Nat := 0
def pgColl : Nat := 1
def pgPwr : Nat := 2
def pgClk : Nat := 3
def pgKiln : Nat := 4
def pgTen : Nat := 5
def pgFlow : Nat := 6
def pgBr (b : Nat) : Nat := 0x10 + b
def pgBay (n : Nat) : Nat := 0x20 + n
def pgRt (t : Nat) : Nat := 0x100 + t
def pgNi (n : Nat) : Nat := 0x200 + n
def pgBank (b : Nat) : Nat := 0x400 + b

/-! ### Geometry (R3, R183) -/

def tileX (t : Nat) : Nat := t % 12
def tileY (t : Nat) : Nat := t / 12
def tileOf (x y : Nat) : Nat := y * 12 + x

/-- The tile of bank `b` (R183). -/
def bankTile (b : Nat) : Nat := tileOf (2 * (b % 6) + b / 6 % 2) (b / 6)

/-- The bank of tile `t`, on tiles with x + y even (R3). -/
def tileBank (t : Nat) : Option Nat :=
  if (tileX t + tileY t) % 2 = 0 then some (tileY t * 6 + tileX t / 2) else none

/-- The four attachment tiles of the segment controller on MGT, in the order of R196. -/
def attachTiles : List Nat := [tileOf 5 5, tileOf 6 6, tileOf 1 9, tileOf 10 10]

/-- The quadrant of a tile (R98). -/
def quadOf (t : Nat) : Nat := (if tileX t < 6 then 0 else 1) + (if tileY t < 6 then 0 else 2)

/-- The tile that holds a local ID: a site, a bank, or the attachment tile `att` of the segment controller (R183). -/
def localTile (att : Nat) (l : Nat) : Nat :=
  if l < 0x120 then l / 2 else if 0x200 ≤ l ∧ l < 0x248 then bankTile (l - 0x200) else att

/-- Whether a local ID names a site, a bank, the segment controller or the collector (R126, R183). -/
def localOk (l : Nat) : Bool := l < 0x120 || (0x200 ≤ l && l < 0x248) || l == 0x3F0 || l == 0x3F1

/-- A local ID with the delivery machinery of R132: a site or a bank (R3, R183). -/
def epOk (l : Nat) : Bool := l < 0x120 || (0x200 ≤ l && l < 0x248)

/-- Segment and local ID of an EID (R3). -/
def eidSeg (e : BitVec 12) : Nat := e.toNat / 1024
def eidLocal (e : BitVec 12) : Nat := e.toNat % 1024
def mkEid (seg loc : Nat) : BitVec 12 := BitVec.ofNat 12 (seg * 1024 + loc)

/-- The event source of a unit (R414): router, bank, NI. -/
def srcRt (t : Nat) : Nat := 0x40 + t
def srcBank (b : Nat) : Nat := 0x100 + b
def srcNi (n : Nat) : Nat := 0x200 + n

/-- Whether a local source number exists (R414). -/
def srcOk (l : Nat) : Bool :=
  l < 0x12 || (0x18 ≤ l && l < 0x20) || (0x40 ≤ l && l < 0xD0) || (0x100 ≤ l && l < 0x148) || (0x200 ≤ l && l < 0x320)

/-- The tile of an event source that lies in one (R414). -/
def srcTile (l : Nat) : Option Nat :=
  if 0x40 ≤ l ∧ l < 0xD0 then some (l - 0x40)
  else if 0x100 ≤ l ∧ l < 0x148 then some (bankTile (l - 0x100))
  else if 0x200 ≤ l ∧ l < 0x320 then some ((l - 0x200) / 2) else none

/-- Whether a router has the port: on the mesh, or where R7 places a bundle, or K on a bank tile, or K on MGT at an
attachment tile, whose MGT K port is the controller's (R8, R183, R319). -/
def portOk (t : Nat) (pl : Plane) (p : Port) : Bool :=
  match p with
  | .n => tileY t < 11
  | .s => 0 < tileY t
  | .e | .w | .l0 | .l1 => true
  | .k => (tileBank t).isSome || (pl == .mgt && attachTiles.contains t)

/-- Whether the port is a bridge port: E on the east column, W on the west column (R6, R7). -/
def portBridge (t : Nat) (p : Port) : Option Nat :=
  match p with
  | .e => if tileX t = 11 then some 0 else none
  | .w => if tileX t = 0 then some 1 else none
  | _ => none

/-- The neighbouring tile through a port that faces one. -/
def neighbour (t : Nat) (p : Port) : Option Nat :=
  match p with
  | .n => if tileY t < 11 then some (t + 12) else none
  | .s => if 0 < tileY t then some (t - 12) else none
  | .e => if tileX t < 11 then some (t + 1) else none
  | .w => if 0 < tileX t then some (t - 1) else none
  | _ => none

/-- The port at the other end of a link. -/
def Port.facing : Port → Port
  | .n => .s | .s => .n | .e => .w | .w => .e | p => p

/-! ### Keys of the sparse maps -/

/-- Key of (tile, plane, port). -/
def kPort (t pl p : Nat) : Nat := (t * 4 + pl) * 8 + p

/-- Key of (tile, plane, port, VC). -/
def kVc (t pl p vc : Nat) : Nat := kPort t pl p * 8 + vc

/-- Key of slot entry `i` of a table (tile, physical bank, plane, output), R233. -/
def kSlot (t bk pl o i : Nat) : Nat := (((t * 2 + bk) * 2 + pl) * 8 + o) * 512 + i

/-- Key of descriptor `r` of a table, R252. -/
def kDesc (t bk pl o r : Nat) : Nat := (((t * 2 + bk) * 2 + pl) * 8 + o) * 64 + r

/-- Key of bundle slot entry `i` (bridge, physical bank, bundle), R391. -/
def kBslot (br bk b i : Nat) : Nat := ((br * 2 + bk) * 24 + b) * 512 + i

/-- Key of an endpoint's send or receive state: peer EID and plane. -/
def kPeer (e : BitVec 12) (pl : Nat) : Nat := e.toNat * 4 + pl

/-! ### Units of the state -/

def Seg.ni (s : Seg) (n : Nat) : Ni := SMap.get {} s.nis n
def Seg.setNi (s : Seg) (n : Nat) (x : Ni) : Seg := { s with nis := SMap.put {} s.nis n x }
def Seg.modNi (s : Seg) (n : Nat) (f : Ni → Ni) : Seg := s.setNi n (f (s.ni n))
def Seg.ep (s : Seg) (l : Nat) : Ep := SMap.get {} s.eps l
def Seg.setEp (s : Seg) (l : Nat) (x : Ep) : Seg := { s with eps := SMap.put {} s.eps l x }
def Seg.modEp (s : Seg) (l : Nat) (f : Ep → Ep) : Seg := s.setEp l (f (s.ep l))
def Seg.bank (s : Seg) (b : Nat) : Bank := SMap.get {} s.banks b
def Seg.setBank (s : Seg) (b : Nat) (x : Bank) : Seg := { s with banks := SMap.put {} s.banks b x }
def Seg.modBank (s : Seg) (b : Nat) (f : Bank → Bank) : Seg := s.setBank b (f (s.bank b))
def Seg.src (s : Seg) (l : Nat) : Src := SMap.get {} s.srcs l
def Seg.setSrc (s : Seg) (l : Nat) (x : Src) : Seg := { s with srcs := SMap.put {} s.srcs l x }
def Seg.modSrc (s : Seg) (l : Nat) (f : Src → Src) : Seg := s.setSrc l (f (s.src l))
def Seg.cfgOf (s : Seg) (l : Nat) : Word := SMap.get (srcCfgReset l) s.srcCfg l
def Seg.setCfgOf (s : Seg) (l : Nat) (w : Word) : Seg := { s with srcCfg := SMap.put (srcCfgReset l) s.srcCfg l w }
def Seg.pulse (s : Seg) (l : Nat) : Pulse := SMap.get {} s.pulses l
def Seg.setPulse (s : Seg) (l : Nat) (x : Pulse) : Seg := { s with pulses := SMap.put {} s.pulses l x }
def Seg.br (s : Seg) (b : Nat) : Bridge := SMap.get {} s.brs b
def Seg.setBr (s : Seg) (b : Nat) (x : Bridge) : Seg := { s with brs := SMap.put {} s.brs b x }
def Seg.bun (s : Seg) (b n : Nat) : Bundle := SMap.get {} (s.br b).bundles n
def Seg.setBun (s : Seg) (b n : Nat) (x : Bundle) : Seg :=
  s.setBr b { s.br b with bundles := SMap.put {} (s.br b).bundles n x }
def Seg.modBun (s : Seg) (b n : Nat) (f : Bundle → Bundle) : Seg := s.setBun b n (f (s.bun b n))
def Seg.bay (s : Seg) (n : Nat) : Bay := SMap.get {} s.bays n
def Seg.setBay (s : Seg) (n : Nat) (x : Bay) : Seg := { s with bays := SMap.put {} s.bays n x }
def Seg.modBay (s : Seg) (n : Nat) (f : Bay → Bay) : Seg := s.setBay n (f (s.bay n))
def Seg.out (s : Seg) (t pl o : Nat) : OutArb := SMap.get {} s.outs (kPort t pl o)
def Seg.setOut (s : Seg) (t pl o : Nat) (x : OutArb) : Seg := { s with outs := SMap.put {} s.outs (kPort t pl o) x }
def Ep.sendOf (e : Ep) (d : BitVec 12) (pl : Nat) : Send := SMap.get {} e.send (kPeer d pl)
def Ep.setSend (e : Ep) (d : BitVec 12) (pl : Nat) (x : Send) : Ep :=
  { e with send := SMap.put {} e.send (kPeer d pl) x }
def Ep.recvOf (e : Ep) (d : BitVec 12) (pl : Nat) : Recv := SMap.get {} e.recv (kPeer d pl)
def Ep.setRecv (e : Ep) (d : BitVec 12) (pl : Nat) (x : Recv) : Ep :=
  { e with recv := SMap.put {} e.recv (kPeer d pl) x }
def Seg.modCtl (s : Seg) (f : Ctl → Ctl) : Seg := { s with ctl := f s.ctl }
def Seg.modPins (s : Seg) (f : Pins → Pins) : Seg := { s with pins := f s.pins }
def Seg.setMp (s : Seg) (m : Mp) : Seg := { s with mp := m }

/-- A free value taken: the counter moves on. -/
def Seg.tick1 (s : Seg) : Seg := { s with free := s.free + 1 }

/-! ### Power and clock states -/

/-- ST_TILE of tile `t` (R474): 0 ACTIVE, 1 IDLE, 2 DROWSY, 3 RETAIN, 4 OFF, 5 entering, 6 waking. -/
def Seg.stTile (s : Seg) (t : Nat) : Nat := s.rd pgPwr ⟨0x200 + 4 * (t / 8), 4 * (t % 8) + 3, 4 * (t % 8)⟩
def Seg.setStTile (s : Seg) (t v : Nat) : Seg := s.wr pgPwr ⟨0x200 + 4 * (t / 8), 4 * (t % 8) + 3, 4 * (t % 8)⟩ v

/-- ST_BANK of bank `b`, coded as ST_TILE. -/
def Seg.stBank (s : Seg) (b : Nat) : Nat := s.rd pgPwr ⟨0x250 + 4 * (b / 8), 4 * (b % 8) + 3, 4 * (b % 8)⟩
def Seg.setStBank (s : Seg) (b v : Nat) : Seg := s.wr pgPwr ⟨0x250 + 4 * (b / 8), 4 * (b % 8) + 3, 4 * (b % 8)⟩ v

/-- PWR_TGT of a tile and of a bank (R452); 3 acts as 2. -/
def Seg.tgtTile (s : Seg) (t : Nat) : Nat := min 2 (s.rd pgPwr ⟨0x120 + 4 * (t / 16), 2 * (t % 16) + 1, 2 * (t % 16)⟩)
def Seg.tgtBank (s : Seg) (b : Nat) : Nat := min 2 (s.rd pgPwr ⟨0x160 + 4 * (b / 16), 2 * (b % 16) + 1, 2 * (b % 16)⟩)

/-- CLK_TILE of tile `t` (R373). -/
def clkTile (f : Field) (t : Nat) : Field := f.at t

/-- Whether either reset of the segment is asserted (R84, R88, R96). -/
def Seg.inReset (s : Seg) : Bool := !(s.pins.poresetN && s.pins.segResetN)

/-! ### Time (R53, R369, R371, R372, R534) -/

/-- Whether the master FTB counts. -/
def Seg.ftbRuns (s : Seg) : Bool := s.flag pgClk Reg.CLK.CLK_STAT_FTB_RUN

/-- `now` of R423: the master FTB, or the bisque count before it counts. -/
def Seg.now (s : Seg) : BitVec 64 := if s.ftbRuns then s.ftb else s.bisque

/-- The stamp of sherd entries and EVTs (R431, R434, R534): bit 63 tells a bisque count. -/
def Seg.stamp (s : Seg) : BitVec 64 :=
  if s.ftbRuns then s.ftb else (s.bisque &&& 0x7FFFFFFFFFFFFFFF) ||| 0x8000000000000000

/-- A number of units of 4,096 slot ticks in the collector's current time unit (R534: 683 cycles each in bisque). -/
def Seg.units4096 (s : Seg) (n : Nat) : Nat := if s.ftbRuns then n * 4096 else n * 683

/-- The FTB copy of tile `t` (R371). -/
def Seg.tftb (s : Seg) (t : Nat) : BitVec 64 := SMap.get 0 s.tileFtb t
def Seg.setTftb (s : Seg) (t : Nat) (v : BitVec 64) : Seg := { s with tileFtb := SMap.put 0 s.tileFtb t v }

/-- Age units of a time: FTB[19:4] (R224). -/
def ageOf (v : BitVec 64) : BitVec 16 := (v >>> 4).truncate 16

/-! ### Bank arrays (R314) -/

/-- One byte of bank `b`; an unlisted byte reads 0, as a bank that was OFF comes back zeroed (R461). -/
def Seg.bByte (s : Seg) (b a : Nat) : Byte := SMap.get 0 s.bmem (b * 0x20000 + a)
def Seg.setBByte (s : Seg) (b a : Nat) (v : Byte) : Seg := { s with bmem := SMap.put 0 s.bmem (b * 0x20000 + a) v }

/-- The canonical form of the bytes the banks hold. -/
abbrev Memory.wf (m : List Host.Cell) : Bool := SMap.wf (fun _ => 0) m

/-- `n` bytes from `a`, the lowest address in the least significant byte (R48 numbers bytes little-endian). -/
def Seg.bBytes (s : Seg) (b a : Nat) : Nat → Nat
  | 0 => 0
  | n + 1 => (s.bByte b a).toNat + 256 * Seg.bBytes s b (a + 1) n

/-- `n` bytes of `v` stored from `a` up. -/
def Seg.setBBytes (s : Seg) (b a v : Nat) : Nat → Seg
  | 0 => s
  | n + 1 => Seg.setBBytes (s.setBByte b a (BitVec.ofNat 8 v)) b (a + 1) (v / 256) n

/-- Whether the 8-byte word `w` of bank `b` carries the poison mark (R325). -/
def Seg.marked (s : Seg) (b w : Nat) : Bool := SMap.get false s.marks (b * 0x4000 + w)
def Seg.setMark (s : Seg) (b w : Nat) (v : Bool) : Seg := { s with marks := SMap.put false s.marks (b * 0x4000 + w) v }

/-- Every byte of bank `b` 0 with a valid code, no mark left (R326 step 4). -/
def Seg.zeroBank (s : Seg) (b : Nat) : Seg :=
  { s with bmem := s.bmem.filter (fun e => e.1 / 0x20000 != b), marks := s.marks.filter (fun e => e.1 / 0x4000 != b) }

/-! ### Outcomes -/

/-- A command's effect on one segment. -/
def State.modSeg (s : State) (g : Fin 4) (f : Seg → Seg) : State := s.setSeg g (f (s.seg g))

/-- Time passes by one unit in a segment that is not in reset: a slot tick of the master FTB, or before it counts one
cycle of the management clock in the bisque count (R53, R371, R534). -/
def Seg.advance (s : Seg) : Seg :=
  if s.inReset then s else if s.ftbRuns then { s with ftb := s.ftb + 1 } else { s with bisque := s.bisque + 1 }

/-- Time passes in every segment. -/
def State.advance (s : State) : State :=
  { s with s0 := s.s0.advance, s1 := s.s1.advance, s2 := s.s2.advance, s3 := s.s3.advance }

/-- Keep a list's length within `n`, the oldest out first. -/
def lastN {α : Type} (n : Nat) (l : List α) : List α := l.drop (l.length - n)

/-- Apply `f` to each of a list in turn. -/
def Seg.each {α : Type} (s : Seg) (l : List α) (f : Seg → α → Seg) : Seg := l.foldl f s

/-- Apply `f` where `b` holds. -/
def Seg.when (s : Seg) (b : Bool) (f : Seg → Seg) : Seg := if b then f s else s

end Sys2Proof.Machine
end

