-- ==== Sys2Proof/Machine/Flags.lean ====
section
/-!
DEFINITION. Every flag computation: pulses, page events, page flags, configuration-class events and counters
(R31–R33, R49–R52, R362–R364, R415, R416).
-/
namespace Sys2Proof.Machine

/-- The event source of a page's event bit (R32, R475): PWR bits 16 and 17 report at 0x004; the collector's bits are
never reported (R448). -/
def pageSource (p b : Nat) : Option Nat :=
  match pageKind p with
  | some (.seg, _) | some (.flowwin, _) => some 0x005
  | some (.coll, _) => none
  | some (.pwr, _) => some (if b = 16 ∨ b = 17 then 0x004 else 0x001)
  | some (.clk, _) => some 0x002
  | some (.kiln, _) => some 0x003
  | some (.ten, _) => some 0x006
  | some (.br, i) => some (0x010 + i)
  | some (.bay, i) => some (0x018 + i)
  | some (.router, i) => some (srcRt i)
  | some (.bank, i) => some (srcBank i)
  | some (.ni, i) => some (srcNi i)
  | none => none

/-- The cause code of a page's event bit (R416). -/
def pageCause (p b : Nat) : Byte := BitVec.ofNat 8 (if p = pgFlow then 0x20 + b else b)

/-- Whether the sender's side of a source's crossing is in reset, so that a pulse is not recorded (R363). -/
def Seg.senderDown (s : Seg) (src : Nat) : Bool :=
  s.inReset || (match srcTile src with | some t => s.stTile t == 4 | none => false)

/-- The counter at `off` of page `p` in view `v` (R49). -/
def Seg.cnt (s : Seg) (p v off : Nat) : Nat := SMap.get 0 s.cnts (4096 * (1024 * p + v) + off)
def Seg.setCnt (s : Seg) (p v off n : Nat) : Seg :=
  { s with cnts := SMap.put 0 s.cnts (4096 * (1024 * p + v) + off) n }

/-- The syndrome at source 0x002 that names a tile: its index and its quadrant (R421). -/
def tileSynd (t : Nat) : Word := BitVec.ofNat 32 (t + 256 * quadOf t)

mutual
/-- A pulse with its record reaches a crossing (R363): in flight, into the slot, or lost, with OVERRUN, LOST,
CNT_PULSE_LOST, the tile's CLK_OVR bit and CLK PAGE_EVT.UNIT[9]. One that reaches a halted collector is a wake source
(R469). `fuel` bounds the events a loss itself raises: a bit
that is already set raises nothing more. -/
def Seg.pulseN (fuel : Nat) (s : Seg) (src : Nat) (e : EvRec) : Seg :=
  match fuel with
  | 0 => s
  | fuel + 1 =>
    if s.senderDown src || !srcOk src || (8 ≤ src && src < 0x10) then s
    else
      let c := s.pulse src
      if c.phase = 0 then
        let s := s.setPulse src { c with phase := 1, flight := some e }
        if s.ctl.halted then Seg.countN fuel s pgPwr 0 0x848 1 else s
      else if c.slot = none then s.setPulse src { c with slot := some e }
      else
        let s := s.setPulse src { c with lost := min 15 (c.lost + 1) }
        let s := Seg.countN fuel s pgClk 0 0x820 1
        let s := match srcTile src with
          | some t => s.setBit pgClk (0x380 + 4 * (t / 32)) (t % 32) true
          | none => s
        Seg.evtN fuel s pgClk 9 (match srcTile src with | some t => tileSynd t | none => 0) false

/-- PAGE_EVT bit `b` of page `p` is to be 1: a fresh rise while unmasked raises one event (R31, R32). -/
def Seg.evtN (fuel : Nat) (s : Seg) (p b : Nat) (synd : Word) (inj : Bool) : Seg :=
  match fuel with
  | 0 => s
  | fuel + 1 =>
    if s.bit p 0x010 b then s
    else
      let s := s.setBit p 0x010 b true
      if s.bit p 0x014 b then s
      else match pageSource p b with
        | some src => Seg.pulseN fuel s src ⟨pageCause p b, synd, inj⟩
        | none => s

/-- A counter counts `n` (R51): it stops at all ones; reaching it sets PAGE_FLAGS.CNT_SAT, and PAGE_EVT.CNT_SAT if the
flag was 0. -/
def Seg.countN (fuel : Nat) (s : Seg) (p v off n : Nat) : Seg :=
  match fuel with
  | 0 => s
  | fuel + 1 =>
    let old := s.cnt p v off
    let new := satAdd count48Max old n
    let s := s.setCnt p v off new
    if old < count48Max ∧ new = count48Max then
      if s.flag p Reg.PAGE.PAGE_FLAGS_CNT_SAT then s
      else Seg.evtN fuel (s.wr p Reg.PAGE.PAGE_FLAGS_CNT_SAT 1) p 0 0 false
    else s
end

/-- The depth to which an event can raise further events: each further one is a fresh rise of another CLK bit. -/
def evtDepth : Nat := 12

/-- A pulse of source `src` (R363). -/
def Seg.raise (s : Seg) (src : Nat) (cause : Byte) (synd : Word) (inj : Bool := false) : Seg :=
  Seg.pulseN evtDepth s src ⟨cause, synd, inj⟩

/-- PAGE_EVT bit `b` of page `p` rises (R31). -/
def Seg.evt (s : Seg) (p b : Nat) (synd : Word := 0) (inj : Bool := false) : Seg := Seg.evtN evtDepth s p b synd inj

/-- The counter at `off` of page `p`, view `v`, counts `n` (R51). -/
def Seg.countV (s : Seg) (p v off n : Nat) : Seg := Seg.countN evtDepth s p v off n

/-- The counter at `off` of page `p` counts one. -/
def Seg.count (s : Seg) (p off : Nat) : Seg := s.countV p 0 off 1

/-- The counter at `off` of page `p` counts `n`. -/
def Seg.countBy (s : Seg) (p off n : Nat) : Seg := s.countV p 0 off n

/-- A counter that holds a largest value (R242 LONGEST). -/
def Seg.countMax (s : Seg) (p v off n : Nat) : Seg :=
  let old := s.cnt p v off
  if old < n then s.countV p v off (n - old) else s

/-- A counter of page `p` reached saturation (R51): PAGE_FLAGS.CNT_SAT, and PAGE_EVT.CNT_SAT if the flag was 0. -/
def Seg.saturated (s : Seg) (p : Nat) : Seg :=
  if s.flag p Reg.PAGE.PAGE_FLAGS_CNT_SAT then s else (s.wr p Reg.PAGE.PAGE_FLAGS_CNT_SAT 1).evt p 0

/-- A configuration-class event of page `p` (R33): PAGE_EVT.CFG and SEG.CNT_CFG_EVT. -/
def Seg.cfgEvent (s : Seg) (p : Nat) : Seg := (s.evt p 1).count pgSeg 0x800

/-- A write ignored with LOCK_HIT (R33, R36). -/
def Seg.lockHit (s : Seg) (p : Nat) : Seg :=
  ((s.wr p Reg.PAGE.PAGE_FLAGS_LOCK_HIT 1).count pgSeg 0x808).cfgEvent p

/-- A failed guarded pair (R33, R42, R43). -/
def Seg.guardFail (s : Seg) (p : Nat) : Seg :=
  ((s.wr p Reg.PAGE.PAGE_FLAGS_GUARD_FAIL 1).count pgSeg 0x810).cfgEvent p

/-- An access of illegal width or alignment (R33, R36). -/
def Seg.badWidth (s : Seg) (p : Nat) : Seg := (s.wr p Reg.PAGE.PAGE_FLAGS_BAD_WIDTH 1).cfgEvent p

/-- A write that would change an RW field of an enabled page (R33, R35). -/
def Seg.cfgIgnored (s : Seg) (p : Nat) : Seg := (s.wr p Reg.PAGE.PAGE_FLAGS_CFG_IGNORED 1).cfgEvent p

/-! ### Levels computed from the registers -/

/-- The segment is in SOAK (R442). -/
def Seg.soak (s : Seg) : Bool := s.flag pgSeg Reg.SEG.SEG_STAT_SOAK

/-- Factory test mode is active (R511). -/
def Seg.factory (s : Seg) : Bool := s.flag pgSeg Reg.SEG.SEG_STAT_FACTORY

/-- The clock switch is complete (R496). -/
def Seg.switched (s : Seg) : Bool := s.flag pgClk Reg.CLK.CLK_STAT_SWITCHED

/-- The word at `off` of page `p` disagrees with its stored complement (R430). -/
def Seg.mismatched (s : Seg) (p off : Nat) : Bool := SMap.get (0 : Word) s.flips (1024 * p + off / 4) != 0

/-- The complement of a word agrees with it again, as after a rewrite (R430). -/
def Seg.heal (s : Seg) (p off : Nat) : Seg := { s with flips := SMap.put 0 s.flips (1024 * p + off / 4) 0 }

/-- EXPERT_EN as it acts: 0 while SEG_CTRL mismatches, and from a mismatch of SEG_LOCK on (R58, R430). -/
def Seg.expertEn (s : Seg) : Bool :=
  s.flag pgSeg Reg.SEG.SEG_CTRL_EXPERT_EN && !s.mismatched pgSeg 0x110 && !s.ctl.lockForced

/-- MODE as it acts: in service while SEG_CTRL mismatches (R430). -/
def Seg.mode (s : Seg) : Nat := if s.mismatched pgSeg 0x110 then 0 else s.rd pgSeg Reg.SEG.SEG_CTRL_MODE

/-- SEG_LOCK as it acts: both locks are set from a mismatch on, until segment reset (R430). -/
def Seg.lockWord (s : Seg) : Word := s.word pgSeg 0x118 ||| (if s.ctl.lockForced then 3 else 0)
def Seg.lockedExpert (s : Seg) : Bool := s.lockWord.getLsbD 1
def Seg.lockedOwners (s : Seg) : Bool := s.lockWord.getLsbD 0

/-- PAGE_STAT.ENABLED of page `p`: ENABLE, or the level still held while it drains (R28, R37). -/
def Seg.enabled (s : Seg) (p : Nat) : Bool :=
  s.flag p Reg.PAGE.PAGE_CTRL_ENABLE || s.flag p Reg.PAGE.PAGE_STAT_ENABLED

/-- FLOWWIN enabled as it acts on traffic (R276). -/
def Seg.flowOn (s : Seg) : Bool := s.flag pgFlow Reg.PAGE.PAGE_CTRL_ENABLE

/-- The bank FE_MAP names for slice `n` (R274, R307). -/
def Seg.feBank (s : Seg) (n : Nat) : Nat := s.rd pgFlow ⟨0x140 + 4 * (n / 4), 8 * (n % 4) + 6, 8 * (n % 4)⟩

/-- FE_MAP names bank `b`. -/
def Seg.feNamed (s : Seg) (b : Nat) : Bool := (List.range 32).any (fun n => s.feBank n == b)

/-- R300: a bank FE_MAP names, while FLOWWIN.PAGE_STAT.ENABLED is 1, does not go below IDLE. -/
def Seg.feHeld (s : Seg) (b : Nat) : Bool := s.enabled pgFlow && s.feNamed b

/-- A tile's index is that of a C1 tile (R268), as C1_STAT shows it. -/
def Seg.c1Tile (s : Seg) (t : Nat) : Bool := s.flag (pgRt t) Reg.ROUTER.C1_STAT_C1_TILE

/-- The unit's page shows SAGGARED. -/
def Seg.saggared (s : Seg) (p : Nat) : Bool := s.flag p Reg.PAGE.PAGE_STAT_SAGGARED

/-- Some source is severe (R445). -/
def Seg.anySevere (s : Seg) : Bool := s.flag pgColl Reg.COLL.COLL_STAT_ANY_SEVERE

end Sys2Proof.Machine
end

