-- ==== Sys2Proof/Machine/Operands.lean ====
section
/-!
DEFINITION. The operand forms: parity, packet headers and descriptors, flits, flow contexts, management addresses,
fence maps, the routing function, and the two checksums (R19, R48, R69, R108–R114, R117, R183–R198, R250, R277,
R278, R384, R499).
-/
namespace Sys2Proof.Machine

/-! ### Parity (R69) -/

/-- The number of ones among the low `n` bits of `v`. -/
def ones : Nat → Nat → Nat
  | 0, _ => 0
  | n + 1, v => v % 2 + ones n (v / 2)

/-- The parity bit of 64 bits: it makes the 65 bits hold an even number of ones. -/
def parity64 (v : Nat) : Nat := ones 64 v % 2

/-- PAR over `k` groups of 64 bits (R66, R69). -/
def parityBits : Nat → Nat → Nat
  | 0, _ => 0
  | k + 1, v => parity64 (v % 2 ^ 64) + 2 * parityBits k (v / 2 ^ 64)

/-- Every 64-bit group of `v` agrees with its bit of `par`: `k` groups. -/
def parityOk : Nat → Nat → Nat → Bool
  | 0, _, _ => true
  | k + 1, v, par => parity64 (v % 2 ^ 64) == par % 2 && parityOk k (v / 2 ^ 64) (par / 2)

/-! ### Transaction types and codes (R107, R115) -/

def tRead : BitVec 4 := 0x0
def tWrite : BitVec 4 := 0x1
def tPosted : BitVec 4 := 0x2
def tMsg : BitVec 4 := 0x3
def tAdd : BitVec 4 := 0x4
def tSwap : BitVec 4 := 0x5
def tLdres : BitVec 4 := 0x6
def tStcond : BitVec 4 := 0x7
def tFence : BitVec 4 := 0x8
def tTunnel : BitVec 4 := 0x9
def tSnoop : BitVec 4 := 0xA
def tBackInval : BitVec 4 := 0xB
def tEvt : BitVec 4 := 0xC
def tCpl : BitVec 4 := 0xD
def tSnpRsp : BitVec 4 := 0xE
def tRegacc : BitVec 4 := 0xF

def cOk : BitVec 3 := 0
def cDecerr : BitVec 3 := 1
def cDenied : BitVec 3 := 2
def cPoison : BitVec 3 := 3
def cStfail : BitVec 3 := 4
def cRetrylost : BitVec 3 := 5

/-- Posted types: no response from the endpoint (R107). -/
def isPosted (t : BitVec 4) : Bool := t == tPosted || t == tMsg || t == tTunnel

/-- Loads and stores of R152. -/
def isLoad (t : BitVec 4) : Bool := t == tRead || t == tLdres || t == tAdd || t == tSwap
def isStore (t : BitVec 4) : Bool :=
  t == tWrite || t == tPosted || t == tMsg || t == tTunnel || t == tStcond || t == tAdd || t == tSwap

/-- The types that carry LEN bytes of payload from the requester (R107). -/
def carriesData (t : BitVec 4) : Bool :=
  t == tWrite || t == tPosted || t == tMsg || t == tTunnel || t == tAdd || t == tSwap || t == tStcond || t == tCpl
    || t == tSnpRsp

/-- Data flits of a payload of `p` bytes on a data plane (R109): none up to 96 B, else `ceil(p ÷ 128)`. -/
def dataFlits (p : Nat) : Nat := if p ≤ 96 then 0 else ceilDiv p 128

/-- WD beats a request or CPL takes on RQ (R109, R119): a TUNNEL always 2. -/
def wdBeats (t : BitVec 4) (len : Nat) : Nat :=
  if t == tTunnel then 2 else if carriesData t then dataFlits len else 0

/-- The flit count of a packet under R109. -/
def flitCount (t : BitVec 4) (len : Nat) : Nat := 1 + wdBeats t len

/-- The cost of a request in flits (R279): its packet, and for a load of R107 its response's data flits. -/
def costOf (t : BitVec 4) (len : Nat) : Nat :=
  flitCount t len + (if t == tRead || t == tLdres then dataFlits len else 0)

/-- Response slots of 128 B a request reserves (R208). -/
def rspSlots (t : BitVec 4) (len : Nat) : Nat := if t == tRead then dataFlits len else 0

/-- The bytes a request touches stay within one 512 B block, and an atomic is aligned (R108). -/
def requestRuleOk (h : Hdr) : Bool :=
  let a := h.addr.toNat
  let l := h.len.toNat
  let span := l == 0 || a / 512 == (a + l - 1) / 512
  let size := if h.at64 then 8 else 4
  span && (!(h.type == tAdd || h.type == tSwap) || a % size == 0)

/-! ### The packet header (R110, R117) -/

/-- Field `[lo + w - 1 : lo]` of a number. -/
def slice (v lo w : Nat) : Nat := v / 2 ^ lo % 2 ^ w

/-- The header a 256-bit descriptor or header spells. -/
def Hdr.ofBits (b : BitVec 256) : Hdr where
  dest := b.extractLsb' 0 12
  src := b.extractLsb' 12 12
  type := b.extractLsb' 24 4
  cls := b.extractLsb' 28 3
  reissue := b.getLsbD 31
  seq := b.extractLsb' 32 16
  epoch := b.extractLsb' 48 4
  path := b.getLsbD 52
  retry := b.getLsbD 53
  relaxed := b.getLsbD 54
  poison := b.getLsbD 55
  adapt := b.getLsbD 56
  yellow := b.getLsbD 57
  viaTwin := b.getLsbD 58
  at64 := b.getLsbD 59
  code := b.extractLsb' 60 3
  ack := b.getLsbD 63
  len := b.extractLsb' 64 10
  tag := b.extractLsb' 74 12
  sync := b.getLsbD 86
  age := b.extractLsb' 88 16
  fid := b.extractLsb' 104 20
  addr := b.extractLsb' 128 64
  aux := b.extractLsb' 192 16
  destGz := b.extractLsb' 216 12
  clsGz := b.extractLsb' 228 3
  typeGz := b.extractLsb' 232 4
  epochGz := b.extractLsb' 236 4
  seqGz := b.extractLsb' 240 16

/-- The 256 bits of a header (R110), the last field named lowest. -/
def Hdr.toBits (h : Hdr) : BitVec 256 :=
  h.seqGz ++ h.epochGz ++ h.typeGz ++ (0#1 ++ h.clsGz) ++ h.destGz ++ 0#8 ++ h.aux ++ h.addr ++ (0#4 ++ h.fid) ++ h.age
    ++ (0#1 ++ BitVec.ofBool h.sync) ++ h.tag ++ h.len ++ BitVec.ofBool h.ack ++ h.code ++ BitVec.ofBool h.at64
    ++ BitVec.ofBool h.viaTwin ++ BitVec.ofBool h.yellow ++ BitVec.ofBool h.adapt ++ BitVec.ofBool h.poison
    ++ BitVec.ofBool h.relaxed ++ BitVec.ofBool h.retry ++ BitVec.ofBool h.path ++ h.epoch ++ h.seq
    ++ BitVec.ofBool h.reissue ++ h.cls ++ h.type ++ h.src ++ h.dest

/-- The header with its five complements set (R110). -/
def Hdr.glaze (h : Hdr) : Hdr :=
  { h with destGz := ~~~h.dest, clsGz := ~~~h.cls, typeGz := ~~~h.type, epochGz := ~~~h.epoch, seqGz := ~~~h.seq }

/-- DEST, CLASS and EPOCH agree with their complements: a router's check (R111). -/
def Hdr.routerOk (h : Hdr) : Bool := h.destGz == ~~~h.dest && h.clsGz == ~~~h.cls && h.epochGz == ~~~h.epoch

/-- All five glazed fields agree: an endpoint's check (R111, R535). -/
def Hdr.glazeOk (h : Hdr) : Bool := h.routerOk && h.typeGz == ~~~h.type && h.seqGz == ~~~h.seq

/-- The descriptor part of a header: what the agent supplies (R117); the NI overwrites every other field. -/
def Hdr.agentPart (h : Hdr) : Hdr :=
  { dest := h.dest, type := h.type, reissue := h.reissue, relaxed := h.relaxed, poison := h.poison,
    yellow := h.yellow, at64 := h.at64, code := h.code, len := h.len, tag := h.tag, addr := h.addr }

/-- The MGT header's 64 bits (R114). -/
def MgtHdr.toBits (h : MgtHdr) : BitVec 64 :=
  h.typeGz ++ h.destGz ++ BitVec.ofBool h.fab ++ BitVec.ofBool h.poison ++ h.len ++ h.code ++ h.tag ++ h.epoch ++ h.type
    ++ h.src ++ h.dest

/-- The MGT header 64 bits spell (R114); the domain stands beside it. -/
def MgtHdr.ofBits (b : BitVec 64) (dom : BitVec 6) : MgtHdr where
  dest := b.extractLsb' 0 12
  src := b.extractLsb' 12 12
  type := b.extractLsb' 24 4
  epoch := b.extractLsb' 28 4
  tag := b.extractLsb' 32 8
  code := b.extractLsb' 40 3
  len := b.extractLsb' 43 3
  poison := b.getLsbD 46
  fab := b.getLsbD 47
  destGz := b.extractLsb' 48 12
  typeGz := b.extractLsb' 60 4
  dom := dom

def MgtHdr.glaze (h : MgtHdr) : MgtHdr := { h with destGz := ~~~h.dest, typeGz := ~~~h.type }
def MgtHdr.glazeOk (h : MgtHdr) : Bool := h.destGz == ~~~h.dest && h.typeGz == ~~~h.type

/-! ### Packets and flits (R109, R113) -/

/-- Which C1 copy a header heads: it tells the copies in a VC3 buffer apart (R223). -/
def Hdr.copyId (h : Hdr) : Nat :=
  1 + h.seq.toNat + 2 ^ 16 * (b2n h.path + 2 * b2n h.retry + 4 * h.src.toNat + 2 ^ 14 * h.dest.toNat)

/-- The flits of a packet on virtual channel `vc`. -/
def Packet.flits (p : Packet) (vc : Nat) : List Flit :=
  let n := p.data.length
  let id := if vc = 3 then p.hdr.copyId else 0
  { body := .head p.hdr p.imm, vc := vc, tail := n == 0, trunc := p.trunc && n == 0, poison := p.hdr.poison, id := id }
    :: p.data.zipIdx.map (fun (d, i) =>
        { body := .data d.bits, vc := vc, tail := i + 1 == n, idx := i + 1, poison := d.poison,
          trunc := p.trunc && i + 1 == n, id := id })

/-- The flits of an MGT packet (R114). -/
def mgtFlits (h : MgtHdr) (pay : List (BitVec 64)) (vc : Nat) : List Flit :=
  let n := pay.length
  { body := .mgtHead h, vc := vc, tail := n == 0 }
    :: pay.zipIdx.map (fun (w, i) => { body := .mgtData w, vc := vc, tail := i + 1 == n, idx := i + 1 })

/-- The control bits of a flit (R113): the data planes' and SNP's 16, or the MGT plane's 8, with even parity over the
others; `la` is the lookahead output at the next router, 7 none. A flit with `upset` 3 travels with a wrong CPAR. -/
def Flit.control (f : Flit) (mgt : Bool) (la : Nat) : Nat :=
  let head := match f.body with | .head _ _ | .mgtHead _ => true | _ => false
  let low := f.vc % 8 + 8 * b2n head + 16 * b2n f.tail
  let bits := if mgt then low else low + f.idx % 8 * 2 ^ 5 + la % 8 * 2 ^ 8 + b2n f.poison * 2 ^ 11 + b2n f.trunc * 2 ^ 12
  bits + (ones 16 bits + b2n (f.upset == 3)) % 2 * 2 ^ (if mgt then 7 else 15)

/-- The data flits among a list of flits. -/
def dataOf (fs : List Flit) : List DataFlit :=
  fs.filterMap (fun f => match f.body with | .data b => some ⟨b, f.poison || f.upset == 2⟩ | _ => none)

/-- The words among a list of MGT flits. -/
def wordsOf (fs : List Flit) : List (BitVec 64) :=
  fs.filterMap (fun f => match f.body with | .mgtData b => some b | _ => none)

/-- The packet a header flit and its followers make up, when they end with a tail. -/
def packetOf (pl : Plane) (fs : List Flit) : Option Packet :=
  match fs with
  | { body := .head h imm, poison := p, upset := u, .. } :: rest =>
    some { plane := pl, hdr := { h with poison := h.poison || p }, imm := imm, data := dataOf rest,
           trunc := fs.any (·.trunc), hdrErr := u == 2 || fs.any (·.upset == 3), inj := fs.any (·.inj) }
  | _ => none

/-- The payload of a packet as a number of `len` bytes, byte 0 least significant: the immediate area, or the data
flits (R109). -/
def payload (p : Packet) : Nat :=
  if p.data = [] then p.imm.toNat
  else p.data.foldr (fun d a => d.bits.toNat + 2 ^ 1024 * a) 0

/-- A payload of `len` bytes as an immediate area and data flits (R109); bytes beyond it are 0. -/
def payloadImm (len v : Nat) : BitVec 768 := if len ≤ 96 then BitVec.ofNat 768 (v % 2 ^ (8 * len)) else 0
def payloadData (len v : Nat) (poison : Bool) : List DataFlit :=
  (List.range (dataFlits len)).map (fun i => ⟨BitVec.ofNat 1024 (v % 2 ^ (8 * len) / 2 ^ (1024 * i)), poison⟩)

/-- What routing reads of a header flit, data-plane or MGT. -/
structure RHdr where
  dest : BitVec 12
  src : BitVec 12
  type : BitVec 4
  epoch : BitVec 4
  c1 : Bool
  path : Bool
  cls : Nat
  age : BitVec 16
  fid : BitVec 20
  adapt : Bool
  fab : Bool
  deriving DecidableEq, Repr

/-- The routing view of a flit, if it is a header flit. -/
def Flit.rhdr (f : Flit) : Option RHdr :=
  match f.body with
  | .head h _ => some ⟨h.dest, h.src, h.type, h.epoch, h.cls == 1, h.path, h.cls.toNat, h.age, h.fid, h.adapt, false⟩
  | .mgtHead h => some ⟨h.dest, h.src, h.type, h.epoch, false, false, 0, 0, 0, false, h.fab⟩
  | _ => none

/-- SNPRSP and the SNP acknowledgements, which escape on VC2 and ride VC5 (R188). -/
def snpResponse (pl : Plane) (h : RHdr) : Bool := pl == .snp && h.type != tSnoop && h.type != tBackInval

/-- The escape VC of a packet (R188, R190). -/
def escVc (pl : Plane) (h : RHdr) : Nat := if snpResponse pl h then 2 else 0

/-- VC depths at a router's input (R10). -/
def vcDepth (pl : Plane) (vc : Nat) : Nat :=
  match pl, vc with
  | .req, 0 | .rsp, 0 => 3
  | .req, 1 | .rsp, 1 | .req, 2 | .rsp, 2 => 6
  | .req, 3 | .rsp, 3 => 5
  | .snp, 0 => 2
  | .snp, 1 | .snp, 2 => 4
  | .mgt, 0 => 2
  | _, 4 | _, 5 => 2
  | _, _ => 0

/-! ### Flow contexts (R277, R278) -/

/-- A rate code in 2^-16 flit per age unit: M × 2^E. -/
def rateOf (c : Nat) : Nat := c % 128 * 2 ^ (c / 128 % 16)

/-- A size code in flits: 0, or (8 + M) × 2^E. -/
def sizeOf' (c : Nat) : Nat := if c = 0 then 0 else (8 + c % 8) * 2 ^ (c / 8 % 8)

/-- Fields of word 1 of a context, by their bits in the 128-bit context. -/
def cfgField (cfg : BitVec 64) (lo w : Nat) : Nat := slice cfg.toNat (lo - 64) w
def cfgCir (c : BitVec 64) : Nat := cfgField c 64 11
def cfgPir (c : BitVec 64) : Nat := cfgField c 75 11
def cfgSlope (c : BitVec 64) : Nat := cfgField c 86 11
def cfgCbs (c : BitVec 64) : Nat := cfgField c 97 6
def cfgPbs (c : BitVec 64) : Nat := cfgField c 103 6
def cfgHi (c : BitVec 64) : Nat := cfgField c 109 6
/-- SHAPE: 0 none, 1 credit, 2 wheel; 3 acts as 0. -/
def cfgShape (c : BitVec 64) : Nat := let v := cfgField c 115 2; if v = 3 then 0 else v
/-- METER: 0 off, 1 blind, 2 aware; 3 acts as 0. -/
def cfgMeter (c : BitVec 64) : Nat := let v := cfgField c 117 2; if v = 3 then 0 else v
def cfgRedDrop (c : BitVec 64) : Bool := cfgField c 119 1 == 1
def cfgResetTo (c : BitVec 64) : Bool := cfgField c 120 1 == 1
/-- The yellow class: 5, 6, 7. -/
def cfgYclass (c : BitVec 64) : Nat := min 7 (5 + cfgField c 121 2)
def cfgOtag (c : BitVec 64) : Nat := cfgField c 123 2
def cfgWithOtag (c : BitVec 64) (o : Nat) : BitVec 64 :=
  BitVec.ofNat 64 (c.toNat - cfgOtag c * 2 ^ 59 + o % 4 * 2 ^ 59)

/-- The context in bank precision (R294): TC, TP and CREDIT truncated toward minus infinity to 3 fraction bits, QCOUNT
saturated at 31. -/
def Way.toBank (w : Way) (q : Nat) : BitVec 128 :=
  let cr := (w.credit / 8192) % 32768
  w.cfg ++ BitVec.ofNat 64 (w.last.toNat + w.tc / 8192 % 2 ^ 14 * 2 ^ 16 + w.tp / 8192 % 2 ^ 14 * 2 ^ 30
    + cr.toNat * 2 ^ 44 + min 31 q * 2 ^ 59)

/-- A fetched context widened, zero-filled (R286, R295). -/
def Way.ofBank (idx : BitVec 18) (c : BitVec 128) : Way :=
  let v := c.toNat
  let cr := slice v 44 15
  { idx := idx, last := BitVec.ofNat 16 v, tc := slice v 16 14 * 8192, tp := slice v 30 14 * 8192,
    credit := (if cr < 16384 then (cr : Int) else (cr : Int) - 32768) * 8192, cfg := BitVec.ofNat 64 (v / 2 ^ 64) }

/-! ### Management addresses (R19, R48) -/

/-- The fields of a management address. -/
def addrSeg (a : Word) : Nat := slice a.toNat 30 2
def addrMbz (a : Word) : Nat := slice a.toNat 26 4
def addrPage (a : Word) : Nat := slice a.toNat 12 14
def addrOff (a : Word) : Nat := slice a.toNat 0 12

/-- The address of an offset of a page of a segment. -/
def mgmtAddr (seg page off : Nat) : Word := BitVec.ofNat 32 (seg * 2 ^ 30 + page * 2 ^ 12 + off)

/-- The 64-bit registers of R48 and R53: SEG.FTB, SEG.CFG_DIGEST, SIG, GOLD, SEED, SIG_GZ. -/
def reg64 (k : Kind) (off : Nat) : Bool :=
  (k == .seg && (off == 0x130 || off == 0x148)) ||
  (k == .kiln && (off == 0x110 || off == 0x118 || off == 0x400 || off == 0xE00))

/-- Whether the page has a counter pair at the 8-byte-aligned offset (R60, R61, R151, R182, R216, R246, R310, R313,
R345, R376, R413, R449, R476, R494, R516). A router's arbitration area is counters at every offset of 0x800–0xBFF
(R246: any other offset reads 0). -/
def counterAt (k : Kind) (i off : Nat) : Bool :=
  off % 8 == 0 && 0x800 ≤ off &&
  match k with
  | .seg => off ≤ 0x828
  | .ten => off < 0x810 + 8 * 64
  | .coll => off ≤ 0x858
  | .pwr => off ≤ 0x8A0
  | .clk => off ≤ 0x838
  | .kiln => off ≤ 0x838
  | .flowwin => off ≤ 0x828
  | .bay => off ≤ 0x848
  | .bank => off ≤ 0x8B8
  | .br => off < 0x860 && off ≤ 0x858 || (0x860 ≤ off && off ≤ 0x8E8) || (i == 0 && off ≤ 0x908) || off ≤ 0x908
  | .ni => off ≤ 0x8B0 || (0xA00 ≤ off && off ≤ 0xA68) || (0xB00 ≤ off && off ≤ 0xB80)
  | .router => off < 0xC00 || (0xC00 ≤ off && off < 0xD00) || (0xD00 ≤ off && off ≤ 0xD18)

/-- An access of size code `size` at `off` has a legal width and alignment (R48). -/
def widthOk (k : Kind) (i : Nat) (wr : Bool) (size off : Nat) : Bool :=
  if size = 0 then !wr
  else if size = 1 then !wr && off % 2 == 0
  else if size = 2 then off % 4 == 0
  else counterAt k i off || reg64 k off

/-! ### Fence regions (R193–R196, R199) -/

/-- R193. -/
def separated (a b : Rect) : Bool :=
  a.x1 + 2 ≤ b.x0 || b.x1 + 2 ≤ a.x0 || a.y1 + 2 ≤ b.y0 || b.y1 + 2 ≤ a.y0

def boundingBox (a b : Rect) : Rect := ⟨min a.x0 b.x0, max a.x1 b.x1, min a.y0 b.y0, max a.y1 b.y1⟩

/-- One rectangle put among rectangles, merged with each it is not separated from; `fuel` bounds the merges. -/
def growOne : Nat → Rect → List Rect → List Rect
  | 0, r, rs => r :: rs
  | fuel + 1, r, rs =>
    match rs.find? (fun q => !separated r q) with
    | none => r :: rs
    | some q => growOne fuel (boundingBox r q) (rs.erase q)

/-- The fence regions grown from a set of tiles (R194); the order of the merges does not matter. -/
def growRegions (tiles : List Nat) : List Rect :=
  tiles.foldl (fun rs t => growOne tiles.length ⟨tileX t, tileX t, tileY t, tileY t⟩ rs) []

def Rect.has (r : Rect) (x y : Nat) : Bool := r.x0 ≤ x && x ≤ r.x1 && r.y0 ≤ y && y ≤ r.y1

/-- The region spans the segment (R195). -/
def Rect.splits (r : Rect) : Bool := (r.x0 == 0 && r.x1 == 11) || (r.y0 == 0 && r.y1 == 11)

/-- Tile (x, y) lies in a region of the map. -/
def FenceMap.has (m : FenceMap) (x y : Nat) : Bool := m.rects.any (·.has x y)
def FenceMap.tile (m : FenceMap) (t : Nat) : Bool := m.has (tileX t) (tileY t)

/-- The first attachment tile in the order of R196 that lies in no region, if any. -/
def attachOf (rects : List Rect) : Option Nat :=
  attachTiles.find? (fun t => !rects.any (·.has (tileX t) (tileY t)))

/-- Row and column summaries of R199 (12-bit masks). -/
def rowSummary (m : FenceMap) (y : Nat) : Nat := (List.range 12).foldl (fun a x => a + b2n (m.has x y) * 2 ^ x) 0
def colSummary (m : FenceMap) (x : Nat) : Nat := (List.range 12).foldl (fun a y => a + b2n (m.has x y) * 2 ^ y) 0

/-- Summaries packed 12 bits each from `i` on, lowest first. -/
def packSummaries (f : Nat → Nat) (i n : Nat) : Nat := (List.range n).foldl (fun a k => a + f (i + k) * 2 ^ (12 * k)) 0

/-- The seven payload flits of the fence-map broadcast (R202). -/
def mapPayload (m : FenceMap) (epoch : BitVec 4) : List (BitVec 64) :=
  let row := rowSummary m
  let col := colSummary m
  [ BitVec.ofNat 64 (epoch.toNat + m.susp.toNat * 2 ^ 4 + m.ringVer.toNat * 2 ^ 8 + packSummaries row 0 4 * 2 ^ 16),
    BitVec.ofNat 64 (packSummaries row 4 5),
    BitVec.ofNat 64 (packSummaries row 9 3 + packSummaries col 0 2 * 2 ^ 36),
    BitVec.ofNat 64 (packSummaries col 2 5),
    BitVec.ofNat 64 (packSummaries col 7 5),
    BitVec.ofNat 64 m.rows0.toNat,
    BitVec.ofNat 64 m.rows1.toNat ]

/-- The four payload flits of the ring notice (R203). -/
def ringPayload (r : Ring) (epoch : BitVec 4) : List (BitVec 64) :=
  [ BitVec.ofNat 64 (epoch.toNat + r.closed.toNat * 2 ^ 4 + r.joined.toNat * 2 ^ 8 + r.anchor.val * 2 ^ 12
      + b2n r.anchorValid * 2 ^ 14),
    r.full.extractLsb' 0 64, r.full.extractLsb' 64 64, r.full.extractLsb' 128 64 ]

/-- The two reads of a broadcast's flits from a landing FIFO, each entry how often one flit's reads disagreed (R361): the
disagreements up to the flit that fails, if one does, and whether one has. -/
def readTwice : List (Fin 4) → Nat × Bool
  | [] => (0, false)
  | n :: rest => if n.val = 3 then (3, true) else ((readTwice rest).1 + n.val, (readTwice rest).2)

/-- The fence regions of another segment, as the ring state gives them (R201). -/
def Ring.regionMap (r : Ring) (g : Nat) : FenceMap := { rects := (r.regions.filter (fun q => q.1 == g)).map (·.2) }

/-! ### The ring of segments (R184–R186, R250, R403) -/

/-- The segments of a ring state in ascending number. -/
def Ring.members (r : Ring) : List Nat := (List.range 4).filter (fun i => r.joined.getLsbD i)

/-- The pair leaving BR0 of segment `p` is closed (R403). -/
def Ring.pairClosed (r : Ring) (p : Nat) : Bool := r.closed.getLsbD p

/-- The joined segments met going clockwise from `a` (after it) up to and with `b`. -/
def cwPath (r : Ring) (a b : Nat) : List Nat :=
  let ms := r.members
  let n := ms.length
  let pa := ms.idxOf a
  let pb := ms.idxOf b
  (List.range ((pb + n - pa) % n)).map (fun i => ms.getD ((pa + i + 1) % n) 0)

/-- The pairs crossed going clockwise from `a` to `b`, each named by the segment whose BR0 it leaves. -/
def cwPairs (r : Ring) (a b : Nat) : List Nat := (a :: cwPath r a b).dropLast

/-- The pairs crossed going anticlockwise from `a` to `b`. -/
def ccwPairs (r : Ring) (a b : Nat) : List Nat := cwPairs r b a

/-- The joined segments met leaving `a` by bridge `d`, up to and with `b`. -/
def pathOf (r : Ring) (a b d : Nat) : List Nat :=
  if d = 0 then cwPath r a b else (cwPath r b a).reverse.drop 1 ++ [b]

/-- The bridge R184 picks from segment `a` to segment `b` on a whole ring: 0 for BR0, 1 for BR1. -/
def ringPick (r : Ring) (a b : Nat) : Nat :=
  let n := r.members.length
  let d := (cwPath r a b).length
  if n = 4 then (if d = 1 then 0 else if d = 3 then 1 else if a < 2 then 0 else 1)
  else if n = 3 then (if d = 1 then 0 else 1) else 0

/-- The bridge R184 picks from segment `a` to segment `b` along open pairs (R403), none where neither direction is open. -/
def bridgeOf (r : Ring) (a b : Nat) : Option Nat :=
  let cw := (cwPairs r a b).all (fun p => !r.pairClosed p)
  let cc := (ccwPairs r a b).all (fun p => !r.pairClosed p)
  let pick := ringPick r a b
  if cw && cc then some pick else if cw then some 0 else if cc then some 1 else none

/-- Both segments are joined and one can reach the other (R126, R403); a segment always reaches itself. -/
def reaches (r : Ring) (a b : Nat) : Bool :=
  a == b || (r.joined.getLsbD a && r.joined.getLsbD b && (bridgeOf r a b).isSome)

/-- Bit `y` of segment `g`'s 12-bit row mask. -/
def rowBit (m : BitVec 48) (g y : Nat) : Bool := m.getLsbD (12 * g + y)

/-- A row is usable for a crossing of pair `p` (BR0 of `p`, BR1 of the next joined segment `q`), R185. -/
def rowUsable (r : Ring) (rows0 rows1 : BitVec 48) (pairs : List Nat) (y : Nat) : Bool :=
  pairs.all (fun p =>
    let ms := r.members
    let q := ms.getD ((ms.idxOf p + 1) % ms.length) 0
    rowBit rows0 p y && rowBit rows1 q y)

/-- The nearest usable row to `y`, a tie to the lower (R185); `y` itself where no row is usable. -/
def nearestRow (ok : Nat → Bool) (y : Nat) : Nat :=
  let cand := (List.range 12).flatMap (fun d => [y - d, y + d])
  match cand.find? (fun r => r < 12 && ok r) with
  | some r => r
  | none => y

/-- The row of the tile that holds an EID's endpoint; row 5 for the controller and the collector (R185). -/
def eidRow (e : BitVec 12) : Nat :=
  let l := eidLocal e
  if l = 0x3F0 ∨ l = 0x3F1 then 5 else tileY (localTile 65 l)

/-- The direction a packet takes out of segment `a`: R184, or for a C1 copy R250. A copy keeps its direction through every
segment and whatever pairs close: one that meets a closed pair is blocked, not turned round (R263, R403). -/
def bridgeFor (r : Ring) (h : RHdr) (a : Nat) : Option Nat :=
  let b := eidSeg h.dest
  if h.c1 then
    let d := ringPick r (eidSeg h.src) b
    if r.joined.getLsbD b && r.joined.getLsbD a then some (if h.path then 1 - d else d) else none
  else bridgeOf r a b

/-- The pairs a C1 copy has still to cross from segment `a` (R263). -/
def pairsAhead (r : Ring) (h : RHdr) (a : Nat) : List Nat :=
  let b := eidSeg h.dest
  if a = b then []
  else match bridgeFor r h a with
    | some 0 => cwPairs r a b
    | some _ => ccwPairs r a b
    | none => []

/-- The bridge row (R185), or for a C1 copy the row of R250: the source row for PATH 0, the target row for PATH 1. -/
def bridgeRow (r : Ring) (rows0 rows1 : BitVec 48) (h : RHdr) (br : Nat) : Nat :=
  if h.c1 then (if h.path then eidRow h.dest else eidRow h.src)
  else
    let a := eidSeg h.src
    let b := eidSeg h.dest
    let pairs := if br = 0 then cwPairs r a b else ccwPairs r a b
    nearestRow (rowUsable r rows0 rows1 pairs) (eidRow h.src)

/-! ### The routing function (R183, R190, R197, R198) -/

/-- Dimension order: in x first when `xFirst`. `none` at the target. -/
def dimOrder (cx cy tx ty : Nat) (xFirst : Bool) : Option Port :=
  let inX := if cx < tx then some .e else if tx < cx then some .w else none
  let inY := if cy < ty then some .n else if ty < cy then some .s else none
  if xFirst then inX.or inY else inY.or inX

/-- The tile one hop away, none off the mesh. -/
def stepXY (x y : Nat) (p : Port) : Option (Nat × Nat) :=
  match p with
  | .n => if y < 11 then some (x, y + 1) else none
  | .s => if 0 < y then some (x, y - 1) else none
  | .e => if x < 11 then some (x + 1, y) else none
  | .w => if 0 < x then some (x - 1, y) else none
  | _ => none

/-- view.fenced_nb: the neighbour lies in a region or is off the mesh (R213). -/
def fencedNb (m : FenceMap) (x y : Nat) (p : Port) : Bool :=
  match stepXY x y p with
  | none => true
  | some (a, b) => m.has a b

/-- The ring entry of R197: the walk and its VC. `d` is the blocked direction. -/
def ringEntry (m : FenceMap) (cx cy tx ty : Nat) (d : Port) : Option (RingWalk × Nat) :=
  match stepXY cx cy d with
  | none => none
  | some (a, b) =>
    match m.rects.find? (·.has a b) with
    | none => none
    | some r =>
      let up := (decide (cy ≤ ty) && decide (r.y1 < 11)) || r.y0 == 0
      let (cw, ex, ey, inX) := match d with
        | .e => (up, r.x1 + 1, (if up then r.y1 + 1 else r.y0 - 1), true)
        | .w => (!up, r.x0 - 1, (if up then r.y1 + 1 else r.y0 - 1), true)
        | .n => (decide (¬ r.x1 < 11), tx, r.y1 + 1, false)
        | _ => (decide (r.x1 < 11), tx, r.y0 - 1, false)
      some (⟨r.x0, r.x1, r.y0, r.y1, ex, ey, cw, inX⟩, if cw then 4 else 5)

/-- The next ring tile in the walk's orientation (R198). -/
def ringPort (w : RingWalk) (cx cy : Nat) : Port :=
  if w.cw then
    if cx + 1 = w.x0 ∧ cy ≤ w.y1 then .n else if cy = w.y1 + 1 ∧ cx ≤ w.x1 then .e
    else if cx = w.x1 + 1 ∧ w.y0 ≤ cy then .s else .w
  else
    if cx + 1 = w.x0 ∧ w.y0 ≤ cy then .s else if cy + 1 = w.y0 ∧ cx ≤ w.x1 then .e
    else if cx = w.x1 + 1 ∧ cy ≤ w.y1 then .n else .w

/-- The walk ends here (R197, R198). -/
def ringDone (w : RingWalk) (cx cy tx : Nat) : Bool :=
  (cx == w.ex && cy == w.ey) || (w.inX && cx == tx && (cy == w.y1 + 1 || cy + 1 == w.y0))

/-- What the routing function answers: output port, output VC, the ring walk it is on after it, and whether the header
left the adaptive mode. -/
structure Route where
  out : Port
  vc : Nat
  ring : Option RingWalk := none
  esc : Bool := false
  deriving DecidableEq, Repr

/-- The target tile and the output port there (R183–R186). -/
def target (r : Ring) (m : FenceMap) (g : Nat) (h : RHdr) : Option (Nat × Nat × Port) :=
  if eidSeg h.dest = g then
    let l := eidLocal h.dest
    let t := localTile m.attach l
    some (tileX t, tileY t, if l < 0x120 then (if l % 2 = 0 then .l0 else .l1) else .k)
  else match bridgeFor r h g with
    | none => none
    | some br => some ((if br = 0 then 11 else 0), bridgeRow r m.rows0 m.rows1 h br, if br = 0 then .e else .w)

/-- The guaranteed route of a C1 copy at (cx, cy) (R190, R250). -/
def c1Port (h : RHdr) (g cx cy tx ty : Nat) : Option Port :=
  let st := localTile 65 (eidLocal h.src)
  let sx := tileX st
  let sy := tileY st
  let same := eidSeg h.src = g ∧ eidSeg h.dest = g
  if h.path then
    if same ∧ sy = ty ∧ sx ≠ tx then
      let dr := if ty = 11 then 10 else ty + 1
      if cx = tx then dimOrder cx cy tx ty false
      else if cy = ty then (if dr < cy then some .s else some .n) else dimOrder cx cy tx cy true
    else if same ∧ sx = tx ∧ sy ≠ ty then
      let dc := if tx = 11 then 10 else tx + 1
      if cy = ty then dimOrder cx cy tx ty true
      else if cx = tx then (if dc < cx then some .w else some .e) else dimOrder cx cy cx ty true
    else dimOrder cx cy tx ty false
  else dimOrder cx cy tx ty true

/-- The routing function of R190 for a header on virtual channel `vc` at (cx, cy). `load p v` is the downstream credit of
port `p` and VC `v`; `adaptOk` says the class and router allow the adaptive mode (R187); `esc` and `walk` are the
header's mode. `none`: no exit (R195). -/
def routeOf (r : Ring) (m : FenceMap) (g cx cy : Nat) (pl : Plane) (h : RHdr) (vc : Nat) (esc : Bool)
    (walk : Option RingWalk) (adaptOk : Bool) (load : Port → Nat → Nat) : Option Route :=
  match target r m g h with
  | none => none
  | some (tx, ty, ej) =>
    if cx = tx ∧ cy = ty then
      some ⟨ej, if h.c1 then 3 else if adaptOk && !esc && !snpResponse pl h then 1 else escVc pl h, none, esc⟩
    else if h.c1 ∧ vc = 3 then (c1Port h g cx cy tx ty).map (fun p => ⟨p, 3, none, false⟩)
    else
      let ev := escVc pl h
      let onRing := match walk with | some w => if ringDone w cx cy tx then none else some w | none => none
      match onRing with
      | some w =>
        let p := ringPort w cx cy
        if (stepXY cx cy p).isSome then
          some ⟨p, if pl = .snp then (if snpResponse pl h then 5 else 4) else if w.cw then 4 else 5, some w, true⟩
        else none
      | none =>
        let v := if pl ≠ .snp ∧ tx < cx then 2 else 1
        let inX := if cx < tx then [Port.e] else if tx < cx then [Port.w] else []
        let inY := if cy < ty then [Port.n] else if ty < cy then [Port.s] else []
        let ok := (inX ++ inY).filter (fun p => !fencedNb m cx cy p)
        if adaptOk && !esc && !snpResponse pl h && ok ≠ [] then
          match ok with
          | [a, b] => some ⟨if load a v < load b v then b else a, v, none, false⟩
          | a :: _ => some ⟨a, v, none, false⟩
          | [] => none
        else match dimOrder cx cy tx ty true with
          | none => none
          | some d =>
            if fencedNb m cx cy d then
              (ringEntry m cx cy tx ty d).bind (fun (w, rv) =>
                let p := ringPort w cx cy
                if (stepXY cx cy p).isSome then
                  some ⟨p, if pl = .snp then (if snpResponse pl h then 5 else 4) else rv, some w, true⟩
                else none)
            else some ⟨d, ev, none, true⟩

/-! ### Checksums -/

/-- One bit into a CRC whose register has width `n`, most significant bit first. -/
def crcBit (n poly : Nat) (acc b : Nat) : Nat :=
  let top := acc / 2 ^ (n - 1) % 2
  let sh := acc * 2 % 2 ^ n
  if top != b then Nat.xor sh poly else sh

/-- The bits of a byte, the most significant first. -/
def byteBits (b : Nat) : List Nat := (List.range 8).map (fun i => b / 2 ^ (7 - i) % 2)

/-- A value's low `n` bits reversed. -/
def reverseBits (n v : Nat) : Nat := (List.range n).foldl (fun a i => a + v / 2 ^ i % 2 * 2 ^ (n - 1 - i)) 0

/-- CRC-64 of ECMA-182, initial value 0 (R499). -/
def crc64 (bytes : List Nat) : Nat :=
  (bytes.flatMap byteBits).foldl (fun a b => crcBit 64 0x42F0E1EBA9EA3693 a b) 0

/-- CRC-32C (R384): Castagnoli polynomial, initial value all ones, complemented; bits of a byte least significant first
and the result reflected, as the Castagnoli CRC is used. PRESUMED, log 10. -/
def crc32c (bytes : List Nat) : Nat :=
  let r := (bytes.flatMap (fun b => (byteBits b).reverse)).foldl (fun a b => crcBit 32 0x1EDC6F41 a b) 0xFFFFFFFF
  reverseBits 32 (0xFFFFFFFF - r)

/-- The four bytes of a word, least significant first. -/
def wordBytes (w : Word) : List Nat := (List.range 4).map (fun i => w.toNat / 2 ^ (8 * i) % 256)

end Sys2Proof.Machine
end

