-- ==== Sys2Proof/Machine/Units.lean ====
section
/-!
DEFINITION. Operations shared by the families: a command on one segment, APnnn_UP, tile power, the fence view of the
segment controller, the sherd queue, EVTs, SOAK, the abort of a power entry, and bank zeroing.
-/
namespace Sys2Proof.Machine

/-- What a command answers. -/
abbrev Result := Host.Outcome State Fault Refusal

/-! ### Isolation and fences as the segment controller holds them -/

/-- A run in unit scope tests the unit of local source `l` (R440, R501): of a tile's router its NIs also. -/
def Seg.kilnAt (s : Seg) (l : Nat) : Bool :=
  match s.kiln.run with
  | some (_, false, u, _, _) =>
    u == l || (0x40 ≤ u && u < 0xD0 && 0x200 ≤ l && l < 0x320 && (l - 0x200) / 2 == u - 0x40)
  | _ => false

/-- A kiln run isolates the unit of local source `l` (R440, R503): the unit under test, and in segment scope every router, NI
and bank. -/
def Seg.kilnIsolates (s : Seg) (l : Nat) : Bool :=
  match s.kiln.run with
  | some (_, true, _, _, _) => 0x40 ≤ l
  | _ => s.kilnAt l

/-- The map of an epoch (R199). -/
def Seg.mapOf (s : Seg) (e : BitVec 4) : FenceMap := SMap.get {} s.ctl.maps e.toNat

/-- The current map. -/
def Seg.map (s : Seg) : FenceMap := s.mapOf s.ctl.epoch

/-- The ring state a version names (R402). -/
def Seg.ringOf (s : Seg) (v : BitVec 8) : Ring := SMap.get {} s.ctl.rings v.toNat

/-- Tile `t` lies in a fence region of the current map. -/
def Seg.fenced (s : Seg) (t : Nat) : Bool := s.map.tile t

/-! ### APnnn_UP (R73, R88, R177, R426, R427, R440, R456) -/

/-- The conditions under which APnnn_UP of site `n` may be 1; a reset lets it stay until an open fence's completion has
been taken. -/
def Seg.upAllowed (s : Seg) (n : Nat) (x : Ni) : Bool :=
  x.clk && x.arstN && (!x.resetting || x.rs.any (·.fence)) && s.enabled (pgNi n) && decide (s.stTile (n / 2) ≤ 1)
    && !s.saggared (pgNi n) && !s.saggared (pgRt (n / 2)) && !s.fenced (n / 2) && !s.kilnIsolates (srcNi n)

/-- The NI with UP at 0. -/
def Ni.down (x : Ni) : Ni := { x with up := false }

/-- Levels follow their conditions: each APnnn_UP that may no longer be 1 falls. -/
def Seg.settleUp (s : Seg) : Seg :=
  { s with nis := SMap.mapNorm {} (fun n x => if s.upAllowed n x then x else x.down) s.nis }

/-! ### Flow slices (R274, R299) -/

/-- Slice `n` is not unavailable by R299: its bank is owned by the flow engine, in service and in no fence region of the
map. -/
def Seg.sliceAvail (s : Seg) (n : Nat) : Bool :=
  let b := s.feBank n
  let p := pgBank b
  !s.saggared p && !s.flag p Reg.PAGE.PAGE_STAT_RETENTION_LOST && s.rd p Reg.BANK.BANK_OWN_MODE == 2
    && !s.fenced (bankTile b)

/-- The flow engine can work on slice `n` now: available, and its bank has power. -/
def Seg.sliceUsable (s : Seg) (n : Nat) : Bool := s.sliceAvail n && s.stBank (s.feBank n) != 4

/-- FE_AVAIL. -/
def Seg.feAvail (s : Seg) : Nat := (List.range 32).foldl (fun a n => a + b2n (s.sliceAvail n) * 2 ^ n) 0

/-- FE_AVAIL follows the slices; one that becomes unavailable raises its event (R299, R309). -/
def Seg.noteAvail (s : Seg) : Seg :=
  let old := s.word pgFlow Reg.FLOWWIN.FE_AVAIL.off
  let new := BitVec.ofNat 32 s.feAvail
  if new = old then s
  else
    let s := s.setWord pgFlow Reg.FLOWWIN.FE_AVAIL.off new
    if old &&& ~~~new = 0 then s else s.evt pgFlow 10 (old &&& ~~~new)

/-- What follows from a command at once: FE_AVAIL, then every APnnn_UP. -/
def Seg.settle (s : Seg) : Seg := s.noteAvail.settleUp

/-- A command on segment `g`: nothing happens in a segment that is in reset (R84, R88, R96). -/
def onSeg (s : State) (g : Fin 4) (f : Seg → Seg) : Result :=
  .next (s.modSeg g (fun t => if t.inReset then t else (f t).settle))

/-! ### Tile power and the clock's view of it (R373, R450, R474) -/

/-- Whether tile `t`'s DCO is phase-locked to the slot tick (R352). -/
def Seg.isAligned (s : Seg) (t : Nat) : Bool := SMap.get false s.aligned t
def Seg.setAligned (s : Seg) (t : Nat) (b : Bool) : Seg := { s with aligned := SMap.put false s.aligned t b }

/-- CLK_TILE.STATE of a running tile: frequency-locked, or aligned at a C1 rate. -/
def Seg.runState (s : Seg) (t : Nat) : Nat :=
  if s.c1Tile t && s.isAligned t then (if s.rd pgClk (Reg.CLK.CLK_TILE_CUR.at t) ≥ 48 then 5 else 4) else 1

/-- ST_TILE of tile `t` becomes `v`, and CLK_TILE.STATE shows it; a ramp or an alignment in progress goes on through IDLE.
Below IDLE the DCO is parked, and its phase lock is lost; a tile that wakes keeps LINK_SLEEP until it is ready. -/
def Seg.setTilePower (s : Seg) (t v : Nat) : Seg :=
  let old := s.rd pgClk (Reg.CLK.CLK_TILE_STATE.at t)
  let s := s.setStTile t v
  if v ≤ 1 ∧ (old = 2 ∨ old = 3) then s
  else
    let s := if v ≤ 1 then s else s.setAligned t false
    let st := if v = 0 then s.runState t else if v = 1 then 6 else if v = 2 ∨ v = 3 ∨ v = 6 then 7 else 0
    s.wr pgClk (Reg.CLK.CLK_TILE_STATE.at t) st

/-- A tile's page set back to its reset values, and what the tile held lost (R457, R461, R472): the router's and NIs'
registers, tables and counters. A site that had delivery state lost it as by an NI reset (R536). -/
def Seg.clearTilePages (s : Seg) (t : Nat) : Seg :=
  let mine := fun k : Nat => let p := k / 1024; p == pgRt t || p == pgNi (2 * t) || p == pgNi (2 * t + 1)
  { s with
    regs := s.regs.filter (fun e => !mine e.1)
    flips := s.flips.filter (fun e => !mine e.1)
    cnts := s.cnts.filter (fun e =>
      let p := e.1 / 4096 / 1024; !(p == pgRt t || p == pgNi (2 * t) || p == pgNi (2 * t + 1)))
    slots := s.slots.filter (fun e => e.1 / 512 / 8 / 2 / 2 != t)
    descs := s.descs.filter (fun e => e.1 / 64 / 8 / 2 / 2 != t)
    nis := SMap.mapNorm {} (fun n (x : Ni) => if n / 2 = t then
        { clk := x.clk, arstN := x.arstN, wake := x.wake } else x) s.nis
    eps := SMap.mapNorm {} (fun l (x : Ep) => if l < 0x120 ∧ l / 2 = t then { rxLost := true, txFresh := true } else x) s.eps }

/-! ### Link state of a tile (R366, R367) -/

/-- Every buffer, credit and transfer of tile `t` emptied. -/
def Seg.clearTileLinks (s : Seg) (t : Nat) : Seg :=
  { s with
    landing := s.landing.filter (fun e => e.1 / 32 != t)
    vcbuf := s.vcbuf.filter (fun e => e.1 / 256 != t)
    inFlow := s.inFlow.filter (fun e => e.1 / 256 != t)
    outVc := s.outVc.filter (fun e => e.1 / 256 != t)
    cred := s.cred.filter (fun e => e.1 / 256 != t)
    freed := s.freed.filter (fun e => e.1 / 256 != t)
    seenGray := s.seenGray.filter (fun e => e.1 / 256 != t)
    waits := s.waits.filter (fun e => e.1 / 2048 != t)
    outs := s.outs.filter (fun e => e.1 / 32 != t)
    dropTail := s.dropTail.filter (fun e => e.1 / 256 != t) }

/-! ### Reachability of an endpoint from this segment (R126, R192, R435) -/

/-- The tile of EID `e` is fenced or dormant under the current map; an endpoint of another segment is judged there. -/
def Seg.eidFenced (s : Seg) (e : BitVec 12) : Bool :=
  eidSeg e == s.strap && s.fenced (localTile s.map.attach (eidLocal e))

/-- EID `e` lies in a segment that this one reaches along joined segments and open pairs (R126, R403). -/
def Seg.reachable (s : Seg) (e : BitVec 12) : Bool := reaches s.ctl.ring s.strap (eidSeg e)

/-! ### The sherd queue (R431–R433) -/

/-- A sherd entry written over the oldest. -/
def Seg.sherdWrite (s : Seg) (src : Nat) (cause : Byte) (synd : Word) (reaction : Nat) (severe inj : Bool) : Seg :=
  let i := s.rd pgColl Reg.COLL.SHERD_HEAD_NEXT
  let w := s.rd pgColl Reg.COLL.SHERD_HEAD_WRITES
  let o := 0x200 + 16 * i
  let word3 := s.strap * 1024 + src + cause.toNat * 2 ^ 12 + reaction * 2 ^ 20 + b2n severe * 2 ^ 23
    + b2n inj * 2 ^ 24 + w % 128 * 2 ^ 25
  let s := ((s.setWord64 pgColl o s.stamp).setWord pgColl (o + 8) synd).setWord pgColl (o + 12) (BitVec.ofNat 32 word3)
  let s := s.wr pgColl Reg.COLL.SHERD_HEAD_NEXT (i + 1)
  (s.wr pgColl Reg.COLL.SHERD_HEAD_WRITES (w + 1)).count pgColl 0x848

/-- The index of the sherd entry written last. -/
def Seg.lastSherd (s : Seg) : Nat := (s.rd pgColl Reg.COLL.SHERD_HEAD_NEXT + 31) % 32

/-! ### EVTs (R434, R435) -/

/-- An EVT not sent: counted, latched, and told to every target with its next EVT. -/
def Seg.evtDrop (s : Seg) : Seg :=
  (((s.count pgColl 0x820).setBit pgColl 0x010 11 true).modCtl fun c => { c with dropped := 0xF })

/-- One EVT to the target with EID `e`: `j` names a target of the table. `sherd` is the entry it was written to. An EVT is
delivered by an NI, so that one to an EID that names no site is not sent (R18, R434; DEDUCED, log 51). -/
def Seg.evtTo (s : Seg) (e : BitVec 12) (j : Option Nat) (src : Nat) (cause : Byte) (synd : Word) (reaction : Nat)
    (severe inj : Bool) (sherd : Option Nat) : Seg :=
  if s.eidFenced e || !s.reachable e || decide (0x120 ≤ eidLocal e) || decide (16 ≤ s.ctl.evts.length) then s.evtDrop
  else
    let dr := match j with | some i => s.ctl.dropped.getLsbD i | none => false
    let f0 := s.strap * 1024 + src + cause.toNat * 2 ^ 12 + reaction * 2 ^ 20 + b2n severe * 2 ^ 23 + b2n inj * 2 ^ 24
      + b2n dr * 2 ^ 25 + (match sherd with | some i => i * 2 ^ 26 + 2 ^ 31 | none => 0) + synd.toNat * 2 ^ 32
    let s := s.modCtl fun c =>
      { c with
        evts := c.evts ++ [⟨e, BitVec.ofNat 64 f0, s.stamp⟩]
        dropped := match j with | some i => c.dropped &&& ~~~(BitVec.ofNat 4 (2 ^ i)) | none => c.dropped }
    s.count pgColl 0x818

/-- The valid targets of a mask. -/
def Seg.targets (s : Seg) (mask : Nat) : List Nat :=
  (List.range 4).filter (fun j => mask / 2 ^ j % 2 == 1 && s.flag pgColl (Reg.COLL.TGT_VALID.at j))

/-- EVTs to every valid target of a mask. -/
def Seg.evtAll (s : Seg) (mask : Nat) (src : Nat) (cause : Byte) (synd : Word) (reaction : Nat) (severe inj : Bool)
    (sherd : Option Nat) : Seg :=
  s.each (s.targets mask) fun s j =>
    s.evtTo (BitVec.ofNat 12 (s.rd pgColl (Reg.COLL.TGT_EID.at j))) (some j) src cause synd reaction severe inj sherd

/-! ### The abort of a power entry (R466–R468) -/

/-- An entry in progress, or a TILE_CMD on which its units still vote, aborts: ABORT goes to every voter, whose resumption ends
the phase. `refusal` names the reason and the refuser, where there is one to record. -/
def Seg.abortEntry (s : Seg) (refusal : Option (Nat × Nat)) : Seg :=
  let ph := s.rd pgPwr Reg.PWR.PWR_SEG_STAT_PHASE
  let lvl := if s.ctl.tileCmd.isSome then 0 else s.rd pgPwr Reg.PWR.PWR_SEG_CMD_LEVEL
  let votes := match s.ctl.tileCmd with
    | some c => (c.op == 1 || c.op == 3) && c.stage == 0
    | none => ph != 0 && ph != 4
  if !votes then s
  else
    let s := match refusal with
      | some (r, u) =>
        (((s.wr pgPwr Reg.PWR.PWR_REFUSE_VALID 1).wr pgPwr Reg.PWR.PWR_REFUSE_REASON r).wr pgPwr
          Reg.PWR.PWR_REFUSE_LEVEL lvl).wr pgPwr Reg.PWR.PWR_REFUSE_UNIT u
      | none => s
    let s := (s.count pgPwr 0x820).evt pgPwr 10
      (match refusal with | some (r, u) => BitVec.ofNat 32 (u + r * 2 ^ 12) | none => 0)
    let s := if s.ctl.tileCmd.isSome then
        ((s.wr pgPwr Reg.PWR.TILE_STAT_RESULT 6).wr pgPwr Reg.PWR.TILE_STAT_BUSY 0).wr pgPwr Reg.PAGE.PROGRESS_BUSY 0
      else (s.wr pgPwr Reg.PWR.PWR_SEG_STAT_PHASE 4).wr pgPwr Reg.PWR.PWR_SEG_CMD_LEVEL 0
    s.modCtl fun c => { c with tileCmd := none, votes := [], prepared := [], halt := false }

/-! ### The energy of what moves (R473, R524)

Each figure is the typical one in fJ per payload bit; how they share out over the hops is log 6. -/

/-- Payload bits of a flit of a plane (R109). -/
def planeBits (pl : Nat) : Nat := if pl ≤ 1 then 1024 else if pl = 2 then 256 else 64

/-- A flit that leaves a router: its traversal, bypassed or buffered, 2.0 mm of wire toward a neighbour, and at a site's port the
NI's share. -/
def hopEnergy (pl i : Nat) (p : Port) (bypass wire : Bool) : Nat :=
  planeBits pl * ((if bypass then 70 else 150) + (if wire then 42 else 0) + (if i = 4 ∨ i = 5 then 23 else 0)
    + (if p = .l0 ∨ p = .l1 then 23 else 0))

/-- Energy spent, until the next power step. -/
def Seg.spend (s : Seg) (n : Nat) : Seg := s.modCtl fun c => { c with spent := c.spent + n }

/-! ### Bank zeroing (R326, R339) -/

/-- The reservation table of a bank cleared (R171), and with it its protection queue, of which R171 says nothing (DESIGN
CHOICE, log 95); deferred stores wait for no entry any more. -/
def Bank.clearRes (b : Bank) : Bank := { b with res := [], protQ := [] }

/-- A bank's words written with 0: marks gone, RETENTION_LOST cleared. -/
def Seg.zeroed (s : Seg) (b : Nat) : Seg :=
  let s := (s.zeroBank b).wr (pgBank b) Reg.PAGE.PAGE_STAT_RETENTION_LOST 0
  s.modBank b Bank.clearRes

/-- PROGRESS of a bank (R343): the rows of a zeroing, else of a wake scrub; 0 while neither runs. Of both at once it shows the
zeroing: DESIGN CHOICE, log 123. -/
def Seg.bankProgress (s : Seg) (b : Nat) : Seg :=
  let p := pgBank b
  let x := s.bank b
  let put := fun (busy n of_ : Nat) =>
    ((s.wr p Reg.PAGE.PROGRESS_BUSY busy).wr p Reg.PAGE.PROGRESS_PERCENT (100 * n / of_)).wr p Reg.PAGE.PROGRESS_POSITION n
  if x.zeroing then put 1 x.zeroPos 256
  else match x.wakeRow with
    | some i => put 1 i 2048
    | none => put 0 0 1

/-- Zeroing begins (R326 step 4): the reservation table is cleared first, PROGRESS starts at row 0. -/
def Seg.startZeroing (s : Seg) (b : Nat) (cmd : Bool) : Seg :=
  let s := s.modBank b fun x => { x.clearRes with zeroing := true, zeroCmd := cmd, zeroPos := 0 }
  (s.wr (pgBank b) Reg.BANK.BANK_STAT_ZEROING 1).bankProgress b

/-- A bank's domain is marked retention-lost, or its check failed (R336–R338): cause `cause` and place in RL_INFO where no loss
is recorded, the
reservation table cleared, the event, and an EVT to an EID owner. -/
def Seg.retentionLost (s : Seg) (b cause row off : Nat) : Seg :=
  let p := pgBank b
  if s.flag p Reg.PAGE.PAGE_STAT_RETENTION_LOST then s
  else
    let s := s.wr p Reg.PAGE.PAGE_STAT_RETENTION_LOST 1
    let s := s.when (!s.flag p Reg.BANK.RL_INFO_VALID) fun s =>
      (((s.wr p Reg.BANK.RL_INFO_VALID 1).wr p Reg.BANK.RL_INFO_CAUSE cause).wr p Reg.BANK.RL_INFO_ROW row).wr p
        Reg.BANK.RL_INFO_OFFSET off
    let s := (s.modBank b Bank.clearRes).evt p 8
    if s.rd p Reg.BANK.BANK_OWN_MODE = 1 ∧ s.soak = false then
      s.evtTo (BitVec.ofNat 12 (s.rd p Reg.BANK.BANK_OWN_EID)) none (srcBank b) 8 0 2 false false none
    else s

/-! ### A halted AON controller (R469, R470) -/

/-- A wake source seen while the controller is halted counts at its counter; the regulator's return restarts it. -/
def Seg.aonWake (s : Seg) (off : Nat) : Seg := if s.ctl.halted then s.count pgPwr off else s

/-! ### Page enable (R37) -/

/-- PAGE_CTRL.ENABLE becomes 1. -/
def Seg.pageOn (s : Seg) (p : Nat) : Seg :=
  (s.wr p Reg.PAGE.PAGE_CTRL_ENABLE 1).wr p Reg.PAGE.PAGE_STAT_ENABLED 0

/-- PAGE_CTRL.ENABLE becomes 0: PAGE_STAT.ENABLED holds until the drain is complete. -/
def Seg.pageOff (s : Seg) (p : Nat) : Seg :=
  if s.flag p Reg.PAGE.PAGE_CTRL_ENABLE then
    (s.wr p Reg.PAGE.PAGE_CTRL_ENABLE 0).wr p Reg.PAGE.PAGE_STAT_ENABLED 1
  else s

/-! ### Shared refusals -/

/-- A segment-wide command or TILE_CMD is running (R459, R465). -/
def Seg.powerBusy (s : Seg) : Bool :=
  s.rd pgPwr Reg.PWR.PWR_SEG_STAT_PHASE != 0 || s.flag pgPwr Reg.PWR.TILE_STAT_BUSY

/-- Whether any tile is a C1 tile, the lowest first (R268, R465). -/
def Seg.firstC1 (s : Seg) : Option Nat := (List.range 144).find? (fun t => s.c1Tile t)

end Sys2Proof.Machine
end

