-- ==== Sys2Proof/Machine/Bays.lean ====
section
/-!
DEFINITION. Module bays (R477–R494). A timer's command stands for its expiry.
-/
namespace Sys2Proof.Machine

/-- I2C_SCL and I2C_SDA are released: no bay is connected to the bus (R89). -/
def Seg.i2cReleased (s : Seg) : Bool := s.pins.i2cSel.isNone

/-! ### The states of R478 -/

def bayDisabled : Nat := 0
def bayEmpty : Nat := 1
def bayDebounce : Nat := 2
def bayWait : Nat := 3
def bayPrecharge : Nat := 4
def bayRamp : Nat := 5
def bayIdWait : Nat := 6
def bayReady : Nat := 7
def bayBound : Nat := 8
def bayRetry : Nat := 9
def baySaggared : Nat := 10

/-- STATE of bay `n`. -/
def Seg.bayState (s : Seg) (n : Nat) : Nat := s.rd (pgBay n) Reg.BAY.BAY_STAT_STATE
def Seg.setBayState (s : Seg) (n v : Nat) : Seg := s.wr (pgBay n) Reg.BAY.BAY_STAT_STATE v

/-- The bay has power or is about to: PRECHARGE, RAMP, ID_WAIT, READY, BOUND. -/
def bayPowered (st : Nat) : Bool := 4 ≤ st && st ≤ 8

/-- BAY_CFG mismatches its shadow (R492). -/
def Seg.bayBad (s : Seg) (n : Nat) : Bool := s.mismatched (pgBay n) 0x100

/-- The syndrome of a bay event (R493). -/
def Seg.baySynd (s : Seg) (n code : Nat) : Word :=
  let p := pgBay n
  BitVec.ofNat 32 (s.rd p Reg.BAY.BAY_STAT_STATE + s.rd p Reg.BAY.BAY_STAT_STRIKES * 16
    + s.rd p Reg.BAY.BAY_STAT_PRES * 128 + s.rd p Reg.BAY.BAY_STAT_SAG_CAUSE * 256 + code * 4096)

/-- A bay event. -/
def Seg.bayEvt (s : Seg) (n b : Nat) (code : Nat := 0) : Seg := s.evt (pgBay n) b (s.baySynd n code)

/-! ### The I²C controller (R91, R486) -/

/-- A read of bay `n` starts: its select, ID_REC cleared. -/
def Seg.i2cStart (s : Seg) (n : Nat) : Seg :=
  let s := s.each (List.range 64) fun s k => s.setWord (pgBay n) (0x200 + 4 * k) 0
  let s := s.wr (pgBay n) Reg.BAY.BAY_STAT_ID_VALID 0
  (s.modBay n fun b => { b with idBusy := true, attempts := 0 }).modPins fun p =>
    { p with i2cSel := some n }

/-- The controller is free: the bay that asked first gets it. -/
def Seg.i2cNext (s : Seg) : Seg :=
  if (List.range 8).any (fun n => (s.bay n).idBusy) then s
  else match s.ctl.i2cAsked with
    | n :: rest => (s.modCtl fun c => { c with i2cAsked := rest }).i2cStart n
    | [] => s

/-- Bay `n` asks for a read, unless it has asked already (R486, R488). -/
def Seg.i2cAsk (s : Seg) (n : Nat) : Seg :=
  if s.ctl.i2cAsked.contains n then s else (s.modCtl fun c => { c with i2cAsked := c.i2cAsked ++ [n] }).i2cNext

/-- Bay `n`'s read, if any, is over: the select is released and the next read starts. -/
def Seg.i2cEnd (s : Seg) (n : Nat) : Seg :=
  let s := s.modPins fun p => if p.i2cSel = some n then { p with i2cSel := none } else p
  ((s.modBay n fun b => { b with idBusy := false, attempts := 0 }).modCtl fun c =>
    { c with i2cAsked := c.i2cAsked.filter (· != n) }).i2cNext

/-! ### Binding (R489, R490) -/

/-- The bay leaves BOUND: the NI page of the site it bound is disabled and drains. -/
def Seg.bayUnbind (s : Seg) (n : Nat) : Seg :=
  if s.bayState n = bayBound then
    let site := (s.bay n).site
    let s := if site < 0x120 then s.pageOff (pgNi site) else s
    let s := ((s.wr (pgBay n) Reg.BAY.BAY_STAT_BOUND 0).count (pgBay n) 0x848).bayEvt n 16
    s.setBayState n bayReady
  else s

/-- The RESULT of a BIND: 1 where it may proceed. -/
def Seg.bindCheck (s : Seg) (n : Nat) : Nat :=
  let p := pgBay n
  let site := s.rd p Reg.BAY.BAY_CFG_SITE
  if s.bayState n ≠ bayReady then 2
  else if !s.flag p Reg.BAY.BAY_STAT_ID_VALID then 3
  else if 0x120 ≤ site || s.saggared (pgNi site) || s.stTile (site / 2) == 4 then 4
  else if (List.range 8).any (fun m => m != n && s.bayState m == bayBound && (s.bay m).site == site) then 5
  else 1

/-- BIND: refused with its RESULT, or the site's NI page is enabled and the bay is BOUND. -/
def Seg.bayBindCmd (s : Seg) (n : Nat) : Seg :=
  let p := pgBay n
  if s.bayBad n then s
  else
    let r := s.bindCheck n
    let s := s.wr p Reg.BAY.BAY_RESULT_RESULT r
    if r = 1 then
      let site := s.rd p Reg.BAY.BAY_CFG_SITE
      let s := ((s.modBay n fun b => { b with site := site }).pageOn (pgNi site)).setBayState n bayBound
      ((s.wr p Reg.BAY.BAY_STAT_BOUND 1).count p 0x840).bayEvt n 15
    else s

/-- BAY_CMD: BIND, UNBIND, REREAD (R488, R489). UNBIND outside BOUND and REREAD outside READY and BOUND answer
NOT_READY (DEDUCED, log 11). -/
def Seg.bayCmd (s : Seg) (n op : Nat) : Seg :=
  let p := pgBay n
  if op = 1 then s.bayBindCmd n
  else if op = 2 then
    if s.bayState n = bayBound then (s.bayUnbind n).wr p Reg.BAY.BAY_RESULT_RESULT 1
    else s.wr p Reg.BAY.BAY_RESULT_RESULT 2
  else if op = 3 then
    if s.bayState n = bayReady ∨ s.bayState n = bayBound then (s.i2cAsk n).wr p Reg.BAY.BAY_RESULT_RESULT 1
    else s.wr p Reg.BAY.BAY_RESULT_RESULT 2
  else s

/-! ### Turning power off (R482, R485, R491) -/

/-- Both enables off, the bay unbound, its identity read stopped; then state `next`. -/
def Seg.bayOff (s : Seg) (n next : Nat) : Seg :=
  let s := ((s.wr (pgBay n) Reg.BAY.BAY_STAT_PRE_EN 0).wr (pgBay n) Reg.BAY.BAY_STAT_GATE_EN 0).bayUnbind n
  (s.i2cEnd n).setBayState n next

/-- The bay is saggared with `cause` (R491); by its own decision it raises its event. -/
def Seg.baySaggar (s : Seg) (n cause : Nat) : Seg :=
  let s := (s.bayOff n baySaggared).wr (pgBay n) Reg.PAGE.PAGE_STAT_SAGGARED 1
  let s := s.wr (pgBay n) Reg.BAY.BAY_STAT_SAG_CAUSE cause
  if cause = 5 then s else s.bayEvt n 12

/-- Slot ticks to the ms, or cycles of the bisque count. -/
def Seg.msTicks (s : Seg) : Nat := if s.ftbRuns then 1200000 else 200000

/-- The strikes of bay `n` that are younger than the strike window, of the last 7 (R477, R485). -/
def Seg.strikesNow (s : Seg) (n : Nat) : Nat :=
  let win := max 1 (s.rd (pgBay n) Reg.BAY.BAY_T1_STRIKE_WIN) * 1000 * s.msTicks
  ((s.bay n).strikes.filter fun t => decide ((s.now - t).toNat < win)).length

/-- STRIKES brought up to date. -/
def Seg.noteStrikes (s : Seg) (n : Nat) : Seg := s.wr (pgBay n) Reg.BAY.BAY_STAT_STRIKES (s.strikesNow n)

/-- A strike (R485): stamped, then the retry timer or a saggar. -/
def Seg.bayStrike (s : Seg) (n : Nat) : Seg :=
  let p := pgBay n
  let t := s.now
  let s := (s.modBay n fun b => { b with strikes := lastN 7 (b.strikes ++ [t]) }).noteStrikes n
  let k := s.rd p Reg.BAY.BAY_STAT_STRIKES
  let s := (s.count p 0x818).bayEvt n 11
  if max 1 (s.rd p Reg.BAY.BAY_T1_STRIKES_MAX) ≤ k then s.baySaggar n 3
  else
    let s := (s.bayOff n bayRetry).wr p Reg.BAY.BAY_STAT_TIMER 1
    s.modBay n fun b => { b with retryFrom := t }

/-- RETRY_LEFT, in ms: what is left of RETRY × 100 ms since the timer was started. -/
def Seg.retryLeft (s : Seg) (n : Nat) : Nat :=
  if s.flag (pgBay n) Reg.BAY.BAY_STAT_TIMER then
    max 1 (s.rd (pgBay n) Reg.BAY.BAY_T1_RETRY) * 100
      - (s.now - (s.bay n).retryFrom).toNat / s.msTicks
  else 0

/-- PAGE_CTRL.ENABLE of a bay written (R478, R482). -/
def Seg.bayEnableWrite (s : Seg) (n : Nat) (v : Bool) : Seg :=
  let p := pgBay n
  let st := s.bayState n
  let s := s.wr p Reg.PAGE.PAGE_CTRL_ENABLE (b2n v)
  if v then
    if st = bayDisabled then s.setBayState n (if s.flag p Reg.BAY.BAY_STAT_TIMER then bayRetry else bayEmpty) else s
  else if st = baySaggared ∨ st = bayDisabled then s else s.bayOff n bayDisabled

/-- RESTORE of a bay (R491). -/
def Seg.bayRestore (s : Seg) (n : Nat) : Seg :=
  let p := pgBay n
  let s := ((s.wr p Reg.PAGE.PAGE_STAT_SAGGARED 0).wr p Reg.BAY.BAY_STAT_SAG_CAUSE 0).wr p Reg.BAY.BAY_STAT_PRES 0
  let s := (s.wr p Reg.BAY.BAY_STAT_STRIKES 0).wr p Reg.BAY.BAY_STAT_TIMER 0
  (s.modBay n fun b => { b with strikes := [] }).setBayState n bayEmpty

/-! ### Commands -/

/-- A bay's command on segment `g`: the sequences stand still while the AON controller is halted, and the enables hold their
levels; overcurrent alone acts (R481). -/
def onBay (s : State) (g : Fin 4) (f : Seg → Seg) : Result := onSeg s g fun t => if t.ctl.halted then t else f t


/-- BAY_DEBOUNCE_EXPIRY (R478): a module counts as inserted; in RETRY presence alone changes. -/
def execBayDebounceExpiry (g : Fin 4) (bay : Fin 8) (s : State) : Result :=
  onBay s g fun s =>
    let n := bay.val
    let st := s.bayState n
    if st = bayDebounce ∨ (st = bayRetry ∧ s.flag (pgBay n) Reg.BAY.BAY_STAT_PRES = false) then
      let s := (s.wr (pgBay n) Reg.BAY.BAY_STAT_PRES 1).count (pgBay n) 0x800
      (if st = bayDebounce then s.setBayState n bayWait else s).bayEvt n 8
    else s

/-- BAY_PRESENCE_FALL (R478, R481): it wakes a halted controller, and the sequence then runs. -/
def execBayPresenceFall (g : Fin 4) (bay : Fin 8) (s : State) : Result :=
  onSeg s g fun s =>
    let s := s.aonWake 0x840
    if s.bayState bay = bayEmpty then s.setBayState bay bayDebounce else s

/-- BAY_REMOVAL (R478, R481, R482, R491): a filtered rise of PRES_N, which PRES shows in every state but SAGGARED. Of a
halted controller it is the rise alone, which wakes it; the filter ends once it runs (log 124). -/
def execBayRemoval (g : Fin 4) (bay : Fin 8) (s : State) : Result :=
  onSeg s g fun s =>
    let n := bay.val
    let st := s.bayState n
    if s.ctl.halted then s.aonWake 0x840
    else if st = baySaggared then s
    else
      let was := s.flag (pgBay n) Reg.BAY.BAY_STAT_PRES
      let s := s.wr (pgBay n) Reg.BAY.BAY_STAT_PRES 0
      let s := if was then (s.count (pgBay n) 0x808).bayEvt n 10 else s
      if st = bayDebounce then s.setBayState n bayEmpty
      else if bayPowered st then s.bayOff n bayEmpty else s

/-- BAY_INSERTION_DELAY_EXPIRY (R478, R480): not in SOAK, nor while BAY_CFG mismatches. -/
def execBayInsertionDelayExpiry (g : Fin 4) (bay : Fin 8) (s : State) : Result :=
  onBay s g fun s =>
    let n := bay.val
    let p := pgBay n
    if s.bayState n ≠ bayWait || s.soak || s.bayBad n then s
    else
      let s := ((s.wr p Reg.BAY.BAY_STAT_UV_OK 1).wr p Reg.BAY.BAY_STAT_OV_OK 1).wr p Reg.BAY.BAY_STAT_OC 0
      (s.wr p Reg.BAY.BAY_STAT_PRE_EN 1).setBayState n bayPrecharge

/-- BAY_PRECHARGE_EXPIRY (R478). -/
def execBayPrechargeExpiry (g : Fin 4) (bay : Fin 8) (s : State) : Result :=
  onBay s g fun s =>
    let n := bay.val
    if s.bayState n = bayPrecharge then (s.wr (pgBay n) Reg.BAY.BAY_STAT_GATE_EN 1).setBayState n bayRamp else s

/-- BAY_POWER_GOOD (R478): GATE_UP and VOUT_DET are both 1 in RAMP. -/
def execBayPowerGood (g : Fin 4) (bay : Fin 8) (s : State) : Result :=
  onBay s g fun s =>
    let n := bay.val
    let p := pgBay n
    if s.bayState n = bayRamp then
      let s := ((s.wr p Reg.BAY.BAY_STAT_GATE_UP 1).wr p Reg.BAY.BAY_STAT_VOUT_DET 1).wr p Reg.BAY.BAY_STAT_PRE_EN 0
      ((s.setBayState n bayIdWait).count p 0x810).bayEvt n 9
    else s

/-- BAY_GATE_RISE_TIMEOUT (R483): a gate that has not risen saggars the bay; without output it is a strike. -/
def execBayGateRiseTimeout (g : Fin 4) (bay : Fin 8) (gateUp : Bool) (s : State) : Result :=
  onBay s g fun s =>
    let n := bay.val
    if s.bayState n = bayRamp then
      let s := s.wr (pgBay n) Reg.BAY.BAY_STAT_GATE_UP (b2n gateUp)
      if gateUp then s.bayStrike n else s.baySaggar n 1
    else s

/-- BAY_GATE_LOST (R483): GATE_UP at 0 for more than 1 ms while GATE_EN is 1. -/
def execBayGateLost (g : Fin 4) (bay : Fin 8) (s : State) : Result :=
  onBay s g fun s =>
    let n := bay.val
    if s.bayState n = bayIdWait ∨ s.bayState n = bayReady ∨ s.bayState n = bayBound then
      (s.wr (pgBay n) Reg.BAY.BAY_STAT_GATE_UP 0).baySaggar n 4
    else s

/-- BAY_OUTPUT_WITHOUT_GATE (R484). -/
def execBayOutputWithoutGate (g : Fin 4) (bay : Fin 8) (s : State) : Result :=
  onBay s g fun s =>
    let n := bay.val
    let st := s.bayState n
    if st = bayEmpty ∨ st = bayDebounce ∨ st = bayWait ∨ st = bayRetry then
      (s.wr (pgBay n) Reg.BAY.BAY_STAT_VOUT_DET 1).baySaggar n 2
    else s

/-- BAY_OVERCURRENT (R90, R482, R485): a strike where the bay is powered; within 1 ms of a removal, with both enables
off, or saggared it is only counted. -/
def execBayOvercurrent (g : Fin 4) (bay : Fin 8) (nearRemoval : Bool) (s : State) : Result :=
  onSeg s g fun s =>
    let n := bay.val
    let s := s.wr (pgBay n) Reg.BAY.BAY_STAT_OC 1
    if bayPowered (s.bayState n) && !nearRemoval then s.bayStrike n else s.count (pgBay n) 0x820

/-- BAY_WINDOW_LOSS (R478, R482, R491): the levels of UV_OK and OV_OK after a fall of either. -/
def execBayWindowLoss (g : Fin 4) (bay : Fin 8) (uv ov : Bool) (s : State) : Result :=
  onBay s g fun s =>
    let n := bay.val
    let p := pgBay n
    if s.bayState n = baySaggared then s
    else
      let s := (s.wr p Reg.BAY.BAY_STAT_UV_OK (b2n uv)).wr p Reg.BAY.BAY_STAT_OV_OK (b2n ov)
      if bayPowered (s.bayState n) && !(uv && ov) then ((s.bayOff n bayWait).count p 0x828).bayEvt n 13 else s

/-- BAY_RETRY_EXPIRY (R478, R485, R492). -/
def execBayRetryExpiry (g : Fin 4) (bay : Fin 8) (s : State) : Result :=
  onBay s g fun s =>
    let n := bay.val
    let p := pgBay n
    if !s.flag p Reg.BAY.BAY_STAT_TIMER || (s.bayState n == bayRetry && s.bayBad n) then s
    else
      let s := s.wr p Reg.BAY.BAY_STAT_TIMER 0
      if s.bayState n = bayRetry then
        s.setBayState n (if s.flag p Reg.BAY.BAY_STAT_PRES then bayWait else bayEmpty)
      else s

/-- BAY_STRIKE_AGE_OUT (R485): a strike has left the window; its stamp stays among the last 7. -/
def execBayStrikeAgeOut (g : Fin 4) (bay : Fin 8) (s : State) : Result :=
  onBay s g fun s =>
    s.noteStrikes bay

/-- BAY_IDENTITY_DELAY_EXPIRY (R486): the bay asks for its read. -/
def execBayIdentityDelayExpiry (g : Fin 4) (bay : Fin 8) (s : State) : Result :=
  onBay s g fun s =>
    let n := bay.val
    if s.bayState n = bayIdWait && !(s.bay n).idBusy then s.i2cAsk n else s

/-- Byte `i` of an identity record. -/
def recByte (r : BitVec 2048) (i : Nat) : Nat := r.toNat / 2 ^ (8 * i) % 256

/-- The failure code of a record (R488, R493): 0 where MAGIC, FORMAT and CRC are correct. -/
def recordCode (r : BitVec 2048) : Nat :=
  if slice r.toNat 0 32 ≠ 0x4D56524B then 3
  else if recByte r 4 ≠ 1 then 4
  else if crc32c ((List.range 252).map (recByte r)) ≠ slice r.toNat 2016 32 then 5 else 0

/-- The identity read has ended: in ID_WAIT the bay is READY, and may bind itself (R486, R490). -/
def Seg.identityDone (s : Seg) (n : Nat) : Seg :=
  let s := s.i2cEnd n
  if s.bayState n = bayIdWait then
    let s := s.setBayState n bayReady
    if s.flag (pgBay n) Reg.BAY.BAY_CFG_AUTO_BIND && s.flag (pgBay n) Reg.BAY.BAY_STAT_ID_VALID
        && decide (s.rd (pgBay n) Reg.BAY.BAY_STAT_STRIKES = 0) && !s.soak then s.bayBindCmd n else s
  else s

/-- BAY_IDENTITY_READ_END (R486–R488). -/
def execBayIdentityReadEnd (g : Fin 4) (bay : Fin 8) (record : BitVec 2048) (s : State) : Result :=
  onBay s g fun s =>
    let n := bay.val
    let p := pgBay n
    if s.pins.i2cSel ≠ some n then s
    else
      let s := s.each (List.range 64) fun s k => s.setWord p (0x200 + 4 * k) (BitVec.ofNat 32 (slice record.toNat (32 * k) 32))
      let c := recordCode record
      let s := (s.count p 0x830).wr p Reg.BAY.BAY_STAT_ID_VALID (b2n (c == 0))
      let s := if c = 0 then
          s.wr p Reg.BAY.BAY_STAT_PRE_SHORT (b2n (decide (max 1 (s.rd p Reg.BAY.BAY_T0_PRECHARGE) < recByte record 0x28)))
        else (s.count p 0x838).bayEvt n 14 c
      s.identityDone n

/-- BAY_ID_ATTEMPT_RETRY (R92, R486): the next attempt of a failed read starts. -/
def execBayIdAttemptRetry (g : Fin 4) (bay : Fin 8) (s : State) : Result :=
  onBay s g fun s =>
    let n := bay.val
    if (s.bay n).idBusy && decide (0 < (s.bay n).attempts) && decide (s.pins.i2cSel = none) then
      s.modPins fun p => { p with i2cSel := some n }
    else s

/-- IDENTITY_ATTEMPT_FAILED (R92, R486): a NACK or a stretch timeout; the third ends the read with ID_VALID at 0. -/
def execIdentityAttemptFailed (g : Fin 4) (bay : Fin 8) (stretch : Bool) (s : State) : Result :=
  onBay s g fun s =>
    let n := bay.val
    if s.pins.i2cSel ≠ some n then s
    else
      let k := (s.bay n).attempts + 1
      if k < 3 then (s.modBay n fun b => { b with attempts := k }).modPins fun p => { p with i2cSel := none }
      else
        let s := (s.count (pgBay n) 0x838).bayEvt n 14 (if stretch then 2 else 1)
        s.identityDone n

end Sys2Proof.Machine
end

