-- ==== Sys2Proof/Machine/Clocks.lean ====
section
/-!
DEFINITION. Clock islands and crossings (R346–R376, R496): frequency codes, voltage requests, ramps, the time base of
each tile, pulse crossings and the clock switch.
-/
namespace Sys2Proof.Machine

/-! ### Codes (R346, R348, R349) -/

/-- A written code as it acts (R346). -/
def actCode (c : Nat) : Nat := max 12 (min 48 c)

/-- FMIN as it acts. -/
def Seg.fmin (s : Seg) : Nat := actCode (s.rd pgClk Reg.CLK.CLK_LIMIT_FMIN)

/-- FMAX as it acts: a value below FMIN acts as FMIN (R373). -/
def Seg.fmax (s : Seg) : Nat := max s.fmin (actCode (s.rd pgClk Reg.CLK.CLK_LIMIT_FMAX))

/-- The power cap code of every tile (R473): 48 while the cap is off. -/
def Seg.capCode (s : Seg) : Nat :=
  if s.flag pgPwr Reg.PWR.PWR_CAP_CAP_EN then s.rd pgPwr Reg.PWR.PWR_EST_CAPCODE else 48

/-- The thermal limit code of a quadrant. -/
def Seg.tcode (s : Seg) (q : Nat) : Nat := s.rd pgClk (Reg.CLK.CLK_TEMP_TCODE.at q)

/-- The request of tile `t`. -/
def Seg.reqCode (s : Seg) (t : Nat) : Nat := actCode (s.rd pgClk (Reg.CLK.CLK_TILE_REQ.at t))

/-- The code the limits leave tile `t`, before the rule for C1 tiles. -/
def Seg.limitedCode (s : Seg) (t : Nat) : Nat :=
  max s.fmin (min (s.tcode (quadOf t)) (min s.capCode (min s.fmax (s.reqCode t))))

/-- The effective code of tile `t` (R348); a segment-scope kiln run holds every tile at 24 (R503). -/
def Seg.effCode (s : Seg) (t : Nat) : Nat :=
  match s.kiln.run with
  | some (_, true, _, _, _) => 24
  | _ =>
    let f := s.limitedCode t
    if s.c1Tile t then (if 48 ≤ f then 48 else 24) else f

/-- BOUND: the limits below the request, and FMIN above what they leave. -/
def Seg.boundOf (s : Seg) (t : Nat) : Nat :=
  let r := s.reqCode t
  let c := s.capCode
  let h := s.tcode (quadOf t)
  b2n (decide (s.fmax < r)) + 2 * b2n (decide (c < r)) + 4 * b2n (decide (h < r))
    + 8 * b2n (decide (min h (min c (min s.fmax r)) < s.fmin))

/-- The thermal limit code at `temp` °C (R349). -/
def thermalCode (temp : Int) : Nat :=
  if temp ≤ 125 then 48 else max 36 (48 - ceilDiv (12 * (temp - 125).toNat) 25)

/-! ### Voltage (R350) -/

/-- The VREQ code a clock code needs. -/
def needOf (c : Nat) : Nat := if c ≤ 16 then 0 else if c ≤ 24 then 10 else if c ≤ 32 then 18 else if c ≤ 40 then 26 else 34

/-- The code a tile is changing to, 0 for none. -/
def Seg.rampOf (s : Seg) (t : Nat) : Nat := SMap.get 0 s.ramp t
def Seg.setRamp (s : Seg) (t c : Nat) : Seg := { s with ramp := SMap.put 0 s.ramp t c }

/-- The need of tile `t`: its current code's and that of the code it is changing to; none when OFF, the lowest in DROWSY
and RETAIN, and the level of code 48 for a C1 tile that its limits allow 48. -/
def Seg.needTile (s : Seg) (t : Nat) : Nat :=
  let st := s.stTile t
  if st = 4 ∨ st = 2 ∨ st = 3 then 0
  else
    let n := max (needOf (s.rd pgClk (Reg.CLK.CLK_TILE_CUR.at t))) (needOf (max 12 (s.rampOf t)))
    if s.c1Tile t ∧ s.fmax = 48 ∧ s.capCode = 48 ∧ s.tcode (quadOf t) = 48 then 34 else n

/-- The tiles of quadrant `q`. -/
def quadTiles (q : Nat) : List Nat := (List.range 144).filter (fun t => quadOf t == q)

/-- The VREQ code of quadrant `q` that its tiles need. -/
def Seg.vreqNeed (s : Seg) (q : Nat) : Nat :=
  min 40 ((quadTiles q).foldl (fun a t => max a (s.needTile t)) 0 + min 6 (s.rd pgClk (Reg.CLK.CLK_VOFS_VOFFSET.at q)))

/-- VREQ of quadrant `q`, and whether its VACK is awaited. -/
def Seg.vreq (s : Seg) (q : Nat) : Nat := s.rd pgClk (Reg.CLK.CLK_V_VREQ.at q)
def Seg.vwaits (s : Seg) (q : Nat) : Bool := SMap.get false s.vwait q
def Seg.setVwait (s : Seg) (q : Nat) (b : Bool) : Seg := { s with vwait := SMap.put false s.vwait q b }

/-- One more than the VREQ code that the supply of quadrant `q` allows now (R99): 25 at reset. -/
def Seg.vgood (s : Seg) (q : Nat) : Nat := SMap.get 26 s.ctl.vgood q
def Seg.setVgood (s : Seg) (q n : Nat) : Seg := s.modCtl fun c => { c with vgood := SMap.put 26 c.vgood q n }

/-- The supply fault of quadrant `q` is over, or its check starts afresh (R99). -/
def Seg.vlowEnds (s : Seg) (q : Nat) : Seg := s.modCtl fun c => { c with vlow := c.vlow &&& ~~~(BitVec.ofNat 4 (2 ^ q)) }

/-- VREQ of quadrant `q` follows what its tiles need (R350, R351): raised, with its VACK then awaited (R99), or lowered
once every tile allows it. A quadrant whose tiles are all OFF is left (R460 step 4). As VREQ leaves 63 the check of VACK starts
afresh. -/
def Seg.followV (s : Seg) (q : Nat) : Seg :=
  let n := s.vreqNeed q
  if (quadTiles q).all (fun t => s.stTile t == 4) || decide (s.vreq q = n) then s
  else
    let s' := s.wr pgClk (Reg.CLK.CLK_V_VREQ.at q) n
    if s.vreq q = 63 then (s'.setVwait q true).vlowEnds q
    else if s.vreq q < n then s'.setVwait q true
    else s'.setVgood q (min (s.vgood q) (n + 1))

/-- VREQ of quadrant `q`, whose tiles are all OFF, is 63: its rail may go, and VACK means nothing (R99, R460). -/
def Seg.railOff (s : Seg) (q : Nat) : Seg :=
  (((s.wr pgClk (Reg.CLK.CLK_V_VREQ.at q) 63).setVwait q false).setVgood q 0).vlowEnds q

/-- The supply allows tile `t` a change to its code in hand: no higher code, VACK for the level asked for, or a level the
supply allowed before (R99, R351). -/
def Seg.supplyOk (s : Seg) (t : Nat) : Bool :=
  let q := quadOf t
  let c := s.rampOf t
  !s.vwaits q || decide (c ≤ s.rd pgClk (Reg.CLK.CLK_TILE_CUR.at t))
    || decide (min 40 (needOf c + min 6 (s.rd pgClk (Reg.CLK.CLK_VOFS_VOFFSET.at q))) < s.vgood q)

/-! ### A change of code (R351, R352) -/

/-- The DCO of tile `t` starts its ramp, once its supply allows it; an aligned C1 tile, and one that aligns, waits for its slot
tick instead. -/
def Seg.startRamp (s : Seg) (t : Nat) : Seg :=
  let st := s.rd pgClk (Reg.CLK.CLK_TILE_STATE.at t)
  if s.rampOf t = 0 ∨ st = 0 ∨ st = 2 ∨ st = 3 ∨ st = 7 ∨ s.supplyOk t = false then s
  else if s.c1Tile t ∧ s.isAligned t = true then s
  else (s.modCtl fun c => { c with rampC1 := SMap.put false c.rampC1 t (s.c1Tile t) }).wr pgClk (Reg.CLK.CLK_TILE_STATE.at t) 2

/-- CLK_TILE.STATE of a tile that changes no code: IDLE, or as it runs. -/
def Seg.restState (s : Seg) (t : Nat) : Nat := if s.stTile t = 1 then 6 else s.runState t

/-- The change in hand of tile `t` ends without effect: it keeps its code, and VREQ follows (R350, R353, R374). -/
def Seg.dropChange (s : Seg) (t : Nat) : Seg :=
  let st := s.rd pgClk (Reg.CLK.CLK_TILE_STATE.at t)
  let s := (s.setRamp t 0).when (st == 2 || st == 3) fun s => s.wr pgClk (Reg.CLK.CLK_TILE_STATE.at t) (s.restState t)
  s.followV (quadOf t)

/-- A tile that is no C1 tile any more returns to frequency lock at its current clock (R352). -/
def Seg.freqLock (s : Seg) (t : Nat) : Seg :=
  let st := s.rd pgClk (Reg.CLK.CLK_TILE_STATE.at t)
  let s := s.setAligned t false
  if st = 3 ∨ st = 4 ∨ st = 5 then s.wr pgClk (Reg.CLK.CLK_TILE_STATE.at t) 1 else s

/-- FLOOR and BOUND of tile `t` brought up to date; a floor hold that begins counts and raises an event (R348, R375). -/
def Seg.noteBounds (s : Seg) (t : Nat) : Seg :=
  let hold := s.c1Tile t && decide (s.limitedCode t < 24)
  let s1 := s.wr pgClk (Reg.CLK.CLK_TILE_BOUND.at t) (s.boundOf t)
  let s2 := s1.wr pgClk (Reg.CLK.CLK_TILE_FLOOR.at t) (b2n hold)
  if hold && !s.flag pgClk (Reg.CLK.CLK_TILE_FLOOR.at t) then (s2.count pgClk 0x838).evt pgClk 12 (tileSynd t) else s2

/-- The limits of tiles `ts` have moved: FLOOR and BOUND follow for those that run, and every quadrant's VREQ, in which the
limits of a C1 tile count (R348, R350). Every tile keeps its code while CLK_LIMIT mismatches (R374). -/
def Seg.limitsMoved (s : Seg) (ts : List Nat) : Seg :=
  if s.mismatched pgClk 0x110 then s
  else (s.each (ts.filter (fun t => s.stTile t ≤ 1)) Seg.noteBounds).each (List.range 4) Seg.followV

/-- Tile `t` starts toward its effective code. A tile without a running clock, one whose DCO is out of lock, and every
tile while CLK_LIMIT mismatches keep their code (R353, R374). A ramp in progress ends first (log 85). -/
def Seg.codeChange (s : Seg) (t : Nat) : Seg :=
  if decide (2 ≤ s.stTile t) || SMap.get false s.dcoLost t || s.mismatched pgClk 0x110 then s
  else
    let s := s.noteBounds t
    let f := s.effCode t
    let q := quadOf t
    if s.rd pgClk (Reg.CLK.CLK_TILE_STATE.at t) = 2 then s.followV q
    else if f = s.rd pgClk (Reg.CLK.CLK_TILE_CUR.at t) ∧ s.c1Tile t = s.isAligned t then (s.setRamp t 0).followV q
    else
      ((s.setRamp t f).followV q).startRamp t

/-- A change of tile `t`'s code is complete: the code, the alignment of a C1 tile that took it at a slot tick, CLK_TILE.STATE
and the count of a new code. The voltage follows, and so does a limit that moved meanwhile. -/
def Seg.codeReached (s : Seg) (t : Nat) (aligned : Bool) : Seg :=
  let f := s.rampOf t
  if f = 0 then s
  else
    let old := s.rd pgClk (Reg.CLK.CLK_TILE_CUR.at t)
    let s := ((s.wr pgClk (Reg.CLK.CLK_TILE_CUR.at t) f).setRamp t 0).setAligned t aligned
    let s := s.wr pgClk (Reg.CLK.CLK_TILE_STATE.at t) (s.restState t)
    let s := s.wr (pgRt t) Reg.ROUTER.C1_STAT_RATE (b2n (aligned && decide (48 ≤ f)))
    (s.when (old != f) fun s => s.count pgClk 0x800).codeChange t

/-- VACK of quadrant `q` rises for the code requested: its waiting tiles start their ramps (R99, R351). -/
def Seg.vackUp (s : Seg) (q : Nat) : Seg :=
  let s := ((s.wr pgClk (Reg.CLK.CLK_V_VACK.at q) 1).setVwait q false).vlowEnds q
  let s := s.when (s.vreq q != 63) fun s => s.setVgood q (s.vreq q + 1)
  s.each ((quadTiles q).filter (fun t => s.rampOf t != 0)) Seg.startRamp

/-! ### Commands -/

/-- SLOT_TICK (R222, R352, R371): the tile's copy of the FTB counts, once it has been loaded; an aligned C1 tile with a
change in hand switches its divider at the tick. -/
def execSlotTick (g : Fin 4) (tile : Fin 144) (s : State) : Result :=
  onSeg s g fun s =>
    let t := tile.val
    let st := s.rd pgClk (Reg.CLK.CLK_TILE_STATE.at t)
    if !s.ftbRuns || decide (s.stTile t = 4) then s
    else
      let s := if SMap.get false s.synced t then s.setTftb t (s.tftb t + 1) else s
      if s.c1Tile t ∧ (st = 3 ∨ s.isAligned t = true) ∧ s.supplyOk t = true then s.codeReached t true else s

/-- FTB_SYNC_BOUNDARY (R371): at a boundary the tile compares its copy with the value received, the master's. The first
load after reset or wake is no slip. -/
def execFtbSyncBoundary (g : Fin 4) (tile : Fin 144) (s : State) : Result :=
  onSeg s g fun s =>
    let t := tile.val
    if !s.ftbRuns || decide (s.stTile t = 4) || s.ftb.toNat % 64 != 0 then s
    else if !SMap.get false s.synced t then
      { s.setTftb t s.ftb with synced := SMap.put false s.synced t true }
    else if s.tftb t = s.ftb then s
    else ((s.setTftb t s.ftb).count pgClk 0x830).evt pgClk 8 (tileSynd t)

/-- TILE_CODE_CHANGE (R348, R351, R352). -/
def execTileCodeChange (g : Fin 4) (tile : Fin 144) (s : State) : Result :=
  onSeg s g fun s => s.codeChange tile

/-- DCO_RAMP_DONE (R351, R352): the tile runs at its new code. A tile whose ramp was toward a C1 tile's core then phase-locks,
and takes its tick-aligned rate at a slot tick. -/
def execDcoRampDone (g : Fin 4) (tile : Fin 144) (s : State) : Result :=
  onSeg s g fun s =>
    let t := tile.val
    if s.rd pgClk (Reg.CLK.CLK_TILE_STATE.at t) = 2 then
      if s.c1Tile t && SMap.get false s.ctl.rampC1 t then s.wr pgClk (Reg.CLK.CLK_TILE_STATE.at t) 3
      else s.codeReached t false
    else s

/-- TEMP_SAMPLE (R349): the quadrant's temperature and its thermal limit code. -/
def execTempSample (g : Fin 4) (quad : Fin 4) (temp : BitVec 9) (s : State) : Result :=
  onSeg s g fun s =>
    let q := quad.val
    let old := (BitVec.ofNat 9 (s.rd pgClk (Reg.CLK.CLK_TEMP_TEMP.at q))).toInt
    let c := thermalCode temp.toInt
    let hot := (decide (c < 48) && decide (s.tcode q = 48)) || (decide (150 < temp.toInt) && decide (old ≤ 150))
    let s := (s.wr pgClk (Reg.CLK.CLK_TEMP_TEMP.at q) temp.toNat).wr pgClk (Reg.CLK.CLK_TEMP_TCODE.at q) c
    let s := s.limitsMoved (quadTiles q)
    if hot then s.evt pgClk 11 (BitVec.ofNat 32 (q * 256)) else s

/-- DCO_LOCK_LOST (R353): the tile holds its last code, a change in hand ends, and its DCO runs free. -/
def execDcoLockLost (g : Fin 4) (tile : Fin 144) (s : State) : Result :=
  onSeg s g fun s =>
    let t := tile.val
    if decide (2 ≤ s.stTile t) || SMap.get false s.dcoLost t then s
    else
      let s := { s with dcoLost := SMap.put false s.dcoLost t true }.dropChange t
      (s.wr pgClk Reg.CLK.CLK_STAT_DCO_FAULT 1).evt pgClk 13 (tileSynd t)

/-- DCO_LOCK_REGAINED (R353): the tile follows its code again; the fault bit falls with the last one. -/
def execDcoLockRegained (g : Fin 4) (tile : Fin 144) (s : State) : Result :=
  onSeg s g fun s =>
    let t := tile.val
    if SMap.get false s.dcoLost t then
      let s := { s with dcoLost := SMap.put false s.dcoLost t false }
      s.wr pgClk Reg.CLK.CLK_STAT_DCO_FAULT (b2n (s.dcoLost != []))
    else s

/-- PULSE_RAISE (R31, R362, R363): a unit raises a pulse with its record. A page's event bit latches; a masked one is not
reported. In the halted state the controller wakes (R469). -/
def execPulseRaise (g : Fin 4) (src : Fin 1024) (cause : Byte) (synd : Word) (s : State) : Result :=
  if !srcOk src then .fault .absentUnit
  else onSeg s g fun s =>
    let b := cause.toNat % 32
    let page := if 0x40 ≤ src.val ∧ src.val < 0xD0 then some (pgRt (src - 0x40))
      else if 0x100 ≤ src.val ∧ src.val < 0x148 then some (pgBank (src - 0x100))
      else if 0x200 ≤ src.val then some (pgNi (src - 0x200))
      else if src.val = 1 ∨ src.val = 4 then some pgPwr else if src.val = 2 then some pgClk
      else if src.val = 3 then some pgKiln else if src.val = 6 then some pgTen
      else if src.val = 5 then some (if cause.toNat / 32 % 4 = 1 then pgFlow else pgSeg)
      else if src.val = 0x10 ∨ src.val = 0x11 then some (pgBr (src - 0x10))
      else if 0x18 ≤ src.val then some (pgBay (src - 0x18)) else none
    if s.senderDown src then s
    else
      match (if cause.toNat < 128 then page else none) with
      | some p =>
        let s := s.setBit p 0x010 b true
        if s.bit p 0x014 b then s else s.raise src cause synd
      | none => s.raise src cause synd

/-- ACKNOWLEDGE_PHASE_END (R362, R363): the sender sees ACK fall; a waiting pulse is launched. -/
def execAcknowledgePhaseEnd (g : Fin 4) (src : Fin 1024) (s : State) : Result :=
  if !srcOk src then .fault .absentUnit
  else onSeg s g fun s =>
    let c := s.pulse src
    if c.phase = 2 then
      match c.slot with
      | some e => s.setPulse src { c with phase := 1, flight := some e, slot := none }
      | none => s.setPulse src { c with phase := 0, flight := none }
    else s

/-- CLK_OVR written with ones (R364): the lost counts and the receivers' samples of the tiles. -/
def Seg.clearOvr (s : Seg) (w : Nat) (bits : Word) : Seg :=
  { s with pulses := SMap.mapNorm {} (fun l c =>
      match srcTile l with
      | some t => if t / 32 = w ∧ bits.toNat / 2 ^ (t % 32) % 2 = 1 then { c with lost := 0, prev := 0 }
          else c
      | none => c) s.pulses }

/-- The outcome of the REFCLK check of R496: accepted, the management clock moves and the tick generator starts;
rejected, REFCLK_BAD. -/
def Seg.refclkCheck (s : Seg) (ok : Bool) : Seg :=
  if !s.flag pgClk Reg.CLK.CLK_SW_SWITCH || s.switched || s.ctl.tickStart then s
  else if ok then (s.wr pgKiln Reg.KILN.KILN_BOOT_REFCLK_BAD 0).modCtl fun c => { c with tickStart := true }
  else (s.wr pgKiln Reg.KILN.KILN_BOOT_REFCLK_BAD 1).evt pgKiln 13

/-- REFCLK_CHECK_RETRY (R496): the check of a committed switch is made again. -/
def execRefclkCheckRetry (g : Fin 4) (refclkOk : Bool) (s : State) : Result :=
  onSeg s g fun s => s.refclkCheck refclkOk

/-- TICK_LOCK (R369, R372, R477, R496, R534): the master FTB starts at 0, the switch is complete, and the collector's windows
and quiet periods restart at FTB 0. The bays' times go on, now in ticks: 6 to a bisque cycle (DESIGN CHOICE, log 125). -/
def execTickLock (g : Fin 4) (s : State) : Result :=
  onSeg s g fun s =>
    if !s.ctl.tickStart || s.ftbRuns then s
    else
      let aged := fun t : BitVec 64 => -((s.bisque - t) * 6)
      let s := { s with bays := SMap.mapNorm {} (fun _ (x : Bay) =>
        { x with strikes := x.strikes.map aged, retryFrom := aged x.retryFrom }) s.bays }
      let s := { s with ftb := 0, srcs := SMap.mapNorm {} (fun _ (x : Src) => { x with wstart := 0, lastFault := 0, activeEnd := 0 }) s.srcs }
      let s := s.modCtl fun c => { c with tickStart := false }
      let s := ((s.wr pgClk Reg.CLK.CLK_STAT_TICK_LOCK 1).wr pgClk Reg.CLK.CLK_STAT_FTB_RUN 1).wr pgClk
        Reg.CLK.CLK_STAT_SWITCHED 1
      (s.wr pgSeg Reg.SEG.SEG_STAT_BISQUE 0).evt pgClk 15

/-- VACK_FALL (R99): the quadrant's VACK level. -/
def execVackFall (g : Fin 4) (quad : Fin 4) (s : State) : Result :=
  onSeg s g fun s => s.wr pgClk (Reg.CLK.CLK_V_VACK.at quad) 0

/-- VACK_TIMEOUT (R99, R418): a VACK at 0 for longer than 100 µs, unless its VREQ is 63. -/
def execVackTimeout (g : Fin 4) (quad : Fin 4) (s : State) : Result :=
  onSeg s g fun s =>
    if s.flag pgClk (Reg.CLK.CLK_V_VACK.at quad) || decide (s.vreq quad = 63) || s.ctl.vlow.getLsbD quad.val then s
    else (s.modCtl fun c => { c with vlow := c.vlow ||| BitVec.ofNat 4 (2 ^ quad.val) }).raise 7 0x82 (BitVec.ofNat 32 quad.val)

end Sys2Proof.Machine
end

