-- ==== Sys2Proof/Machine/Coding.lean ====
section
/-!
DEFINITION. The line coding and the frames of a bundle: scrambler, stuffing, block headers, frame headers, control frames,
lane maps, and the HELLO payload (R378–R387, R404).
-/
namespace Sys2Proof.Machine

/-! ### The scrambler (R380) -/

/-- The seed of physical lane `l`. -/
def laneSeed (ftb : BitVec 64) (l : Nat) : BitVec 31 :=
  let s := ftb.truncate 31 ^^^ (BitVec.ofNat 31 (l * 2 ^ 26))
  if s = 0 then 1 else s

/-- The generator's output bit, and the generator one payload bit on. -/
def scrOut (g : BitVec 31) : Bool := g.getLsbD 30 != g.getLsbD 27
def scrNext (g : BitVec 31) : BitVec 31 := (g <<< 1) ||| (if scrOut g then 1 else 0)

/-- The generator `n` payload bits on. -/
def scrAfter (g : BitVec 31) : Nat → BitVec 31
  | 0 => g
  | n + 1 => scrAfter (scrNext g) n

/-- The generator that 31 consecutive IDLE payload bits load: they are its own output. -/
def scrLoad (bits : List Bool) : BitVec 31 := bits.foldl (fun g b => (g <<< 1) ||| (if b then 1 else 0)) 0

/-- IDLE payload bits seen on a lane agree with the generator their first 31 load. -/
def idleChecks (bits : List Bool) : Bool :=
  let rest := bits.drop 31
  rest == (List.range rest.length).map fun i => scrOut (scrAfter (scrLoad (bits.take 31)) i)

/-- Payload bits scrambled, or unscrambled, from generator state `g`. -/
def scramble (g : BitVec 31) : List Bool → List Bool
  | [] => []
  | d :: ds => (d != scrOut g) :: scramble (scrNext g) ds

/-! ### Stuffing (R381) -/

/-- A bit of the opposite value after each run of 24: `last` and `run` describe the run before the list. -/
def stuff (last : Bool) (run : Nat) : List Bool → List Bool
  | [] => []
  | b :: bs =>
    let r := if b = last then run + 1 else 1
    if r = 24 then b :: (!b) :: stuff (!b) 1 bs else b :: stuff b r bs

/-- The last bit and its run after a list of line bits. -/
def runAfter (e : Bool × Nat) (bits : List Bool) : Bool × Nat :=
  bits.foldl (fun e b => if b = e.1 then (b, e.2 + 1) else (b, 1)) e

/-- The bit after each run of 24 removed; none where it is not the complement. -/
def destuff (last : Bool) (run : Nat) : List Bool → Option (List Bool)
  | [] => some []
  | b :: bs =>
    if run = 24 then (if b = last then none else destuff b 1 bs)
    else (destuff b (if b = last then run + 1 else 1) bs).map (b :: ·)

/-! ### Blocks (R379, R382) -/

/-- The header codes of the blocks that are sent: DATA, RESYNC, IDLE, SLIP, DROWSE. The reserved code makes a block bad
(DESIGN CHOICE, log 120). -/
def blockCodes : List Nat := [0x0F, 0xF0, 0x33, 0x55, 0xCC]

/-- The code a received header is taken as, and whether it was corrected; none for a bad block. -/
def blockCode (h : Nat) : Option (Nat × Bool) :=
  (blockCodes.find? (fun c => decide (ones 8 (Nat.xor h c) ≤ 1))).map fun c => (c, c != h)

/-- The header of each kind of block; the kindle pattern has none. -/
def BlockKind.code : BlockKind → Option Nat
  | .data => some 0x0F
  | .resync => some 0xF0
  | .idle => some 0x33
  | .slip => some 0x55
  | .drowse => some 0xCC
  | .kindle => none

/-- Headers received that were taken as a code one bit away (R379). -/
def RxFrame.corrected (f : RxFrame) : Nat := (f.heads.filterMap fun h => blockCode h.toNat).countP (·.2)

/-- Bits that the stuffing rule removes from the line bits of a frame (R381). -/
def RxFrame.stuffed (f : RxFrame) : Nat :=
  f.lines.foldl (fun a e => a + match destuff e.1 e.2.1 e.2.2 with | some q => e.2.2.length - q.length | none => 0) 0

/-- A frame free of CRC errors and bad blocks (R379, R381, R384). -/
def RxFrame.good (f : RxFrame) : Bool :=
  f.crcOk && f.heads.all (fun h => (blockCode h.toNat).isSome) && f.lines.all fun e => (destuff e.1 e.2.1 e.2.2).isSome

/-- The payload of a SLIP block of physical lane `l`, byte by byte. -/
def slipBytes (l : Nat) : List Nat := [l % 32, 255 - l % 32] ++ List.replicate 30 0x33

/-! ### Frames (R383–R386) -/

/-- KIND of a plane's flit frame, and its units of 64 bits. -/
def frameKind (pl : Nat) : Nat := pl + 1
def frameUnits (pl : Nat) : Nat := if pl ≤ 1 then 20 else if pl = 2 then 6 else 3

/-- The units of a frame. -/
def Frame.units : Frame → Nat
  | .flit f => frameUnits f.plane.code
  | .time .. => 4
  | _ => 2

/-- Lanes that carry the stream in a transmit state, and the units of one of its block slots. -/
def lanesOf (st : Nat) : Nat := if st = 3 then 8 else 16
def slotUnits (st : Nat) : Nat := 4 * lanesOf st

/-- Logical lane and first payload bit of unit `j` of a block slot over `w` lanes. -/
def unitPlace (w j : Nat) : Nat × Nat := (j % w, 64 * (j / w))

/-- The credit index of a plane and VC as keys `8 × plane + VC`, in the order of CIDX. -/
def creditKeys : List Nat :=
  [0, 1, 2, 3, 4, 5, 8, 9, 10, 11, 12, 13, 16, 17, 18, 20, 21, 24, 28, 29]

/-- The 48-bit frame header. -/
def frameHeader (kind vc : Nat) (fsn ack : BitVec 8) (cidx : Nat) (ccnt : BitVec 8) (tick : BitVec 9) : Nat :=
  kind % 16 + vc % 8 * 2 ^ 4 + fsn.toNat * 2 ^ 8 + ack.toNat * 2 ^ 16 + cidx % 32 * 2 ^ 24 + ccnt.toNat * 2 ^ 29
    + tick.toNat * 2 ^ 37

/-- `n` bytes of a number, the least significant first. -/
def bytesOf (n v : Nat) : List Nat := (List.range n).map fun i => v / 2 ^ (8 * i) % 256

/-- The header of a frame begun. -/
def Sent.header (x : Sent) : Nat :=
  match x.frame with
  | .flit f => frameHeader (frameKind f.plane.code) f.flit.vc f.fsn x.ack x.cidx x.ccnt f.tick
  | .time .. => frameHeader 9 0 0 x.ack x.cidx x.ccnt 0
  | _ => frameHeader 8 0 0 x.ack x.cidx x.ccnt 0

/-- A flit on the wire: payload, ECC and control from bit 0 up (R112, R113, R384; their order DESIGN CHOICE, log 119). -/
def Flit.wire (f : Flit) (pl : Nat) : Nat :=
  let (w, e) := if pl ≤ 1 then (1024, 128) else if pl = 2 then (256, 32) else (64, 8)
  let pay := (match f.body with
    | .head h imm => (imm ++ h.toBits).toNat
    | .data d => d.toNat
    | .mgtHead h => h.toBits.toNat
    | .mgtData d => d.toNat) % 2 ^ w
  pay + Config.flitEcc w pay % 2 ^ e * 2 ^ w + f.control (pl == 3) f.la * 2 ^ (w + e)

/-- The body of a frame with its bytes, and the bytes of padding after it (R384, R386). -/
def Frame.body : Frame → Nat × Nat × Nat
  | .idle => (0x01, 6, 0)
  | .nak fsn => (0x02 + fsn.toNat * 2 ^ 8, 6, 0)
  | .lane l half mask => (0x03 + l % 32 * 2 ^ 8 + b2n half * 2 ^ 13 + mask.toNat * 2 ^ 14, 6, 0)
  | .time seq tx rx echo =>
    (0x10 + seq.toNat * 2 ^ 8 + tx.toNat * 2 ^ 16 + rx.toNat * 2 ^ 80 + echo.toNat * 2 ^ 144, 22, 0)
  | .flit f =>
    let pl := f.plane.code
    (f.flit.wire pl, if pl ≤ 1 then 146 else if pl = 2 then 38 else 10, if pl = 2 then 0 else 4)

/-- The bytes of a frame: header, body, padding and CRC-32C (R384). -/
def Sent.bytes (x : Sent) : List Nat :=
  let (v, n, pad) := x.frame.body
  let b := bytesOf 6 x.header ++ bytesOf n v ++ List.replicate pad 0
  b ++ bytesOf 4 (crc32c b)

/-- The units of a frame on the stream (R383). -/
def Sent.words (x : Sent) : List (BitVec 64) :=
  (List.range x.frame.units).map fun i =>
    BitVec.ofNat 64 (((x.bytes.drop (8 * i)).take 8).foldr (fun b a => b + 256 * a) 0)

/-! ### Lane maps (R377, R378, R396) -/

/-- The width that healthy lanes allow, as a bundle state: 2 full, 3 half, 5 saggared. -/
def widthOf (mask : BitVec 17) : Nat :=
  let n := ones 17 mask.toNat
  if n = 17 ∨ n = 16 then 2 else if 8 ≤ n then 3 else 5

/-- The physical lanes of the logical lanes, in order. -/
def laneMap (mask : BitVec 17) (half : Bool) : List Nat :=
  let healthy := fun l => mask.getLsbD l
  if half then ((List.range 17).filter healthy).take 8
  else (List.range 16).map fun l => if healthy l then l else 16

/-! ### Block slots on the line (R378–R383, R394) -/

/-- The low `n` bits of a number, bit 0 first. -/
def bitsOf (n v : Nat) : List Bool := (List.range n).map v.testBit

/-- Payload of logical lane `j` of `w`: the units that lie on it. -/
def lanePayload (units : List (BitVec 64)) (w j : Nat) : List Bool :=
  (List.range 4).flatMap fun p => bitsOf 64 (units.getD (w * p + j) 0).toNat

/-- Block slots of the kindle pattern: 128 ns, each slot 6.6 ns. -/
def kindleSlots : Nat := 20

/-- The bits of physical lane `l` in a block slot before stuffing. A mapped lane carries the stream, a healthy lane outside
the map IDLE, a failed lane nothing. -/
def Bundle.block (x : Bundle) (half : Bool) (l : Nat) : List Bool :=
  let g := x.gens.getD l 1
  let scrambled := fun (k : BlockKind) (pay : List Bool) => bitsOf 8 (k.code.getD 0) ++ scramble g pay
  match x.out.kind with
  | .kindle => (List.range 264).map fun i => decide ((264 * (kindleSlots - x.kindle) + i) % 32 < 16)
  | .slip => bitsOf 8 0x55 ++ (slipBytes l).flatMap (bitsOf 8)
  | .idle => scrambled .idle (List.replicate 256 false)
  | .drowse => scrambled .drowse (List.replicate 256 false)
  | k =>
    let map := laneMap x.txMap half
    match map.findIdx? (· == l) with
    | some j => scrambled k (lanePayload x.out.units map.length j)
    | none => if x.txMap.getLsbD l then scrambled .idle (List.replicate 256 false) else []

/-- The block slot in `out` goes onto the 17 lanes: stuffed, with the scramblers moved on by its payload bits. -/
def Bundle.onLine (x : Bundle) (half : Bool) : Bundle :=
  let at_ := fun l => x.runs.getD l (false, 0)
  let lanes := (List.range 17).map fun l => stuff (at_ l).1 (at_ l).2 (x.block half l)
  let still := x.out.kind == .slip || x.out.kind == .kindle
  { x with
    out := { x.out with lanes := lanes }
    gens := if still then x.gens else x.gens.map fun g => scrAfter g 256
    runs := (List.range 17).map fun l => runAfter (at_ l) (lanes.getD l []) }

/-- The scramblers loaded at the start of a training, before the kindle pattern (R380, R394). -/
def Bundle.newTraining (x : Bundle) (ftb : BitVec 64) : Bundle :=
  { x with gens := (List.range 17).map (laneSeed ftb), runs := [], kindle := kindleSlots, slots := 0 }

/-- The data lane that the spare replaces at full width; 31 for none. -/
def spareFor (mask : BitVec 17) : Nat :=
  if widthOf mask = 2 then ((List.range 16).find? (fun l => !mask.getLsbD l)).getD 31 else 31

/-! ### HELLO (R404) -/

/-- The four payload flits of HELLO. -/
def Hello.flits (h : Hello) : List (BitVec 64) :=
  [ BitVec.ofNat 64 (h.segNum.val + b2n h.joined * 2 ^ 2 + b2n h.anchorValid * 2 ^ 3 + h.anchor.val * 2 ^ 4
      + h.version.toNat * 2 ^ 8 + h.nonce.toNat * 2 ^ 32),
    h.digest, h.ftb, BitVec.ofNat 64 (h.epoch.toNat + h.ringVer.toNat * 2 ^ 8 + h.joinedSet.toNat * 2 ^ 16) ]

end Sys2Proof.Machine
end

