-- ==== Sys2Proof/Machine/Delivery.lean ====
section
/-!
DEFINITION. What the endpoints' delivery machinery shares: injection into the fabric, acknowledgements, the beats of the
agent ports, NI reset, and a tile's return from a loss of retention (R120–R136, R177, R178, R471, R536).
-/
namespace Sys2Proof.Machine

/-! ### Injection -/

/-- The adaptive mode is open to a header at tile `t` (R187, R247). -/
def Seg.adaptOk (s : Seg) (t : Nat) (h : RHdr) : Bool :=
  h.adapt && s.flag (pgRt t) Reg.ROUTER.RT_CFG_ADAPT_EN && s.flag (pgRt t) (Reg.ROUTER.CLASS_MAP_ADAPT_OK.at h.cls)

/-- The tile and the port by which a local unit injects: a site's L0 or L1, a bank's K. -/
def unitPort (l : Nat) : Nat × Nat :=
  if l < 0x120 then (l / 2, 4 + l % 2) else (bankTile (l - 0x200), 6)

/-- Flits put behind those that wait at a unit's injection port on a plane. -/
def Seg.injectFlits (s : Seg) (l pl : Nat) (fs : List Flit) : Seg :=
  let k := kPort (unitPort l).1 pl (unitPort l).2
  { s with landing := SMap.put [] s.landing k (SMap.get [] s.landing k ++ fs) }

/-- The epoch a unit injects under (R200): an NI's own, a bank's router's. -/
def Seg.unitEpoch (s : Seg) (l : Nat) : BitVec 4 :=
  if l < 0x120 then (s.ni l).epoch else BitVec.ofNat 4 (s.rd (pgRt (unitPort l).1) Reg.ROUTER.RT_EPOCH_CUR)

/-- The time a unit reads: its tile's copy of the FTB (R371). -/
def Seg.unitTime (s : Seg) (l : Nat) : BitVec 64 := s.tftb (unitPort l).1

/-- The EID of a local unit of this segment. -/
def Seg.eid (s : Seg) (l : Nat) : BitVec 12 := mkEid s.strap l

/-- A site and the bank of its own tile whose L0 site it is (R318). -/
def directPair (a b : Nat) : Bool :=
  a < 0x120 && a % 2 == 0 && 0x200 ≤ b && b < 0x248 && bankTile (b - 0x200) == a / 2

/-- A packet that has reached unit `l` and waits to be taken. -/
def Seg.pushIn (s : Seg) (l pl : Nat) (p : Packet) : Seg :=
  s.modEp l fun e => { e with inq := SMap.put [] e.inq pl (SMap.get [] e.inq pl ++ [p]) }

/-- One packet sent by a unit, glazed, on virtual channel `vc`: into its router, or where it is addressed to the unit
itself (R218) or across port B (R318) straight to its endpoint. -/
def Seg.injectPkt (s : Seg) (l vc : Nat) (p : Packet) : Seg :=
  let p := { p with hdr := p.hdr.glaze }
  let d := eidLocal p.hdr.dest
  if eidSeg p.hdr.dest = s.strap ∧ (d = l ∨ directPair l d = true ∨ directPair d l = true) then s.pushIn d p.plane.code p
  else s.injectFlits l p.plane.code (p.flits vc)

/-! ### Acknowledgements (R133, R134, R248) -/

/-- The plane an acknowledgement of a plane's packets travels on. -/
def ackPlane (pl : Nat) : Plane := if pl = 2 then .snp else .rsp

/-- The receive state of packets sent to a twin site after failover has its own keys (R145). -/
def twinKey : Nat := 65536

/-- One acknowledgement from unit `l` to `peer` for the receive state of plane `pl`. -/
def Seg.sendAck (s : Seg) (l : Nat) (peer : BitVec 12) (pl : Nat) (seq : BitVec 16) (grant nack refused resync : Bool) :
    Seg :=
  let aux := b2n grant + 2 * b2n nack + 4 * (pl % 4) + 16 * b2n refused + 32 * b2n resync
  let h : Hdr :=
    { dest := peer, src := s.eid l, type := tCpl, cls := 2, ack := true, seq := seq, epoch := s.unitEpoch l,
      age := ageOf (s.unitTime l), aux := BitVec.ofNat 16 aux, code := cOk, viaTwin := decide (twinKey ≤ pl) }
  s.injectPkt l (if pl % 4 = 2 then 2 else 0) { plane := ackPlane (pl % 4), hdr := h, imm := 0 }

/-- Grants the endpoint holds toward its sources. -/
def Ep.grants (e : Ep) : Nat := (e.recv.filter (fun r => r.2.grant)).length

/-- An acknowledgement of packets, up to SEQ `seq`: to a source without a grant it gives one where one is free and the
packets it acknowledges may earn it (R134). A source that has failed over stays in deterministic mode (R145). -/
def Seg.ackPackets (s : Seg) (l : Nat) (peer : BitVec 12) (pl : Nat) (seq : BitVec 16) (noGrant refused : Bool) : Seg :=
  let e := s.ep l
  let r := e.recvOf peer pl
  let max := if l < 0x120 then min 16 (s.rd (pgNi l) Reg.NI.ADAPT_CFG_GRANT_MAX) else 16
  let want := !r.grant && !noGrant && decide (pl < twinKey)
  let give := want && decide (e.grants < max)
  let s := s.modEp l fun e => e.setRecv peer pl { r with grant := r.grant || give }
  let s := s.sendAck l peer pl seq give false refused false
  if want && !give && decide (l < 0x120) then s.count (pgNi l) 0x878 else s

/-- The deliveries of a source and plane acknowledged. -/
def Seg.ackNow (s : Seg) (l : Nat) (peer : BitVec 12) (pl : Nat) : Seg :=
  let r := (s.ep l).recvOf peer pl
  (s.modEp l fun e => e.setRecv peer pl { r with owed := 0, noGrant := false }).ackPackets l peer pl r.del r.noGrant false

/-- Every source and plane with deliveries not yet acknowledged gets its acknowledgement (R536). -/
def Seg.ackAll (s : Seg) (l : Nat) : Seg :=
  s.each ((s.ep l).recv.filter (fun e => 0 < e.2.owed)) fun s e =>
    s.ackNow l (BitVec.ofNat 12 (e.1 / 4)) (e.1 % 4 + e.1 / twinKey * twinKey)

/-! ### Beats toward the agent (R66, R120–R122) -/

/-- A CPL of the site's own request as one RS beat: header and immediate area (R120). -/
def cplBeat (eid src tag : BitVec 12) (code : BitVec 3) : Beat :=
  let h : Hdr := { dest := eid, src := src, type := tCpl, cls := 2, code := code, tag := tag }
  { bits := (0#768 ++ h.glaze.toBits), cpl := true }

/-- A completion made by the NI itself, put on RS (DECERR, DENIED, POISON, RETRYLOST, STFAIL). -/
def Seg.niCpl (s : Seg) (n : Nat) (src tag : BitVec 12) (code : BitVec 3) : Seg :=
  let s := s.modNi n fun x => { x with rs := x.rs ++ [cplBeat (s.eid n) src tag code] }
  if code = cDecerr then s.count (pgNi n) 0x850 else if code = cDenied then s.count (pgNi n) 0x858 else s

/-! ### Store accounting (R152, R176, R180) -/

/-- The stores a site has buffered: taken and not complete. -/
def Ni.stores (x : Ni) : List Entry := x.store.filter (fun e => isStore e.hdr.type && !e.answer && !e.dead)

/-- The loads a site has taken that are not complete. -/
def Ni.loads (x : Ni) : List Entry := x.store.filter (fun e => isLoad e.hdr.type && !e.answer && !e.dead)

/-! ### NI reset (R177, R178, R298, R536) -/

/-- A beat that stands on an output with VALID 1 while its packet is discarded: it is held as it is until it transfers
(R68), and ends no delivery. -/
def heldBeat (l : List Beat) : List Beat := (l.take 1).map fun b => { b with deliv := none, cpl := false, ld := false }

/-- The CPL of an open fence at an NI reset (R177). -/
def Seg.fenceBeat (s : Seg) (n : Nat) (f : Entry) : Beat :=
  { cplBeat (s.eid n) (s.eid n) f.hdr.tag cRetrylost with fence := true, lost := true }

/-- FENCE_ERR of NI_ORD_STAT (R166): the next fence's CPL will report a loss or a refusal, or one that does is not sent yet. -/
def Ni.fenceErr (x : Ni) : Bool := x.fenceLost || x.fenceRefused || x.rs.any (fun b => b.lost || b.refused)

/-- The reset of the NI of site `n` begins: acknowledgements first, every open fence answered where UP is 1, the discarded
stores recorded, and everything but configuration, bindings, counters and the RST_LOST fields gone. Beats that the agent
already sees stay in front of the fences' CPLs until they transfer. A fence's CPL that is dropped here leaves its report to
the next fence (R166), and so do the stores discarded beside an answered fence: their discard counts as after that CPL
(DESIGN CHOICE, log 110). -/
def Seg.niReset (s : Seg) (n : Nat) : Seg :=
  let x := s.ni n
  if x.resetting then s
  else
    let p := pgNi n
    let s := s.ackAll n
    let fences := x.store.filter (fun e => e.phase == .fence)
    let lost := x.stores
    let answer := x.up && !fences.isEmpty
    let unsent := if answer then x.rs.drop 1 else x.rs
    let wasLost := x.fenceLost || unsent.any (·.lost)
    let s := s.setNi n
      { clk := x.clk, arstN := x.arstN, wake := x.wake, up := x.up, bind := x.bind, epoch := x.epoch,
        ringVer := x.ringVer, hold := x.hold, voted := x.voted, nextId := x.nextId, resetting := true,
        demDests := x.demDests,
        rs := if answer then heldBeat x.rs ++ fences.map (s.fenceBeat n) else [],
        sn := if answer then heldBeat x.sn else [], mgOut := if answer then x.mgOut.take 1 else [],
        fenceRefused := (x.fenceRefused || unsent.any (·.refused)) && !answer,
        fenceLost := (wasLost && !answer) || !lost.isEmpty || (!fences.isEmpty && !answer) }
    let s := s.setEp n { rxLost := true, txFresh := true }
    let s := ((s.wr p Reg.NI.NI_RES_STAT_VALID 0).wr p Reg.NI.NI_RES_STAT_DEST 0).setWord p 0x20C 0
    let s := (s.setWord p 0x210 0).count p 0xA60
    match lost with
    | [] => s
    | o :: _ =>
      let s := (s.wr p Reg.NI.RST_LOST_CNT (min 0xFFFF lost.length)).countBy p 0xA58 lost.length
      let s := if s.flag p Reg.NI.RST_LOST_INFO_VALID then s
        else
          let s := (s.wr p Reg.NI.RST_LOST_INFO_VALID 1).wr p Reg.NI.RST_LOST_INFO_DEST o.hdr.dest.toNat
          s.setWord64 p 0x230 o.hdr.addr
      s.evt p 16 (BitVec.ofNat 32 o.hdr.dest.toNat)

/-! ### A tile after a loss of retention, a kiln run or a wake from OFF (R365–R367, R471, R504) -/

/-- LINK_DN rises at a neighbour of tile `t` through port `p`: `nb` discards what came from `t`, and its outputs toward
`t` are down until a credit-init has come. `t`'s own side waits for the neighbour's credit-init too. -/
def Seg.linkDownAt (s : Seg) (t : Nat) (p : Port) : Seg :=
  let k := t * 8 + p.code
  { s with
    linkDn := SMap.put false s.linkDn k true
    initDue := SMap.put false s.initDue k true }

/-- The links of tile `t` go down on both sides. -/
def Seg.tileLinksDown (s : Seg) (t : Nat) : Seg :=
  s.each [Port.n, .e, .s, .w] fun s p =>
    match neighbour t p with
    | some nb => (s.linkDownAt t p).linkDownAt nb p.facing
    | none => s

/-- Tile `t` resumes with its buffers empty, its NIs reset and its links restarting; its configuration is kept. -/
def Seg.tileRestart (s : Seg) (t : Nat) : Seg :=
  let s := (s.clearTileLinks t).tileLinksDown t
  let s := (s.niReset (2 * t)).niReset (2 * t + 1)
  { s with synced := SMap.put false s.synced t false }

/-! ### The abort of a kiln run (R508) and SOAK (R442) -/

/-- A tested bundle ends its run by retraining with the far side (R440): a saggared one stays in that state until RESTORE
(R441, log 35), one that was not goes on from training. -/
def Seg.kilnBundle (s : Seg) (br b : Nat) : Seg :=
  let st := fun f : Field => s.rd (pgBr br) (f.at8 b)
  let s := s.modBun br b fun x => ({ pairs := x.pairs, stay := x.stay } : Bundle).newTraining s.ftb
  if st Reg.BR.BUNDLE_TX_STATE = 5 || !s.pins.bypOpen then s
  else (s.wr (pgBr br) (Reg.BR.BUNDLE_TX_STATE.at8 b) 1).wr (pgBr br) (Reg.BR.BUNDLE_RX_STATE.at8 b) 1

/-- The tested unit of a run resumes (R440, R504): a tile restarts, an NI is reset, a bank ends zeroed, a bundle retrains. -/
def Seg.kilnEnd (s : Seg) (scope : Bool) (u b : Nat) : Seg :=
  if scope then
    let s := s.each (List.range 144) Seg.tileRestart
    s.each (List.range 72) Seg.zeroed
  else if 0x40 ≤ u ∧ u < 0xD0 then s.tileRestart (u - 0x40)
  else if 0x100 ≤ u ∧ u < 0x148 then s.zeroed (u - 0x100)
  else if 0x200 ≤ u ∧ u < 0x320 then s.niReset (u - 0x200)
  else if u = 0x10 ∨ u = 0x11 then s.kilnBundle (u - 0x10) b
  else s

/-- The run in progress, if any, stops as under ABORT (R508). -/
def Seg.kilnAbort (s : Seg) : Seg :=
  match s.kiln.run with
  | none => s
  | some (_, scope, u, b, _) =>
    let s := { s with kiln := { s.kiln with run := none } }
    let s := (s.wr pgKiln Reg.KILN.KILN_STAT_BUSY 0).wr pgKiln Reg.KILN.KILN_STAT_VERDICT 4
    let s := (s.wr pgKiln Reg.PAGE.PROGRESS_BUSY 0).count pgKiln 0x818
    (s.evt pgKiln 10 (BitVec.ofNat 32 (u + b * 1024))).kilnEnd scope u b

/-- The segment enters SOAK (R442): `off` and `src` go to SOAK_INFO. In SOAK already, nothing changes. -/
def Seg.enterSoak (s : Seg) (off src : Nat) (inj : Bool := false) : Seg :=
  if s.soak then s
  else
    let s := (s.wr pgSeg Reg.SEG.SEG_STAT_SOAK 1).wr pgColl Reg.COLL.COLL_STAT_SOAK 1
    let s := ((s.wr pgColl Reg.COLL.SOAK_INFO_VALID 1).wr pgColl Reg.COLL.SOAK_INFO_OFFSET off).wr pgColl
      Reg.COLL.SOAK_INFO_SRC src
    let synd := s.word pgColl Reg.COLL.SOAK_INFO_VALID.off
    let s := s.setBit pgColl 0x010 13 true
    let good := (s.targets 0xF).filter (fun j => !s.mismatched pgColl (0x130 + 4 * j))
    let s := s.sherdWrite 0 0x85 synd (if good = [] then 1 else 2) false inj
    let s := s.evtAll (good.foldl (fun a j => a + 2 ^ j) 0) 0 0x85 synd 2 false inj (some s.lastSherd)
    let s := (s.abortEntry none).kilnAbort
    s.modCtl fun c => { c with wantMap := false }

end Sys2Proof.Machine
end

