-- ==== Sys2Proof/Machine/Links.lean ====
section
/-!
DEFINITION. The links of the mesh and the edge, a router's buffers, truncation, and links that go down and come back
(R205, R206, R228, R229, R354, R360, R365–R368, R389, R396, R399).
-/
namespace Sys2Proof.Machine

/-! ### Buffers (R10, R354) -/

/-- The flits in the landing FIFO of an input, and in one of its VC buffers. -/
def Seg.landingOf (s : Seg) (t pl i : Nat) : List Flit := SMap.get [] s.landing (kPort t pl i)
def Seg.setLanding (s : Seg) (t pl i : Nat) (q : List Flit) : Seg :=
  { s with landing := SMap.put [] s.landing (kPort t pl i) q }
def Seg.vcq (s : Seg) (t pl i v : Nat) : List Flit := SMap.get [] s.vcbuf (kVc t pl i v)
def Seg.setVcq (s : Seg) (t pl i v : Nat) (q : List Flit) : Seg := { s with vcbuf := SMap.put [] s.vcbuf (kVc t pl i v) q }

/-- The packet at the head of an input VC, or in transfer from it while none of its flits is here. -/
def Seg.headId (s : Seg) (t pl i v : Nat) : Nat :=
  match s.vcq t pl i v with
  | f :: _ => f.id
  | [] => ((s.inFlow.find? (fun e => e.1 == kVc t pl i v)).map (fun e => e.2.id)).getD 0

/-- A packet on its way out of an input VC: its header has crossed, its tail has not. -/
def Seg.thruOf (s : Seg) (t pl i v id : Nat) : Option Thru :=
  (s.inFlow.find? (fun e => e.1 == kVc t pl i v && e.2.id == id)).map (·.2)
def Seg.endThru (s : Seg) (t pl i v id : Nat) : Seg :=
  { s with inFlow := s.inFlow.filter (fun e => !(e.1 == kVc t pl i v && e.2.id == id)) }
def Seg.setThru (s : Seg) (t pl i v : Nat) (x : Thru) : Seg :=
  let s := s.endThru t pl i v x.id
  { s with inFlow := SMap.ins (kVc t pl i v) x s.inFlow }

/-- The transfer that the head of an input VC belongs to. -/
def Seg.thru (s : Seg) (t pl i v : Nat) : Option Thru := s.thruOf t pl i v (s.headId t pl i v)

/-- Who holds an output VC (R220): 0 nobody, else 1 + 8 × input port code + VC. -/
def Seg.vcOwner (s : Seg) (t pl o v : Nat) : Nat := SMap.get 0 s.outVc (kVc t pl o v)
def Seg.setVcOwner (s : Seg) (t pl o v w : Nat) : Seg := { s with outVc := SMap.put 0 s.outVc (kVc t pl o v) w }

/-- The truncated packets of an input VC of which the rest is discarded until the tail comes (R205), with 1 + the port code
of the output each was crossing to, or 0. -/
def Seg.drops (s : Seg) (t pl i v : Nat) : List (Nat × Nat) := SMap.get [] s.dropTail (kVc t pl i v)
def Seg.setDrops (s : Seg) (t pl i v : Nat) (l : List (Nat × Nat)) : Seg :=
  { s with dropTail := SMap.put [] s.dropTail (kVc t pl i v) l }
def Seg.endDrop (s : Seg) (t pl i v id : Nat) : Seg :=
  s.setDrops t pl i v ((s.drops t pl i v).filter (fun d => d.1 != id))
def Seg.addDrop (s : Seg) (t pl i v id o : Nat) : Seg :=
  let s := s.endDrop t pl i v id
  s.setDrops t pl i v (s.drops t pl i v ++ [(id, o)])

/-- The arbiter of an output changed by `f`. -/
def Seg.modOut (s : Seg) (t pl o : Nat) (f : OutArb → OutArb) : Seg := s.setOut t pl o (f (s.out t pl o))

/-! ### Credits (R360) -/

/-- `n` slots of an input VC buffer freed: its gray counter moves on. -/
def Seg.freeSlots (s : Seg) (t pl i v n : Nat) : Seg :=
  { s with freed := SMap.put 0 s.freed (kVc t pl i v) ((SMap.get 0 s.freed (kVc t pl i v) + n) % 8) }

/-- The first `n` flits of a VC buffer gone. -/
def Seg.popFlits (s : Seg) (t pl i v n : Nat) : Seg := (s.setVcq t pl i v ((s.vcq t pl i v).drop n)).freeSlots t pl i v n

/-- The plane of a plane number. -/
def planeOf (pl : Nat) : Plane := (([Plane.req, .rsp, .snp])[pl]?).getD .mgt

/-- Credits toward the next router. -/
def Seg.credits (s : Seg) (t pl o v : Nat) : Nat := SMap.get (vcDepth (planeOf pl) v) s.cred (kVc t pl o v)
def Seg.setCredits (s : Seg) (t pl o v n : Nat) : Seg :=
  { s with cred := SMap.put (vcDepth (planeOf pl) v) s.cred (kVc t pl o v) n }

/-- The credits an output has been given back since it last looked, never beyond the depth (R360). On the VCs `lost` the two
samples lie too far apart: they are discarded, which counts. -/
def Seg.acceptCredits (s : Seg) (t pl : Nat) (p : Port) (lost : List (Fin 6)) : Seg :=
  match neighbour t p with
  | none => s
  | some nb => s.each (List.range 6) fun s v =>
      let now := SMap.get 0 s.freed (kVc nb pl p.facing.code v)
      let old := SMap.get 0 s.seenGray (kVc t pl p.code v)
      if now = old then s
      else if lost.any (fun w => w.val == v) then (s.count pgClk 0x818).evt pgClk 10 (tileSynd t)
      else
        let s := s.setCredits t pl p.code v (min (vcDepth (planeOf pl) v) (s.credits t pl p.code v + (now + 8 - old) % 8))
        { s with seenGray := SMap.put 0 s.seenGray (kVc t pl p.code v) now }

/-! ### Sampling paths (R354, R355) -/

/-- The path a link's receiver uses between tiles `t` and `u`, where `margin` is the strobe phase margin it measures in ps. -/
def Seg.pathDue (s : Seg) (t u margin : Nat) : Nat :=
  let steady := fun x => !SMap.get false s.dcoLost x && (let st := s.rd pgClk (Reg.CLK.CLK_TILE_STATE.at x)
    st == 1 || st == 4 || st == 5 || st == 6)
  if !steady t || !steady u then 0
  else if s.isAligned t && s.isAligned u then 2
  else if s.flag pgClk Reg.CLK.CLK_SAMP_FAST_EN
      && decide (max 20 (min 120 (s.rd pgClk Reg.CLK.CLK_SAMP_MARGIN)) ≤ margin) then 1
  else 0

/-- A receiver changes its path only while its landing FIFO is empty; a change to the two-flop path counts (R355). -/
def Seg.samplePath (s : Seg) (t pl i margin : Nat) : Seg :=
  match (Port.all[i]?).bind (neighbour t) with
  | none => s
  | some u =>
    if !(s.landingOf t pl i).isEmpty then s
    else
      let k := t * 32 + pl * 8 + i
      let new := s.pathDue t u margin
      let s' := { s with samp := SMap.put 0 s.samp k new }
      if SMap.get 0 s.samp k ≠ 0 ∧ new = 0 then s'.count pgClk 0x808 else s'

/-! ### Bundles at an edge (R7, R377, R389, R411) -/

/-- Depths of a bundle's receive buffers (R389). -/
def bunDepth (pl : Plane) (v : Nat) : Nat :=
  match pl, v with
  | .mgt, 0 => 8
  | .mgt, 4 | .mgt, 5 => 2
  | .mgt, _ => 0
  | .snp, 3 => 0
  | _, 0 => 8
  | _, 1 | _, 2 => if pl == .snp then 8 else 16
  | _, 3 => 8
  | _, 4 | _, 5 => 4
  | _, _ => 0

/-- Credits of a bundle's transmit half for a VC. -/
def Bundle.credit (x : Bundle) (pl v : Nat) : Nat := SMap.get (bunDepth (planeOf pl) v) x.cred (8 * pl + v)
def Bundle.waiting (x : Bundle) (pl v : Nat) : List (Flit × BitVec 9) := SMap.get [] x.txq (8 * pl + v)
def Bundle.got (x : Bundle) (pl v : Nat) : List (Flit × BitVec 9) := SMap.get [] x.rxbuf (8 * pl + v)

/-- State of both halves of bundle `b` of bridge `br` (R411): 0 down, 1 training, 2 full, 3 half, 4 asleep, 5 saggared. -/
def Seg.bunTx (s : Seg) (br b : Nat) : Nat := s.rd (pgBr br) (Reg.BR.BUNDLE_TX_STATE.at8 b)
def Seg.bunRx (s : Seg) (br b : Nat) : Nat := s.rd (pgBr br) (Reg.BR.BUNDLE_RX_STATE.at8 b)
def Seg.setBunTx (s : Seg) (br b v : Nat) : Seg := s.wr (pgBr br) (Reg.BR.BUNDLE_TX_STATE.at8 b) v
def Seg.setBunRx (s : Seg) (br b v : Nat) : Seg := s.wr (pgBr br) (Reg.BR.BUNDLE_RX_STATE.at8 b) v

/-- Whether row `y` is usable for bridge `br` (R185): a bundle that is not saggared, and an edge tile outside every
region. -/
def Seg.rowOk (s : Seg) (br y : Nat) : Bool :=
  (s.bunTx br (2 * y) != 5 || s.bunTx br (2 * y + 1) != 5) && !s.fenced (tileOf (if br = 0 then 11 else 0) y)

/-- The row mask of bridge `br`, 12 bits (R185). -/
def Seg.rowMask (s : Seg) (br : Nat) : Nat := (List.range 12).foldl (fun a y => a + b2n (s.rowOk br y) * 2 ^ y) 0

/-- BR_STAT.ROWS brought up to date. -/
def Seg.noteRows (s : Seg) (br : Nat) : Seg := s.wr (pgBr br) Reg.BR.BR_STAT_ROWS (s.rowMask br)

/-- The edge tile and port of a bundle (R7). -/
def edgeTile (br b : Nat) : Nat := tileOf (if br = 0 then 11 else 0) (b / 2)
def edgePort (br : Nat) : Port := if br = 0 then .e else .w

/-! ### Link state (R365, R367, R368) -/

/-- A link carries traffic: both LINK_DN levels are 0 and each side has the other's credit-init. -/
def Seg.linkUp (s : Seg) (t : Nat) (p : Port) (nb : Nat) : Bool :=
  let k := t * 8 + p.code
  let j := nb * 8 + p.facing.code
  !SMap.get false s.linkDn k && !SMap.get false s.initDue k && !SMap.get false s.linkDn j && !SMap.get false s.initDue j

/-- Tile `t` as a neighbour is asleep on its links (R368). -/
def Seg.linkSleeps (s : Seg) (t : Nat) : Bool := decide (s.stTile t = 2) || decide (s.stTile t = 3) || decide (s.stTile t = 6)

/-- The view a router holds for an epoch, if that epoch is live there (R199, R201). -/
def Seg.viewOf (s : Seg) (t : Nat) (e : BitVec 4) : Option FenceMap :=
  let p := pgRt t
  if s.rd p Reg.ROUTER.RT_EPOCH_CUR = e.toNat then some (s.mapOf e)
  else if s.flag p Reg.ROUTER.RT_EPOCH_PREV_LIVE && s.rd p Reg.ROUTER.RT_EPOCH_PREV == e.toNat then some (s.mapOf e)
  else none

/-- The router's current view. -/
def Seg.curView (s : Seg) (t : Nat) : FenceMap := s.mapOf (BitVec.ofNat 4 (s.rd (pgRt t) Reg.ROUTER.RT_EPOCH_CUR))

/-- What lies beyond an output can take flits: R205's first condition does not hold of it. -/
def Seg.outHealthy (s : Seg) (t : Nat) (p : Port) (second : Bool) : Bool :=
  match portBridge t p with
  | some br => let st := s.bunTx br (2 * tileY t + b2n second); st != 5 && st != 0
  | none =>
    match neighbour t p with
    | some nb => !(s.curView t).tile nb && s.linkUp t p nb
    | none => true

/-! ### Truncation (R205, R206, R228) -/

/-- The flits of a truncated packet: those of its copy on VC3, else those up to the first tail. -/
def packetPart (v id : Nat) (q : List Flit) : List Flit × List Flit :=
  if v = 3 then (q.filter (fun f => f.id == id), q.filter (fun f => f.id != id))
  else match q.findIdx? (·.tail) with
    | some j => (q.take (j + 1), q.drop (j + 1))
    | none => (q, [])

/-- What has come of a truncated packet in an input VC discarded, with its buffers returned; what has not is discarded as it
comes. Toward output `o` (1 + port code) the drain engine owes a cycle for each flit (R230). -/
def Seg.discardRest (s : Seg) (t pl i v id o : Nat) : Seg :=
  let (gone, left) := packetPart v id (s.vcq t pl i v)
  let s := (s.setVcq t pl i v left).freeSlots t pl i v gone.length
  let s := s.when (o != 0) fun s =>
    s.modOut t pl (o - 1) fun x => { x with drain := x.drain ++ List.replicate gone.length none }
  if gone.any (·.tail) then s else s.addDrop t pl i v id o

/-- A grant is for the flit at the head of an input VC. -/
def Grant.isFor (g : Grant) (i v : Nat) : Bool :=
  match g with
  | .bg a b => a == i && b == v
  | .slot a _ => a == i && v == 3
  | _ => false

/-- A grant decided for the head of an input VC and not yet used is withdrawn, and its cycle carries nothing (R228). -/
def Seg.withdraw (s : Seg) (t pl i v : Nat) : Seg :=
  s.each (List.range 7) fun s o =>
    match (s.out t pl o).next with
    | some g =>
      if g.isFor i v then
        (s.modOut t pl o fun x => { x with next := some .empty }).countV (pgRt t) 4 (0x818 + 0x80 * o + 0x20 * pl) 1
      else s
    | none => s

/-- The syndrome of a router's event: the port code of the input or output concerned, the plane and the VC (R421). -/
def rtSynd (port pl v : Nat) : Word := BitVec.ofNat 32 (port % 8 + 16 * (pl % 4) + 64 * (v % 8))

/-- One truncation of input VC `v` of input `i` counted (R205, R215); `inj` where an injection caused it (R446). -/
def Seg.noteTrunc (s : Seg) (t pl i v : Nat) (inj : Bool := false) : Seg :=
  (s.count (pgRt t) (0xC20 + 0x40 * pl)).evt (pgRt t) 9 (rtSynd i pl v) inj

/-- The reads of a broadcast at tile `t`'s landing FIFO (R361): disagreements and a failure are counted, and the packet of a
flit that fails is truncated, to be sent again. -/
def Seg.readBroadcast (s : Seg) (t : Nat) (reads : List (Fin 4)) : Seg :=
  let s := s.countBy pgClk 0x810 (readTwice reads).1
  if !(readTwice reads).2 then s
  else
    let s := (s.count pgClk 0x818).evt pgClk 10 (tileSynd t)
    ((s.count (pgRt t) (0xC28 + 0x40 * 3)).evt (pgRt t) 8 (rtSynd 0 3 0)).noteTrunc t 3 0 0

/-- What a truncated packet held of its output is given up; a forced tail is owed where its header has passed to a healthy
router. -/
def Seg.dropThru (s : Seg) (t pl i v id : Nat) : Seg :=
  match s.thruOf t pl i v id with
  | none => s
  | some r =>
    let s := s.endThru t pl i v id
    let s := s.modOut t pl r.out fun x => { x with runs := x.runs.filter (fun y => !(y.inp == i && y.id == id && v == 3)) }
    if s.outHealthy t ((Port.all[r.out]?).getD .k) r.second then
      s.modOut t pl r.out fun x => { x with drain := x.drain ++ [some (8 * i + r.vc, r.second, r.id)] }
    else if r.vc = 3 then s else s.setVcOwner t pl r.out r.vc 0

/-- The wait of the flit at the head of an input VC at output `o`, in cycles (R225). -/
def Seg.waitOf (s : Seg) (t pl i v o : Nat) : Nat := SMap.get 0 s.waits (8 * kVc t pl i v + o)
def Seg.setWait (s : Seg) (t pl i v o n : Nat) : Seg := { s with waits := SMap.put 0 s.waits (8 * kVc t pl i v + o) n }

/-- The waits of the flit at the head of an input VC end, at every output. -/
def Seg.endWaits (s : Seg) (t pl i v : Nat) : Seg := { s with waits := s.waits.filter (fun e => e.1 / 8 != kVc t pl i v) }

/-- Packet `id` of an input VC, at its head or in transfer from it, is truncated. A head's grant is withdrawn, and its wait
ends with it. -/
def Seg.truncateId (s : Seg) (t pl i v id : Nat) (inj : Bool := false) : Seg :=
  let o := match s.thruOf t pl i v id with | some r => r.out + 1 | none => 0
  let s := if s.headId t pl i v = id then (s.withdraw t pl i v).endWaits t pl i v else s
  ((s.dropThru t pl i v id).discardRest t pl i v id o).noteTrunc t pl i v inj

/-- The packet at the head of an input VC, or in transfer from it, is truncated. -/
def Seg.truncate (s : Seg) (t pl i v : Nat) : Seg := s.truncateId t pl i v (s.headId t pl i v)

/-- The flits of a list whose packet's tail is not in it: after the last tail, and on VC3 by copy. -/
def openEnd : List Flit → List Flit
  | [] => []
  | f :: fs => if (f :: fs).any (fun e => e.tail && e.id == f.id) then openEnd fs else f :: openEnd fs

/-- What has come through an input VC of packets whose tail has not come is discarded (R366 step 1). -/
def Seg.cutVc (s : Seg) (t pl i v : Nat) : Seg :=
  let q := s.vcq t pl i v
  let ids := ((openEnd q).map (·.id) ++ (s.inFlow.filter fun e =>
    e.1 == kVc t pl i v && !q.any (fun f => f.tail && f.id == e.2.id)).map (fun e => e.2.id)).eraseDups
  let s := s.each ids fun s id =>
    if v = 3 || (s.thruOf t pl i v id).isSome && !q.any (·.tail) || (openEnd q).length == q.length then
      s.truncateId t pl i v id
    else (s.setVcq t pl i v (q.take (q.length - (openEnd q).length))).noteTrunc t pl i v
  s.setDrops t pl i v []

/-- Packets in transfer to bundle `b` are truncated. -/
def Seg.cutTo (s : Seg) (br b : Nat) : Seg :=
  let t := edgeTile br b
  let mine := s.inFlow.filter fun e =>
    e.1 / 256 == t && e.2.out == (edgePort br).code && e.2.second == (b % 2 == 1)
  s.each mine fun s e => s.truncateId t (e.1 / 64 % 4) (e.1 / 8 % 8) (e.1 % 8) e.2.id

/-- Packets in transfer from bundle `b` are truncated: those on the receive VCs of `mid`. -/
def Seg.cutFrom (s : Seg) (br b : Nat) (mid : List (Nat × Bool)) : Seg :=
  s.each mid fun s e => s.cutVc (edgeTile br b) (e.1 / 8) (edgePort br).code (e.1 % 8)

/-- Both halves of bundle `b` fail as at LINK_DN (R366, R396): its frames and buffers go, packets in transfer to or from it
are truncated, and pairs leave it. -/
def Seg.cutBundle (s : Seg) (br b : Nat) (keep : Bundle → Bundle) : Seg :=
  let mid := (s.bun br b).mid
  ((s.setBun br b (keep (s.bun br b))).cutFrom br b mid).cutTo br b

/-- A bundle saggared (R396, R425); its bridge's KILN_PASS falls (R440). -/
def Seg.bundleSaggar (s : Seg) (br b : Nat) : Seg :=
  let s := ((s.setBunTx br b 5).setBunRx br b 5).modSrc (0x10 + br) fun x => { x with kilnPass := false }
  (s.cutBundle br b fun _ => {}).noteRows br

/-! ### Commands -/

/-- LINK_DN_RISE (R205, R366): what came through the port of packets without a tail is discarded, the link stops, and
packets in transfer toward it are truncated. -/
def execLinkDnRise (g : Fin 4) (tile : Fin 144) (port : Port) (s : State) : Result :=
  match neighbour tile port with
  | none => .fault .absentUnit
  | some _ => onSeg s g fun s =>
    let t := tile.val
    let o := port.code
    if decide (s.stTile t = 4) then s
    else
      let s := s.linkDownAt t port
      let s := s.each (List.range 4) fun s pl =>
        (s.each (List.range 6) fun s v => s.cutVc t pl o v).setLanding t pl o []
      let mine := s.inFlow.filter fun e => e.1 / 256 == t && e.2.out == o
      let s := s.each mine fun s e => s.truncateId t (e.1 / 64 % 4) (e.1 / 8 % 8) (e.1 % 8) e.2.id
      ((s.count (pgRt t) 0xD18).count pgClk 0x828).evt (pgRt t) 14 (rtSynd o 0 0)

/-- CREDIT_INIT_RECEIVE (R367): credits toward the sender are its depths again, and the gray counters and the values accepted
of them stand at 0. -/
def execCreditInitReceive (g : Fin 4) (tile : Fin 144) (port : Port) (s : State) : Result :=
  match neighbour tile port with
  | none => .fault .absentUnit
  | some nb => onSeg s g fun s =>
    let t := tile.val
    let k := t * 8 + port.code
    if decide (s.stTile t = 4) || decide (s.stTile nb = 4) || s.kilnIsolates (srcRt nb) then s
    else
      let mine := fun e : Nat => e / 256 == t && e / 8 % 8 == port.code
      { s with
        linkDn := SMap.put false s.linkDn k false
        initDue := SMap.put false s.initDue k false
        cred := s.cred.filter (fun e => !mine e.1)
        seenGray := s.seenGray.filter (fun e => !mine e.1)
        freed := s.freed.filter (fun e => !(e.1 / 256 == nb && e.1 / 8 % 8 == port.facing.code)) }

end Sys2Proof.Machine
end

