-- ==== Sys2Proof/Machine/RingState.lean ====
section
/-!
DEFINITION. The ring state as a segment holds it: its own bridges' view, the reports it makes of them, and the anchor's next
state (R185, R265, R402, R403, R408, R430).
-/
namespace Sys2Proof.Machine

/-! ### The bridges as this segment sees them (R386, R403, R411) -/

/-- The lowest-numbered bundle at full width in both directions (R386). -/
def Seg.timeBundle (s : Seg) (br : Nat) : Option Nat :=
  (List.range 24).find? fun b => s.bunTx br b == 2 && s.bunRx br b == 2

/-- The next joined segment clockwise or anticlockwise of `a` in a set, `a` itself not counted. -/
def nextJoined (set : BitVec 4) (a : Nat) (cw : Bool) : Option Nat :=
  ([1, 2, 3].map fun d => (a + (if cw then d else 4 - d)) % 4).find? fun n => set.getLsbD n

/-- The pair of bridge `br`, named by the joined segment whose BR0 it leaves; of a segment that has no other joined one, by
what it faces. -/
def Seg.pairNo (s : Seg) (br : Nat) : Nat :=
  if br = 0 then s.strap
  else match nextJoined s.ctl.ring.joined s.strap false with
    | some n => n
    | none => if s.flag (pgBr 1) Reg.BR.BR_STAT_FAR_VALID then s.rd (pgBr 1) Reg.BR.BR_STAT_FAR_SEG else (s.strap + 3) % 4

/-- The pair of bridge `br` is trained and open (R403, R410). -/
def Seg.pairOpen (s : Seg) (br : Nat) : Bool := (s.br br).up && !s.ctl.ring.pairClosed (s.pairNo br)

/-- The bundle a LANE_CMD named is still in training (R411). -/
def Seg.laneRuns (s : Seg) (br : Nat) : Bool :=
  match (s.br br).laneRun with | some b => s.bunTx br b == 1 || s.bunRx br b == 1 | none => false

/-- BR_STAT and LANE_CMD.BUSY brought up to date: time bundle, rows, and PAIR_UP, which a closed pair does not show (R403). -/
def Seg.noteBridge (s : Seg) (br : Nat) : Seg :=
  let s := s.wr (pgBr br) Reg.BR.BR_STAT_TIME_BUNDLE ((s.timeBundle br).getD 0)
  let s := s.wr (pgBr br) Reg.BR.LANE_CMD_BUSY (b2n (s.laneRuns br))
  (s.wr (pgBr br) Reg.BR.BR_STAT_PAIR_UP (b2n (s.pairOpen br))).noteRows br

/-- A ring control packet of this segment waits for the time bundle of bridge `br` (R386). -/
def Seg.ringMsg (s : Seg) (br : Nat) (pay : List (BitVec 64)) : Seg :=
  let c := mkEid s.strap 0x3F0
  let h : MgtHdr := { dest := c, src := c, type := tEvt, fab := true, len := BitVec.ofNat 3 pay.length, epoch := s.ctl.epoch }
  s.setBr br { s.br br with msgs := (s.br br).msgs ++ [h.glaze.toBits :: pay] }

/-- The segment is joined. -/
def Seg.joined (s : Seg) : Bool := s.flag pgSeg Reg.SEG.SEG_ID_JOINED

/-- The segment is the anchor. -/
def Seg.isAnchor (s : Seg) : Bool := s.flag pgSeg Reg.SEG.SEG_ID_ANCHOR

/-- A control packet to the anchor, by the side its parent is on: the manual gives no payload for it. -/
def Seg.tellAnchor (s : Seg) : Seg :=
  let side := s.rd (pgBr 0) Reg.BR.RING_STAT_PARENT
  if side = 0 then s else s.ringMsg (side - 1) []

/-! ### Adopting (R201, R402, R407) -/

/-- The side by which segment `a` of a ring state reaches segment `b` in fewer crossings of open pairs: 1 BR0, 2 BR1, a tie
to BR1; 0 where neither leads there (R409). -/
def parentSide (r : Ring) (a b : Nat) : Nat :=
  let d0 := (cwPairs r a b).length
  let d1 := (ccwPairs r a b).length
  let o0 := (cwPairs r a b).all (fun p => !r.pairClosed p)
  let o1 := (ccwPairs r a b).all (fun p => !r.pairClosed p)
  if a = b then 0 else if o0 && (!o1 || decide (d0 < d1)) then 1 else if o1 then 2 else 0

/-- The pairs on which a joined segment of another anchor was met (R406). -/
def Seg.parted (s : Seg) : BitVec 4 :=
  [0, 1].foldl (fun m br => if s.ctl.partSides.getLsbD br then m ||| BitVec.ofNat 4 (2 ^ s.pairNo br) else m) 0

/-- The ring state `r` becomes the one this segment holds, its adoption due with the next epoch (R201, R402, R407). A pair that
met a segment of another anchor stays closed (R406). -/
def Seg.adoptRing (s : Seg) (r : Ring) : Seg :=
  let old := s.ctl.ring
  let p := pgBr 0
  let r := { r with closed := r.closed ||| s.parted }
  let me := r.joined.getLsbD s.strap
  let s := (s.modCtl fun c => { c with ring := r }).heal p 0x128
  let s := (s.wr p Reg.BR.RING_STAT_RING_VER r.ver.toNat).wr p Reg.BR.RING_STAT_CLOSED r.closed.toNat
  let s := (s.wr p Reg.BR.RING_STAT_JOINED_SET r.joined.toNat).wr p Reg.BR.RING_STAT_ANCHOR_VALID (b2n r.anchorValid)
  let s := s.wr p Reg.BR.RING_STAT_ANCHOR_SEG r.anchor.val
  let s := s.wr p Reg.BR.RING_STAT_PARENT (if me && r.anchorValid then parentSide r s.strap r.anchor.val else 0)
  let s := (s.wr pgSeg Reg.SEG.SEG_ID_JOINED (b2n me)).wr pgSeg Reg.SEG.SEG_ID_ANCHOR
    (b2n (me && r.anchorValid && r.anchor.val == s.strap))
  let s := s.each [0, 1] fun s br =>
    (s.wr (pgBr br) Reg.BR.BR_STAT_C1_SUSP (b2n (r.susp.getLsbD (s.pairNo br)))).noteBridge br
  let s := s.when (old.anchorValid != r.anchorValid || old.anchor != r.anchor) fun s => (s.count p 0x900).evt p 18
  s.when (old.ver != r.ver) fun s => s.count p 0x908

/-- A control packet of the ring on each pair that is up. The manual gives no payload for it. -/
def Seg.ringSend (s : Seg) : Seg := s.each [0, 1] fun s br => if (s.br br).up then s.ringMsg br [] else s

/-- The anchor's next ring state, adopted and sent (R402). -/
def Seg.anchorSends (s : Seg) (r : Ring) : Seg := (s.adoptRing { r with ver := s.ctl.ring.ver + 1 }).ringSend

/-- The segment holds ring version `v` and all of it has adopted it: its maps stand under it, with every router and NI (R201,
R402). -/
def Seg.hasAdopted (s : Seg) (v : BitVec 8) : Bool :=
  s.ctl.ring.ver == v && s.map.ringVer == v && s.ctl.adoptDue.isEmpty && s.ctl.ringDue.isEmpty

/-! ### Reports (R185, R265, R402, R403) -/

/-- A 12-bit mask put in place of segment `g`'s. -/
def putRows (m : BitVec 48) (g : Nat) (v : BitVec 12) : BitVec 48 :=
  (m &&& ~~~(BitVec.ofNat 48 (4095 * 2 ^ (12 * g)))) ||| BitVec.ofNat 48 (v.toNat * 2 ^ (12 * g))

/-- The full-width bits of pair `p` replaced. -/
def putFull (m : BitVec 192) (p : Nat) (v : BitVec 48) : BitVec 192 :=
  (m &&& ~~~(BitVec.ofNat 192 ((2 ^ 48 - 1) * 2 ^ (48 * p)))) ||| BitVec.ofNat 192 (v.toNat * 2 ^ (48 * p))

/-- One bit of a 4-bit mask. -/
def putBit4 (m : BitVec 4) (i : Nat) (b : Bool) : BitVec 4 :=
  if b then m ||| BitVec.ofNat 4 (2 ^ i) else m &&& ~~~(BitVec.ofNat 4 (2 ^ i))

/-- Down and time-lost bits as each segment last reported them, bit 0 of its BR0 side and bit 1 of its BR1 side. -/
abbrev Ends := List (Nat × BitVec 2 × BitVec 2)

/-- An end of pair `p` says so: BR0 of `p`, or BR1 of the next joined segment. -/
def endSays (set : BitVec 4) (said : Nat → BitVec 2) (p : Nat) : Bool :=
  (said p).getLsbD 0 || (said ((nextJoined set p true).getD p)).getLsbD 1

/-- Pair `p` is closed (R403): an end says it is down, it is being admitted, or no row of it is usable at both ends. -/
def Ring.shut (r : Ring) (ends : Ends) (admitting : Option Nat) (p : Nat) : Bool :=
  let down := fun g => (SMap.get (0, 0) ends g).1
  endSays r.joined down p || admitting == some p || (List.range 12).all fun y => !rowUsable r r.br0Rows r.br1Rows [p] y

/-- The anchor's ring state with what a segment reports of its own bridges (R265, R402, R403). Pairs are judged by what both
of their ends have reported, this report among `ends`. -/
def Ring.report (r : Ring) (ends : Ends) (admitting : Option Nat) (rep : RingReport) : Ring :=
  let a := rep.seg.val
  let b := (nextJoined r.joined a false).getD a
  let r : Ring := { r with
    br0Rows := putRows r.br0Rows a rep.br0Rows
    br1Rows := putRows r.br1Rows a rep.br1Rows
    full := putFull (putFull r.full a rep.full0) b rep.full1
    regions := r.regions.filter (fun q => q.1 != a) ++ rep.regions.map fun q => (a, q) }
  let lost := fun g => (SMap.get (0, 0) ends g).2
  { r with
    closed := putBit4 (putBit4 r.closed a (r.shut ends admitting a)) b (r.shut ends admitting b)
    susp := putBit4 (putBit4 r.susp a (endSays r.joined lost a)) b (endSays r.joined lost b) }

/-- The reports with a segment's newest. -/
def Ends.take (e : Ends) (rep : RingReport) : Ends := SMap.put (0, 0) e rep.seg.val (rep.down, rep.lost)

/-- A half carries its stream at full width; one at its sleep boundary keeps its lane map (R203, R395). -/
def fullWidth (st : Nat) (keep : Bool) (map : BitVec 17) : Bool :=
  st == 2 || ((st == 4 || (st == 1 && keep)) && decide (16 ≤ ones 17 map.toNat))

/-- A side of this segment carries no pair of the ring: it is down, it met a segment of another anchor, or it faces a segment
that is not joined (R403, R406). -/
def Seg.sideDown (s : Seg) (br : Nat) : Bool :=
  !(s.br br).up || s.ctl.partSides.getLsbD br
    || (s.flag (pgBr br) Reg.BR.BR_STAT_FAR_VALID && !s.ctl.ring.joined.getLsbD (s.rd (pgBr br) Reg.BR.BR_STAT_FAR_SEG))

/-- What this segment reports of its own bridges and map. -/
def Seg.ownReport (s : Seg) : RingReport :=
  let bits := fun (br : Nat) (txBit : Nat) => BitVec.ofNat 48 ((List.range 24).foldl (fun a b =>
    let x := s.bun br b
    a + b2n (fullWidth (s.bunTx br b) x.keepTx x.txMap) * 2 ^ (2 * b + txBit)
      + b2n (fullWidth (s.bunRx br b) x.keepRx x.rxMap) * 2 ^ (2 * b + 1 - txBit)) 0)
  let pair := fun f : Nat → Bool => BitVec.ofNat 2 (b2n (f 0) + 2 * b2n (f 1))
  { seg := Fin.ofNat 4 s.strap, br0Rows := BitVec.ofNat 12 (s.rowMask 0), br1Rows := BitVec.ofNat 12 (s.rowMask 1)
    full0 := bits 0 0, full1 := bits 1 1, down := pair s.sideDown
    lost := pair fun br => s.flag (pgBr br) Reg.BR.BR_STAT_TIME_LOST, regions := s.map.rects }

/-- The anchor's next ring state is `f` of the one it holds, and is sent (R402). While it rebuilds a mismatched one it is `f` of
what it has so far, and is sent once no segment's report is awaited; `n` is awaited no more (R430). -/
def Seg.nextRing (s : Seg) (n : Nat) (f : Ring → Ring) : Seg :=
  match s.ctl.rebuild with
  | none => s.anchorSends (f s.ctl.ring)
  | some (ask, r) =>
    let ask := ask.filter (· != n)
    let s := s.modCtl fun c => { c with rebuild := if ask.isEmpty then none else some (ask, f r) }
    if ask.isEmpty then s.anchorSends (f r) else s

/-- The anchor takes a report, with whoever made it among the joined segments (R402, R405). -/
def Seg.takeReport (s : Seg) (rep : RingReport) : Seg :=
  let ends := Ends.take s.ctl.ends rep
  let adm := s.ctl.admitting
  (s.modCtl fun c => { c with ends := ends }).nextRing rep.seg fun r =>
    Ring.report { r with joined := putBit4 r.joined rep.seg true } ends adm rep

/-- A change of the segment's own bridges or rows is reported (R185, R402): the anchor makes its next state of it, another
segment tells the anchor. Nothing is sent where the ring state says it already. -/
def Seg.reportRing (s : Seg) : Seg :=
  let rep := s.ownReport
  let ends := Ends.take s.ctl.ends rep
  if !s.joined || (s.ctl.ring.report ends s.ctl.admitting rep == s.ctl.ring && ends == s.ctl.ends) then s
  else if s.isAnchor then s.takeReport rep
  else (s.modCtl fun c => { c with ends := ends }).tellAnchor

/-- The anchor's own ring state is mismatched: every joined segment is to report its bridges again (R430). -/
def Seg.ringRebuild (s : Seg) : Seg :=
  let rep := s.ownReport
  let ends := Ends.take s.ctl.ends rep
  let s := s.modCtl fun c => { c with ends := ends }
  let r := s.ctl.ring.report ends s.ctl.admitting rep
  let ask := r.members.filter (· != s.strap)
  if ask.isEmpty then s.anchorSends r else (s.modCtl fun c => { c with rebuild := some (ask, r) }).ringSend

/-- A command on the bridges of segment `g`, whose change of them is reported. -/
def onBridge (s : State) (g : Fin 4) (f : Seg → Seg) : Result := onSeg s g fun s => (f s).reportRing

end Sys2Proof.Machine
end

