-- ==== Sys2Proof/Machine/Collector.lean ====
section
/-!
DEFINITION. The collector (R414–R449): kinds of cause, classification, reactions, clearing, SOAK, and glaze mismatches.
-/
namespace Sys2Proof.Machine

/-! ### Kinds of cause (R419, R420, R475, R493, R515) -/

def kInfo : Nat := 0
def kConfig : Nat := 1
def kFault : Nat := 2
def kFatal : Nat := 3

/-- The kind given by lists of the FATAL, FAULT and CONFIG bits of a page. -/
def kindIn (fatal fault config : List Nat) (b : Nat) : Nat :=
  if fatal.contains b then kFatal else if fault.contains b then kFault else if config.contains b then kConfig else kInfo

/-- The kind of PAGE_EVT bit `b` of source `src`; `sel` is cause bits [6:5]. -/
def pageKindOf (src sel b : Nat) : Nat :=
  if b = 0 then kInfo else if b = 1 then kConfig
  else if 0x200 ≤ src then kindIn [9] [8, 11] [12, 25] b
  else if 0x100 ≤ src then kindIn [12] [9, 16] [] b
  else if 0x40 ≤ src then kindIn [10] [8, 13] [20, 21, 22] b
  else if 0x18 ≤ src then kindIn [12, 17] [13] [] b
  else if 0x10 ≤ src then kindIn [11, 20] [10, 12, 21] [19] b
  else if src = 1 ∨ src = 4 then kindIn [15, 18] [16] [] b
  else if src = 2 then kindIn [13, 14] [8, 10] [] b
  else if src = 3 then kindIn [11] [13] [15] b
  else if src = 5 then (if sel = 1 then kindIn [11] [] [9] b else kindIn [9] [8] [] b)
  else if src = 6 then kindIn [9] [] [8] b
  else kInfo

/-- The kind of an event's cause; the injector's own cause takes INJ_CTRL.KIND (R420, R446). -/
def Seg.causeKind (s : Seg) (src : Nat) (cause : Byte) : Nat :=
  let c := cause.toNat
  if c < 0x80 then pageKindOf src (c / 32) (c % 32)
  else if c ≤ 0x83 then kFatal
  else if c = 0x84 then s.rd pgColl Reg.COLL.INJ_CTRL_KIND
  else kInfo

/-! ### A source's configuration (R422, R425, R447) -/

def cfgN (w : Word) : Nat := max 1 (Reg.COLL.SRC_CFG_N.get w)
def cfgW (w : Word) : Nat := max 1 (Reg.COLL.SRC_CFG_W.get w)
/-- REACT: 0 log, 1 log and notify, 2 saggar and notify; 3 acts as 1. -/
def cfgReact (w : Word) : Nat := let r := Reg.COLL.SRC_CFG_REACT.get w; if r = 3 then 1 else r
def cfgMask (w : Word) : Nat := Reg.COLL.SRC_CFG_TGT.get w
def cfgSherdAll (w : Word) : Bool := Reg.COLL.SRC_CFG_SHERD_ALL.get w == 1

/-! ### Severity -/

/-- SEVERE of source `src` set or cleared, with the counts of COLL_STAT that show it. -/
def Seg.setSevere (s : Seg) (src : Nat) (b : Bool) : Seg :=
  let s := s.modSrc src fun x => { x with severe := b }
  let k := (s.srcs.filter (fun e => e.2.severe)).length
  (s.wr pgColl Reg.COLL.COLL_STAT_SEVERE_N k).wr pgColl Reg.COLL.COLL_STAT_ANY_SEVERE (b2n (decide (0 < k)))

/-! ### Saggars (R425–R429, R491) -/

/-- The tiles a saggar of `t` would leave fenced keep an attachment tile (R196). -/
def Seg.attachKept (s : Seg) (t : Nat) : Bool :=
  (attachOf (growRegions (t :: (s.ctl.sagTiles ++ s.ctl.dormant)))).isSome

/-- Saggaring a router (R426): its tile joins the next map, and both NIs are reset and held. -/
def Seg.saggarRouter (s : Seg) (t : Nat) : Seg :=
  let s := s.wr (pgRt t) Reg.PAGE.PAGE_STAT_SAGGARED 1
  let s := s.modCtl fun c => { c with sagTiles := if c.sagTiles.contains t then c.sagTiles else t :: c.sagTiles, wantMap := true }
  let s := s.modSrc (srcRt t) fun x => { x with kilnPass := false }
  (s.niReset (2 * t)).niReset (2 * t + 1)

/-- Saggaring an NI that is not half of a dual home (R427). -/
def Seg.saggarNi (s : Seg) (n : Nat) : Seg :=
  let s := (s.niReset n).wr (pgNi n) Reg.PAGE.PAGE_STAT_SAGGARED 1
  s.modSrc (srcNi n) fun x => { x with kilnPass := false }

/-- Saggaring a bank (R425). -/
def Seg.saggarBank (s : Seg) (b : Nat) : Seg :=
  let s := s.wr (pgBank b) Reg.PAGE.PAGE_STAT_SAGGARED 1
  s.modSrc (srcBank b) fun x => { x with kilnPass := false }

/-- What a saggar reaction of source `src` acts on. -/
inductive SagUnit where
  | router (t : Nat)
  | ni (n : Nat)
  | bank (b : Nat)
  | bundle (br b : Nat)
  | bay (n : Nat)
  | none
  deriving DecidableEq, Repr

/-- The syndrome of this cause names a tile at source 0x002, a bundle at a bridge (R375, R412, R421); that of a glaze mismatch
names a word. -/
def namesUnit (src : Nat) (cause : Byte) : Bool :=
  if src = 2 then cause != 14 else cause == 0x84 || [8, 9, 10, 11, 19, 21].contains cause.toNat

/-- The unit of R425 for a source, a cause and a syndrome. A dual home's NI stands for its tile (R428). -/
def Seg.sagUnit (s : Seg) (src : Nat) (cause : Byte) (synd : Word) : SagUnit :=
  if src = 2 then (if namesUnit src cause && decide (synd.toNat % 256 < 144) then .router (synd.toNat % 256) else .none)
  else if src = 0x10 ∨ src = 0x11 then
    (if namesUnit src cause && decide (synd.toNat % 32 < 24) then .bundle (src - 0x10) (synd.toNat % 32) else .none)
  else if 0x18 ≤ src ∧ src < 0x20 then .bay (src - 0x18)
  else if 0x40 ≤ src ∧ src < 0xD0 then .router (src - 0x40)
  else if 0x100 ≤ src ∧ src < 0x148 then .bank (src - 0x100)
  else if 0x200 ≤ src ∧ src < 0x320 then
    (if s.flag (pgNi (src - 0x200)) Reg.NI.NI_CFG_DUAL then .router ((src - 0x200) / 2) else .ni (src - 0x200))
  else .none

/-- Whether the unit is saggared already. -/
def Seg.isSaggared (s : Seg) : SagUnit → Bool
  | .router t => s.saggared (pgRt t)
  | .ni n => s.saggared (pgNi n)
  | .bank b => s.saggared (pgBank b)
  | .bundle br b => s.bunTx br b == 5
  | .bay n => s.saggared (pgBay n)
  | .none => false

/-- The unit is saggared by the collector. -/
def Seg.applySaggar (s : Seg) (u : SagUnit) : Seg :=
  let s := match u with
    | .router t => s.saggarRouter t
    | .ni n => s.saggarNi n
    | .bank b => s.saggarBank b
    | .bundle br b => (s.bundleSaggar br b).reportRing
    | .bay n => s.baySaggar n 5
    | .none => s
  (s.count pgColl 0x810).setBit pgColl 0x010 9 true

/-! ### Classification and reaction (R423–R435) -/

/-- A value of the collector that a use of source `src` finds mismatched (R442): the SOAK_INFO offset. -/
def Seg.collBad (s : Seg) (src : Nat) : Option Nat :=
  let x := s.src src
  if x.cfgFlip || x.stFlip then some 0xFFF
  else ((List.range 4).find? fun j =>
    s.mismatched pgColl (0x130 + 4 * j) && cfgMask (s.cfgOf src) / 2 ^ j % 2 == 1).map (0x130 + 4 * ·)

/-- The collector uses the values of source `src`: a mismatch among them ends in SOAK, else it goes on with `f` (R442). -/
def Seg.collUse (s : Seg) (src : Nat) (f : Seg → Seg) : Seg :=
  match s.collBad src with
  | some off => s.enterSoak off (if off = 0xFFF then src else 0) s.ctl.collInj
  | none => f s

/-- A sherd entry with its EVTs: one to each valid target of the source's mask, where its reaction is not log. -/
def Seg.sherdNotify (s : Seg) (src : Nat) (cause : Byte) (synd : Word) (reaction : Nat) (severe inj : Bool) : Seg :=
  let w := s.cfgOf src
  let s := s.sherdWrite src cause synd reaction severe inj
  if cfgReact w = 0 then s else s.evtAll (cfgMask w) src cause synd reaction severe inj (some s.lastSherd)

/-- Counting toward severity (R423): the new COUNT, window, and whether the source has just become severe. -/
def Src.counted (x : Src) (now : BitVec 64) (wlen n : Nat) : Src × Bool :=
  let fresh := x.count == 0 || decide (wlen ≤ (now - x.wstart).toNat)
  let c := min 255 ((if fresh then 0 else x.count) + 1)
  ({ x with wstart := if fresh then now else x.wstart, count := c, lastFault := now, faulted := true },
    !x.severe && decide (n ≤ c))

/-- A kiln run tests bundle `b` of bridge `br`. -/
def Seg.kilnTests (s : Seg) (br b : Nat) : Bool :=
  match s.kiln.run with | some (_, false, u, n, _) => u == 0x10 + br && n == b | _ => false

/-- An event of a unit that is saggared already, or under a kiln run in unit scope (R429, R503); the clocks
are neither. The event by which a bundle tells that R396 has saggared it is none: its reaction is taken, without a second
saggar (R396, R425; DEDUCED, log 94). -/
def Seg.suppressed (s : Seg) (src : Nat) (u : SagUnit) (e : EvRec) : Bool :=
  match u with
  | .bundle br b => (s.isSaggared u && e.cause != 11) || s.kilnTests br b
  | .none => false
  | _ => src != 2 && (s.isSaggared u || s.kilnAt src)

/-- The reaction of R425–R432 to one processed event. A suppressed one is recorded and not told (log 94). -/
def Seg.react (s : Seg) (src : Nat) (e : EvRec) (newsev : Bool) : Seg :=
  let w := s.cfgOf src
  let u := s.sagUnit src e.cause e.synd
  if s.suppressed src u e then
    if newsev || cfgSherdAll w then s.sherdWrite src e.cause e.synd 7 newsev e.inj else s
  else if newsev && cfgReact w == 2 && u != .none && !s.isSaggared u then
    match u with
    | .router t =>
      if s.attachKept t then ((s.applySaggar u)).sherdNotify src e.cause e.synd 3 true e.inj
      else (s.sherdWrite src e.cause e.synd 7 true e.inj).enterSoak 0xFFE 0 e.inj
    | _ => (s.applySaggar u).sherdNotify src e.cause e.synd 3 true e.inj
  else if newsev || cfgSherdAll w then
    let told := cfgReact w != 0 && s.targets (cfgMask w) != []
    s.sherdNotify src e.cause e.synd (if told then 2 else 1) newsev e.inj
  else s

/-- One event of source `src` processed (R423). In SOAK it is only recorded (R443). -/
def Seg.processOne (s : Seg) (src : Nat) (e : EvRec) : Seg :=
  let s := match s.collBad src with
    | some off => s.enterSoak off (if off = 0xFFF then src else 0) (e.inj || s.ctl.collInj)
    | none => s
  let old := (s.src src).total
  let total := if old = BitVec.allOnes 48 then old else old + 1
  let s := s.modSrc src fun x => { x with total := total, lastCause := e.cause, lastSynd := e.synd }
  let s := (s.when (old != total && total == BitVec.allOnes 48) (·.saturated pgColl)).count pgColl 0x800
  if s.soak then s.sherdWrite src e.cause e.synd 7 false e.inj
  else
    let kind := s.causeKind src e.cause
    if kind = kFault ∨ kind = kFatal then
      let w := s.cfgOf src
      let (x, newsev) := (s.src src).counted s.now (s.units4096 (cfgW w)) (if kind = kFatal then 1 else cfgN w)
      let s := s.setSrc src x
      let s := if newsev then ((s.setSevere src true).count pgColl 0x808).setBit pgColl 0x010 8 true else s
      s.react src e newsev
    else s.react src e false

/-- The same event processed `n` times over: a pulse and the losses that arrive with it (R364). -/
def Seg.processN (s : Seg) (src : Nat) (e : EvRec) : Nat → Seg
  | 0 => s
  | n + 1 => Seg.processN (s.processOne src e) src e n

/-- EVENT_PROCESS (R362, R364, R423, R424): the collector takes the pulse of `src` with its record and the increase of
LOST, and processes each event. A halted controller's collector takes nothing (R470), and one whose two samples of LOST disagree
keeps what it had (R359). -/
def execEventProcess (g : Fin 4) (look : EventLook) (s : State) : Result :=
  let src := look.src.val
  if !srcOk src then .fault .absentUnit
  else onSeg s g fun s =>
    let c := s.pulse src
    let s := s.countBy pgClk 0x810 look.retries
    match c.phase, c.flight with
    | 1, some e =>
      if s.ctl.halted || !s.flag pgColl Reg.COLL.COLL_STAT_RUNNING || !look.agreed then s
      else (s.setPulse src { c with phase := 2, flight := none, prev := c.lost }).processN src e (1 + (c.lost - c.prev))
    | _, _ => s

/-! ### Levels and clears (R436–R439) -/

/-- SRC_STAT.SAGGARED of a source: its unit, or for a bridge any bundle (R447). -/
def Seg.srcSaggared (s : Seg) (src : Nat) : Bool :=
  if src = 0x10 ∨ src = 0x11 then (List.range 24).any (fun b => s.bunTx (src - 0x10) b == 5)
  else if src = 2 then false
  else s.isSaggared (s.sagUnit src 0 0)

/-- A glaze mismatch of source `src` under R430 stands; that of SEG_LOCK ends at segment reset only. A saggared unit's own is no
active level (R436). -/
def Seg.glazeLevel (s : Seg) (src : Nat) : Bool :=
  (s.flips.any (fun e => e.1 / 1024 != pgColl && pageSource (e.1 / 1024) 8 == some src)
      && !(decide (0x18 ≤ src) && s.srcSaggared src))
    || (src == 5 && s.ctl.lockForced)

/-- The fault level of source `src` (R436). -/
def Seg.faultLevel (s : Seg) (src : Nat) : Bool :=
  s.glazeLevel src
    || (src == 2 && s.dcoLost != [])
    || ((src == 0x10 || src == 0x11) && s.flag (pgBr (src - 0x10)) Reg.BR.BR_STAT_TIME_LOST)
    || (src == 7 && s.ctl.vlow != 0)
    || (src == 0 && (s.ctl.parted || s.map.rects.any Rect.splits))

/-- ACTIVE_LEVEL_CHANGE (R436, R439): the collector sees that the fault level of the source has started or ended. -/
def execActiveLevelChange (g : Fin 4) (src : Fin 1024) (level : Bool) (s : State) : Result :=
  if !srcOk src then .fault .absentUnit
  else onSeg s g fun s =>
    if s.ctl.halted || s.faultLevel src != level || (s.src src).active == level then s
    else s.modSrc src fun x => if level then { x with active := true } else { x with active := false, activeEnd := s.now }

/-- QUIET as it acts, in units of 4,096 ticks. -/
def Seg.quiet (s : Seg) : Nat := max 1 (s.rd pgColl Reg.COLL.QUIET)

/-- The source's quiet period has passed (R438, R439). -/
def Seg.quietOver (s : Seg) (src : Nat) : Bool :=
  let x := s.src src
  let from_ := if x.lastFault.toNat < x.activeEnd.toNat then x.activeEnd else x.lastFault
  decide (s.units4096 s.quiet ≤ (s.now - from_).toNat)

/-- AUTO_CLEAR (R438): outside service, a severe source that has been quiet. -/
def execAutoClear (g : Fin 4) (src : Fin 1024) (s : State) : Result :=
  if !srcOk src then .fault .absentUnit
  else onSeg s g fun s =>
    let x := s.src src
    if s.soak || s.ctl.halted || decide (s.mode = 0) || !x.severe || x.active || !s.quietOver src then s
    else if s.mismatched pgColl 0x150 then s.enterSoak 0x150 0 s.ctl.collInj
    else s.collUse src fun s =>
      let s := (s.setSevere src false).modSrc src fun x => { x with count := 0 }
      let s := (s.count pgColl 0x828).setBit pgColl 0x010 10 true
      s.sherdNotify src x.lastCause x.lastSynd 4 false false

/-- A refused SRC_CMD. -/
def Seg.cmdRefuse (s : Seg) (r : Nat) : Seg :=
  ((s.wr pgColl Reg.COLL.CMD_STAT_RESULT r).count pgColl 0x838).setBit pgColl 0x010 12 true

/-- SRC_CMD CLEAR (R437, R442). -/
def Seg.srcClear (s : Seg) (src : Nat) : Seg := s.collUse src fun s =>
  let x := s.src src
  if !x.severe then s.wr pgColl Reg.COLL.CMD_STAT_RESULT 1
  else if x.active then s.cmdRefuse 2
  else if x.faulted && decide ((s.now - x.lastFault).toNat < s.units4096 (cfgW (s.cfgOf src))) then s.cmdRefuse 3
  else
    let s := (s.setSevere src false).modSrc src fun x => { x with count := 0 }
    let s := (s.wr pgColl Reg.COLL.CMD_STAT_RESULT 1).count pgColl 0x830
    s.sherdNotify src x.lastCause x.lastSynd 5 false false

/-! ### Glaze mismatches (R63, R430, R492, R506) -/

/-- The event bit of a glazed word outside the collector, where page `p` holds one at `off` (R430). -/
def glazeBit (k : Kind) (off : Nat) : Option Nat :=
  match k with
  | .seg => if off = 0x110 ∨ off = 0x118 then some 9 else none
  | .ten => if 0x100 ≤ off ∧ off < 0x340 ∧ off % 8 = 0 then some 9 else none
  | .flowwin => if 0x140 ≤ off ∧ off < 0x160 then some 11 else none
  | .clk => if off = 0x110 then some 14 else none
  | .bank => if off = 0x100 ∨ (0x400 ≤ off ∧ off < 0x420) then some 12 else none
  | .br => if off = 0x100 ∨ off = 0x128 then some 20 else none
  | .pwr => if off = 0x110 then some 15 else none
  | .bay => if off = 0x100 then some 17 else none
  | .kiln => if off = 0x110 ∨ off = 0x114 then some 11 else none
  | _ => none

/-- Every NI's flow cache dropped without write-back: FE_MAP mismatches (R430). -/
def Seg.dropCaches (s : Seg) : Seg := { s with nis := SMap.mapNorm {} (fun _ x => { x with cache := [] }) s.nis }

/-- Bits of the stored complement of a glazed word flip: the mismatch stands, raises its event, and acts at once. The
collector's own values wait for their next use or for the pass (R442). A second flip of the same bits brings the word
and its complement into agreement again, which ends the mismatch as a rewrite would: DESIGN CHOICE, log 78; the reaction
of SEG_LOCK stays until segment reset all the same (R430). -/
def Seg.glazeFlip (s : Seg) (p off : Nat) (flip : Word) (inj : Bool) : Seg :=
  match pageKind p with
  | some (.coll, _) =>
    let s := s.modCtl fun c => { c with collInj := inj }
    if off = 0x108 then
      s.modSrc (s.rd pgColl Reg.COLL.SRC_SEL) fun x => if flip = 0 then x else { x with cfgFlip := !x.cfgFlip }
    else if off = 0x10C then
      s.modSrc (s.rd pgColl Reg.COLL.SRC_SEL) fun x => if flip = 0 then x else { x with stFlip := !x.stFlip }
    else if off = 0x130 ∨ off = 0x134 ∨ off = 0x138 ∨ off = 0x13C ∨ off = 0x150 then
      let k := 1024 * p + off / 4
      { s with flips := SMap.put 0 s.flips k (SMap.get 0 s.flips k ^^^ flip) }
    else s
  | some (k, i) =>
    match glazeBit k off with
    | none => s
    | some b =>
      let key := 1024 * p + off / 4
      let s := { s with flips := SMap.put 0 s.flips key (SMap.get 0 s.flips key ^^^ flip) }
      if !s.mismatched p off then s
      else
        let synd := match k with
          | .bay => s.baySynd i 0
          | .pwr | .kiln => 0
          | _ => BitVec.ofNat 32 off
        let s := s.evt p b synd inj
        match k with
        | .seg => if off = 0x118 then
            (s.wr pgSeg Reg.SEG.SEG_CTRL_EXPERT_EN 0).modCtl fun c => { c with lockForced := true } else s
        | .flowwin => (s.dropCaches).wr p Reg.PAGE.PAGE_CTRL_ENABLE 0
        | .kiln => s.wr p Reg.KILN.KILN_STAT_VERDICT 2
        | .clk => s.each ((List.range 144).filter (fun t => s.rampOf t != 0)) Seg.dropChange
        | _ => s
  | none => s

/-! ### Source configuration writes (R422, R447) -/

/-- The bits of SRC_CFG that hold something. -/
def srcCfgMask : Word := 0x0FFF7FFF

/-- SRC_CFG of a source written; its complement agrees with it again. -/
def Seg.writeSrcCfg (s : Seg) (src : Nat) (w : Word) : Seg :=
  (s.setCfgOf src (w &&& srcCfgMask)).modSrc src fun x => { x with cfgFlip := false }

/-- A source number SRC_CFG exists for: every one of R414, reserved sources included. -/
def cfgSrcOk (l : Nat) : Bool := srcOk l

/-- The sources of a BULK_CMD type (R447). -/
def bulkSources (ty : Nat) : List Nat :=
  match ty with
  | 0 => List.range 16
  | 1 => [0x10, 0x11]
  | 2 => (List.range 8).map (0x18 + ·)
  | 3 => (List.range 144).map (0x40 + ·)
  | 4 => (List.range 72).map (0x100 + ·)
  | 5 => (List.range 288).map (0x200 + ·)
  | _ => []

/-- The bulk write in progress ends: its value stands in SRC_CFG of every source of its type, and BUSY falls. -/
def Seg.bulkEnd (s : Seg) : Seg :=
  match s.ctl.bulk with
  | none => s
  | some (ty, w) =>
    let s := s.each (bulkSources ty) fun s l => s.writeSrcCfg l w
    (s.modCtl fun c => { c with bulk := none }).wr pgColl Reg.COLL.BULK_CMD_BUSY 0

/-- BULK_CMD written: the copy of BULK_CFG into SRC_CFG of every source of the type starts, after one still in progress. It
ends no later than the collector's next pass (DESIGN CHOICE, log 122). -/
def Seg.bulkWrite (s : Seg) (ty : Nat) : Seg :=
  let s := s.bulkEnd.wr pgColl Reg.COLL.BULK_CMD_TYPE ty
  if bulkSources ty = [] then s
  else (s.modCtl fun c => { c with bulk := some (ty, s.word pgColl Reg.COLL.BULK_CFG.off) }).wr pgColl Reg.COLL.BULK_CMD_BUSY 1


/-! ### The collector's own values (R442) -/

/-- The first of the collector's glazed values that disagrees with its complement: offset and source. -/
def Seg.collMismatch (s : Seg) : Option (Nat × Nat) :=
  match [0x130, 0x134, 0x138, 0x13C, 0x150].find? (fun o => s.mismatched pgColl o) with
  | some o => some (o, 0)
  | none => match s.srcs.find? (fun e => e.2.cfgFlip || e.2.stFlip) with
    | some e => some (0xFFF, e.1)
    | none => none

/-- COLLECTOR_GLAZE_PASS (R442): the background pass over all of them, after a bulk write in progress has ended (log 122). A
halted controller makes none (R470). -/
def execCollectorGlazePass (g : Fin 4) (s : State) : Result :=
  onSeg s g fun s =>
    if s.ctl.halted then s
    else
      let s := s.bulkEnd
      match s.collMismatch with
      | some (off, src) => s.enterSoak off src s.ctl.collInj
      | none => s

end Sys2Proof.Machine
end

