-- ==== Sys2Proof/Machine/Power.lean ====
section
/-!
DEFINITION. Power states and wake (R450–R476): automatic entry, wakes, OFF, segment-wide entry, the AON regulator and the
power cap. A domain is named by its event source: a tile by its router's, a bank by its own.
-/
namespace Sys2Proof.Machine

/-! ### Idle conditions (R453, R454, R466) -/

/-- A bank has no access waiting, under way or deferred, wakes for none, and runs no handover, zeroing, write-back or wake
scrub. -/
def Seg.bankQuiet (s : Seg) (b : Nat) : Bool :=
  let x := s.bank b
  let e := s.ep (0x200 + b)
  s.stBank b != 6 && x.pa.q.isEmpty && x.pb.q.isEmpty && x.pa.burst.isNone && x.pb.burst.isNone && x.urgent.isEmpty
    && x.defer.isEmpty && x.hand.isNone && !x.zeroing && x.wakeRow.isNone
    && e.asm.isEmpty && e.inq.isEmpty && e.own.isEmpty

/-- An NI has nothing buffered, queued, held or unacknowledged, owes no acknowledgement, and sees WAKE at 0. -/
def Seg.niQuiet (s : Seg) (n : Nat) : Bool :=
  let x := s.ni n
  let e := s.ep n
  x.store.isEmpty && x.wd.isEmpty && x.sr.isEmpty && x.mgIn.isEmpty && x.wait.isEmpty && x.cplIn.isEmpty
    && x.feIn.isEmpty && x.rs.isEmpty && x.sn.isEmpty && x.mgOut.isEmpty && !x.wake && e.asm.isEmpty && e.inq.isEmpty
    && e.own.isEmpty
    && e.send.all (fun d => d.2.unacked.isEmpty) && e.recv.all (fun r => r.2.owed == 0 && r.2.held.isEmpty)

/-- A router holds no flit on any plane, and wakes for none. -/
def Seg.routerQuiet (s : Seg) (t : Nat) : Bool :=
  s.stTile t != 6 && s.landing.all (fun e => e.1 / 32 != t || e.2.isEmpty) && s.vcbuf.all (fun e => e.1 / 256 != t || e.2.isEmpty)

/-- The conditions of R454 on tile `t`, its target and the floor aside. -/
def Seg.tileQuiet (s : Seg) (t : Nat) : Bool :=
  s.routerQuiet t && s.niQuiet (2 * t) && s.niQuiet (2 * t + 1)
    && (match tileBank t with | some b => s.bankQuiet b | none => true)

/-- Tile `t` never goes below IDLE: a C1 tile, or one that holds a bank R300 keeps awake (R458). -/
def Seg.floorHeld (s : Seg) (t : Nat) : Bool :=
  s.c1Tile t || (match tileBank t with | some b => s.feHeld b | none => false)

/-! ### Entering and leaving states -/

/-- The level word of a power state: ACTIVE, IDLE, DROWSY, RETAIN, OFF in order. -/
def deeper (a b : Nat) : Bool := a < b && a ≤ 4 && b ≤ 4

/-- Word `j` of canary row `row` of bank `b` (R335). -/
def canaryWord (b row j : Nat) : BitVec 64 :=
  if row = 0 then 0xAAAAAAAAAAAAAAAA else if row = 1 then 0x5555555555555555
  else if row = 2 then BitVec.ofNat 64 (0x0101010101010101 * (j + 1))
  else 0xFFFFFF80FFFFFF80 + BitVec.ofNat 64 (b + (127 - b) * 2 ^ 32)

/-- The canary rows of bank `b` written: four rows of eight words (R314, R335). -/
def Seg.writeCanaries (s : Seg) (b : Nat) : Seg :=
  s.each (List.range 32) fun s i => { s with canary := SMap.put 0 s.canary (32 * b + i) (canaryWord b (i / 8) (i % 8)) }

/-- Bank `b` enters state `v` where that is deeper; into RETAIN it writes its canary rows. DROWSY and deeper clear its
reservation table (R171). -/
def Seg.bankEnter (s : Seg) (b v : Nat) : Seg :=
  if deeper (s.stBank b) v then
    let s := if v = 3 then s.writeCanaries b else s
    let s := if 2 ≤ v then s.modBank b Bank.clearRes else s
    s.setStBank b v
  else s

/-- Tile `t` enters state `v` where that is deeper, and its bank at least that (R451); the voltage follows (R350). -/
def Seg.tileEnter (s : Seg) (t v : Nat) : Seg :=
  let s := if deeper (s.stTile t) v then ((s.setTilePower t v).setRamp t 0).followV (quadOf t) else s
  match tileBank t with
  | some b => s.bankEnter b v
  | none => s

/-- The level in force ends with the first domain that wakes (R464). -/
def Seg.levelEnds (s : Seg) : Seg := s.wr pgPwr Reg.PWR.PWR_SEG_STAT_LEVEL 0

/-- Tile `t` starts to wake: from IDLE at once, from DROWSY, RETAIN or an entry it is in through the waking state, in which
its voltage need counts again (R99, R350). -/
def Seg.tileWakes (s : Seg) (t : Nat) : Seg :=
  let st := s.stTile t
  if st = 1 then s.setTilePower t 0
  else if st = 2 ∨ st = 3 ∨ st = 5 then ((s.setTilePower t 6).followV (quadOf t)).levelEnds else s

/-- A state a domain wakes from without firmware: IDLE, DROWSY, RETAIN, or an entry it is in. -/
def sleeps (st : Nat) : Bool := st == 1 || st == 2 || st == 3 || st == 5

/-- A wake source reaches tile `t`: one that sleeps starts to wake, counted at `off` (R455, R469). -/
def Seg.tileWakeReq (s : Seg) (t off : Nat) : Seg :=
  s.when (sleeps (s.stTile t)) fun s => (s.tileWakes t).count pgPwr off

/-- A beat reaches site `n`'s NI: an IDLE tile is ACTIVE in the same cycle (R453, R469). -/
def Seg.beatIn (s : Seg) (n : Nat) : Seg := if s.stTile (n / 2) = 1 then s.tileWakeReq (n / 2) 0x828 else s

/-- Bank `b` starts to wake; one in RETAIN will check its canaries. -/
def Seg.bankWakes (s : Seg) (b : Nat) : Seg :=
  let st := s.stBank b
  if st = 1 then s.setStBank b 0
  else if st = 2 ∨ st = 3 ∨ st = 5 then
    ((s.modBank b fun x => { x with restoring := st == 3 }).setStBank b 6).levelEnds
  else s

/-- An access needs bank `b`: it and its tile wake, for a bank is never shallower than its tile (R451, R455). One under an OFF
tile stays (R460). -/
def Seg.bankWakeReq (s : Seg) (b : Nat) : Seg :=
  let st := s.stBank b
  if st = 0 ∨ st = 4 ∨ s.stTile (bankTile b) = 4 then s
  else (s.tileWakeReq (bankTile b) 0x828).when (sleeps st) fun s => (s.bankWakes b).count pgPwr 0x828

/-- Bank `b` is OFF (R457): its array, what it held and its page's state are gone; the repairs its fuses gave it stand, and so
does its saggar (log 58). -/
def Seg.bankOff (s : Seg) (b : Nat) : Seg :=
  let p := pgBank b
  let sag := s.saggared p
  let kept := fun k : Nat => k / 1024 != p || (decide (0x100 ≤ k % 1024) && decide (k % 1024 < 0x108))
  let s := { s.zeroBank b with
    regs := s.regs.filter (fun e => kept e.1)
    flips := s.flips.filter (fun e => e.1 / 1024 != p)
    cnts := s.cnts.filter (fun e => e.1 / 4096 / 1024 != p)
    eps := SMap.put {} s.eps (0x200 + b) { rxLost := true, txFresh := true } }
  ((s.setBank b {}).wr p Reg.PAGE.PAGE_STAT_SAGGARED (b2n sag)).setStBank b 4

/-- The first canary row of bank `b` that does not read as it was written (R336). -/
def Seg.canaryFails (s : Seg) (b : Nat) : Option Nat :=
  (List.range 4).find? fun r => (List.range 8).any fun j => SMap.get 0 s.canary (32 * b + 8 * r + j) != canaryWord b r j

/-- A bit of canary row `row` was lost in RETAIN. -/
def Seg.canaryLost (s : Seg) (b row : Nat) : Seg :=
  let k := 32 * b + 8 * row
  { s with canary := SMap.put 0 s.canary k (SMap.get 0 s.canary k ^^^ 1) }

/-- A bank that leaves RETAIN (R336, R337, R343), where `lost` names a canary row that lost a bit: the canary check, unless it
is disabled; then the wake scrub, which PROGRESS shows. -/
def Seg.bankRestore (s : Seg) (b : Nat) (lost : Option Nat) : Seg :=
  let p := pgBank b
  let en := s.flag p Reg.BANK.EXP_CFG_CANARY_EN
  let s := match lost with | some r => s.canaryLost b r | none => s
  let s := s.modBank b fun x => { x with restoring := false }
  let s := if en then s.count p 0x8A0 else s
  match (if en then s.canaryFails b else none) with
  | some r => s.retentionLost b 1 r 0
  | none =>
    let s := s.modBank b fun x => { x with wakeRow := some 0, noIdle := 0 }
    (s.wr p Reg.BANK.BANK_STAT_WAKE_SCRUB 1).bankProgress b

/-- Bank `b` comes up from OFF: zeroed, at its reset ownership, with RETENTION_LOST 0 (R328, R461). -/
def Seg.bankUp (s : Seg) (b : Nat) : Seg :=
  let p := pgBank b
  let s := (s.zeroed b).setWord p 0x100 (regReset s.strap p 0x100)
  ((s.setStBank b 0).startZeroing b false).levelEnds

/-- A bank that firmware wakes returns to ACTIVE once its tile is there (R451, R459, R461). -/
def Seg.bankReturns (s : Seg) (b : Nat) : Seg :=
  if s.stBank b = 4 then (if s.stTile (bankTile b) = 0 then s.bankUp b else s) else s.bankWakes b

/-- The bank of tile `t` returns to ACTIVE with it where the TILE_CMD in progress wakes it. -/
def Seg.bankWithTile (s : Seg) (t : Nat) : Seg :=
  match tileBank t, s.ctl.tileCmd with
  | some b, some c =>
    s.when ((c.op == 2 && decide (c.first ≤ t) && decide (t ≤ c.last))
      || (c.op == 4 && decide (c.first ≤ b) && decide (b ≤ c.last))) fun s => s.bankReturns b
  | _, _ => s

/-- A waking domain is ready (R455): a tile once its quadrant's supply allows its code (R99); it then takes up the code its
limits give. A bank is once its tile is (R451). -/
def Seg.wakeDone (s : Seg) (dom : Nat) (bad : Option Nat) : Seg :=
  if dom < 0x100 then
    let t := dom - 0x40
    if s.stTile t = 6 ∧ s.rd pgClk (Reg.CLK.CLK_TILE_CUR.at t) ≠ 0 ∧ s.vwaits (quadOf t) = false then
      ((({ s with synced := SMap.put false s.synced t false }).setTilePower t 0).codeChange t).bankWithTile t
    else s
  else
    let b := dom - 0x100
    if s.stBank b = 6 ∧ s.stTile (bankTile b) = 0 then
      let s := s.setStBank b 0
      if (s.bank b).restoring then s.bankRestore b bad else s
    else s

/-! ### Automatic entry and wakes -/

/-- AUTO_IDLE_ENTRY (R451, R453): IDLE_AFTER cycles without a flit, beat or pending work. A tile's bank is IDLE with it. -/
def execAutoIdleEntry (g : Fin 4) (dom : Fin 1024) (s : State) : Result :=
  if 0x40 ≤ dom.val ∧ dom.val < 0xD0 then
    onSeg s g fun s =>
      let t := dom.val - 0x40
      if s.stTile t = 0 ∧ s.tileQuiet t = true then
        let s := s.setTilePower t 1
        match tileBank t with
        | some b => s.bankEnter b 1
        | none => s
      else s
  else if 0x100 ≤ dom.val ∧ dom.val < 0x148 then
    onSeg s g fun s =>
      let b := dom.val - 0x100
      if s.stBank b = 0 ∧ s.bankQuiet b = true then s.setStBank b 1 else s
  else .fault .absentUnit

/-- A tile goes on to state `v` under R454, or counts the hold of R458. -/
def Seg.autoTile (s : Seg) (t v : Nat) : Seg :=
  if s.tgtTile t + 1 < v || !deeper (s.stTile t) v || !s.tileQuiet t then s
  else if s.floorHeld t then s.count pgPwr 0x898 else s.tileEnter t v

/-- A bank goes on to state `v` under R454, but for one R300 keeps awake. -/
def Seg.autoBank (s : Seg) (b v : Nat) : Seg :=
  if s.tgtBank b + 1 < v || !deeper (s.stBank b) v || !s.bankQuiet b then s
  else if s.feHeld b then s else s.bankEnter b v

/-- AUTO_DROWSY_ENTRY (R454, R458). -/
def execAutoDrowsyEntry (g : Fin 4) (dom : Fin 1024) (s : State) : Result :=
  if 0x40 ≤ dom.val ∧ dom.val < 0xD0 then onSeg s g fun s => s.autoTile (dom.val - 0x40) 2
  else if 0x100 ≤ dom.val ∧ dom.val < 0x148 then onSeg s g fun s => s.autoBank (dom.val - 0x100) 2
  else .fault .absentUnit

/-- AUTO_RETAIN_ENTRY (R335, R454). -/
def execAutoRetainEntry (g : Fin 4) (dom : Fin 1024) (s : State) : Result :=
  if 0x40 ≤ dom.val ∧ dom.val < 0xD0 then onSeg s g fun s => s.autoTile (dom.val - 0x40) 3
  else if 0x100 ≤ dom.val ∧ dom.val < 0x148 then onSeg s g fun s => s.autoBank (dom.val - 0x100) 3
  else .fault .absentUnit

/-- DOMAIN_WAKE (R455): a flit, beat or register access needs the domain. A bank under an OFF tile is not woken
(R460). -/
def execDomainWake (g : Fin 4) (dom : Fin 1024) (s : State) : Result :=
  if 0x40 ≤ dom.val ∧ dom.val < 0xD0 then onSeg s g fun s => s.tileWakeReq (dom.val - 0x40) 0x828
  else if 0x100 ≤ dom.val ∧ dom.val < 0x148 then onSeg s g fun s => s.bankWakeReq (dom.val - 0x100)
  else .fault .absentUnit

/-- AGENT_WAKE (R74, R462): a rise of APnnn_WAKE; `hold` is its level after it. At an OFF tile it only leaves a mark. With
WAKE at 1 already there is no rise: the command is the fall with which the agent releases it. -/
def execAgentWake (g : Fin 4) (site : Fin 288) (hold : Bool) (s : State) : Result :=
  onSeg s g fun s =>
    let n := site.val
    let rise := !(s.ni n).wake
    let s := s.modNi n fun x => { x with wake := hold }
    if !rise then s
    else if s.stTile (n / 2) = 4 then (s.setBit pgPwr (0x280 + 4 * (n / 32)) (n % 32) true).evt pgPwr 13
    else s.tileWakeReq (n / 2) 0x830

/-! ### OFF and wake from OFF (R459–R461) -/

/-- The tiles or banks of a TILE_CMD range. -/
def cmdRange (first last : Nat) : List Nat := (List.range (last + 1)).filter (fun i => first ≤ i)

/-- A TILE_CMD refused before any vote: RESULT, count, event (R459, R468, R475). -/
def Seg.tileRefuse (s : Seg) (result src : Nat) : Seg :=
  ((s.wr pgPwr Reg.PWR.TILE_STAT_RESULT result).count pgPwr 0x818).evt pgPwr 9 (BitVec.ofNat 32 (src + result * 2 ^ 16))

/-- The number a voter goes by: its local source, with a bridge's bundle and direction above it. -/
def VoteUnit.key (u : VoteUnit) : Nat :=
  if u.src = 0x10 ∨ u.src = 0x11 then u.src.val + 1024 * (2 * u.bundle.val + b2n u.rx) else u.src.val

/-- The local source of a voter. -/
def voterSrc (u : Nat) : Nat := u % 1024

/-- The bundle direction a voter of a bridge stands for: the bundle, and whether it is the receive half. -/
def voterHalf (u : Nat) : Nat × Bool := (u / 2048, u / 1024 % 2 == 1)

/-- The directions of the bundles of both bridges (R450). -/
def bridgeVoters : List Nat := [0x10, 0x11].flatMap fun l => (List.range 48).map (l + 1024 * ·)

/-- The voters of a set of tiles and banks (R460, R466): NIs, then banks, then routers. -/
def voterList (tiles banks : List Nat) : List Nat :=
  tiles.flatMap (fun t => [srcNi (2 * t), srcNi (2 * t + 1)]) ++ banks.map srcBank ++ tiles.map srcRt

/-- A TILE_CMD is accepted. -/
def Seg.tileAccept (s : Seg) (c : TileCmd) : Seg :=
  let s := (s.wr pgPwr Reg.PWR.TILE_STAT_BUSY 1).wr pgPwr Reg.PWR.TILE_STAT_RESULT 0
  let s := ((s.wr pgPwr Reg.PAGE.PROGRESS_BUSY 1).wr pgPwr Reg.PAGE.PROGRESS_PERCENT 0).wr pgPwr Reg.PAGE.PROGRESS_POSITION 0
  s.modCtl fun x => { x with tileCmd := some c }

/-- PROGRESS of a TILE_CMD: units done of the range. -/
def Seg.tileProgress (s : Seg) (done total : Nat) : Seg :=
  (s.wr pgPwr Reg.PAGE.PROGRESS_POSITION done).wr pgPwr Reg.PAGE.PROGRESS_PERCENT (100 * done / max 1 total)

/-- Tile `t` comes out of OFF (R461 step 3): pages at reset values, DCO locked, links exchanging credit-inits. One of the range
that only sleeps wakes (R459). -/
def Seg.tileUp (s : Seg) (t : Nat) : Seg :=
  let s :=
    if s.stTile t ≠ 6 ∨ s.rd pgClk (Reg.CLK.CLK_TILE_CUR.at t) ≠ 0 then s.tileWakes t
    else
      let f := s.rampOf t
      let s := ((s.clearTilePages t).clearTileLinks t).tileLinksDown t
      let s := { s with synced := SMap.put false s.synced t false }
      ((s.wr pgClk (Reg.CLK.CLK_TILE_CUR.at t) f).setRamp t 0).setTilePower t 0
  s.bankWithTile t

/-- Every supply the range needs has its VACK. -/
def Seg.supplyReady (s : Seg) (tiles : List Nat) : Bool :=
  tiles.all (fun t => !s.vwaits (quadOf t) && s.flag pgClk (Reg.CLK.CLK_V_VACK.at (quadOf t)))

/-- A TILE_WAKE moves from waiting for VACK to switching rows on. -/
def Seg.tileWakeSupply (s : Seg) : Seg :=
  match s.ctl.tileCmd with
  | some c =>
    if c.op = 2 ∧ c.stage = 2 ∧ s.supplyReady (cmdRange c.first c.last) = true then
      s.modCtl fun x => { x with tileCmd := some { c with stage := 3, row := c.first / 12 } }
    else s
  | none => s

/-- The refusal of a committed TILE_CMD, in the order of R459: RESULT and the source named in the syndrome. -/
def Seg.tileCheck (s : Seg) (c : TileCmd) : Option (Nat × Nat) :=
  let tiles := c.op ≤ 2
  let r := cmdRange c.first c.last
  let banks := if tiles then r.filterMap tileBank else r
  if c.last < c.first ∨ (if tiles then 143 else 71) < c.last then some (7, 1)
  else if !s.switched then some (8, 1)
  else if c.op = 1 ∨ c.op = 3 then
    match (if c.op = 1 then r.find? (fun t => s.c1Tile t) else none) with
    | some t => some (2, srcRt t)
    | none =>
      match banks.find? (fun b => s.feHeld b) with
      | some b => some (3, srcBank b)
      | none =>
        if c.op = 1 then
          let rects := growRegions (r ++ s.ctl.sagTiles ++ s.ctl.dormant)
          if (attachOf rects).isNone then some (4, 1) else if rects.any (·.splits) then some (5, 1) else none
        else none
  else if c.op = 4 then (if r.any (fun b => s.stTile (bankTile b) == 4) then some (9, 1) else none)
  else none

/-- A TILE_CMD word commits (R459–R461). `word` is laid out as TILE_CMD. -/
def Seg.tileCommand (s : Seg) (word : Word) : Seg :=
  let op := Reg.PWR.TILE_CMD_OP.get word
  let c : TileCmd := ⟨op, Reg.PWR.TILE_CMD_FIRST.get word, Reg.PWR.TILE_CMD_LAST.get word,
    Reg.PWR.TILE_CMD_KEEP_BANK.get word == 1, 0, 0⟩
  if s.powerBusy || (match s.kiln.run with | some (_, true, _, _, _) => true | _ => false) then s.lockHit pgPwr
  else
    let s := s.setWord pgPwr 0x180 (word &&& 0x07FFFF01)
    if op = 0 ∨ 4 < op then s
    else match s.tileCheck c with
      | some (r, src) => s.tileRefuse r src
      | none =>
        let r := cmdRange c.first c.last
        if op = 1 then
          let ts := r.filter (fun t => s.stTile t != 4)
          let bs := (r.filterMap tileBank).filter (fun b => s.stBank b != 4)
          (s.tileAccept c).modCtl fun x => { x with voters := voterList ts bs, votes := [], prepared := [] }
        else if op = 3 then
          (s.tileAccept c).modCtl fun x => {
            x with voters := voterList [] (r.filter (fun b => s.stBank b != 4)), votes := [], prepared := [] }
        else if op = 2 then
          let s := (s.tileAccept { c with stage := 2 }).modCtl fun x =>
            { x with mapped := true, dormant := if x.mapped then x.dormant else List.range 144 }
          let s := s.each (r.filter (fun t => s.stTile t == 4)) fun s t => ((s.setStTile t 6).setRamp t (s.effCode t)).levelEnds
          (s.each (List.range 4) fun s q => if r.any (fun t => quadOf t == q) then s.followV q else s).tileWakeSupply
        else
          let s := s.tileAccept { c with stage := 4 }
          (s.each r fun s b => (s.tileWakes (bankTile b)).bankReturns b).tileProgress r.length r.length

/-- TILE_WAKE_ROW_STEP (R461): the next row of the range is switched on; once that was the last and every tile is up, the tiles
leave the dormant set through one epoch. -/
def execTileWakeRowStep (g : Fin 4) (s : State) : Result :=
  onSeg s g fun s =>
    match s.ctl.tileCmd with
    | some c =>
      if c.op = 2 ∧ c.stage = 3 then
        let r := cmdRange c.first c.last
        let s := s.each (r.filter (fun t => tileY t == c.row)) Seg.tileUp
        let s := s.tileProgress (r.filter (fun t => tileY t ≤ c.row)).length r.length
        if c.last / 12 ≤ c.row ∧ r.all (fun t => s.stTile t != 4 && s.stTile t != 6) = true then
          s.modCtl fun x => { x with
            tileCmd := some { c with stage := 4 }, wantMap := true, dormant := x.dormant.filter (fun t => !r.contains t) }
        else s.modCtl fun x => { x with tileCmd := some { c with row := c.row + 1 } }
      else s
    | none => s

/-- The tiles of a TILE_OFF switch off once the previous epoch has retired (R460 steps 3 and 4). One that has become a C1
tile since the check, or whose bank R300 now keeps awake, stays at IDLE or above (R12, R458, log 86). -/
def Seg.tilesOff (s : Seg) (r : List Nat) (keep : Bool) : Seg :=
  let s := s.each (r.filter (fun t => !s.floorHeld t)) fun s t =>
    let s := if s.stTile t = 4 then s
      else
        let s := ((s.clearTileLinks t).tileLinksDown t).clearTilePages t
        ((s.setTilePower t 4).wr pgClk (Reg.CLK.CLK_TILE_CUR.at t) 0).setRamp t 0
    match tileBank t with
    | some b => if s.stBank b = 4 then s else if keep then s.bankEnter b 3 else s.bankOff b
    | none => s
  s.each (List.range 4) fun s q =>
    if (quadTiles q).all (fun t => s.stTile t == 4) then s.railOff q else s.followV q

/-- The previous epoch has retired: a TILE_OFF that waited for it goes on. -/
def Seg.tileOffRetired (s : Seg) : Seg :=
  match s.ctl.tileCmd with
  | some c =>
    let r := cmdRange c.first c.last
    if c.op = 1 ∧ c.stage = 1 ∧ s.ctl.wantMap = false ∧ r.all s.fenced = true then
      ((s.tilesOff r c.keep).tileProgress r.length r.length).modCtl fun x =>
        { x with tileCmd := some { c with stage := 4 } }
    else s
  | none => s

/-- TILE_CMD_COMPLETE (R459, R461): every unit done, the last epoch sent, no bank of the range still on its way. -/
def execTileCmdComplete (g : Fin 4) (s : State) : Result :=
  onSeg s g fun s =>
    match s.ctl.tileCmd with
    | some c =>
      let r := cmdRange c.first c.last
      let banks := if c.op ≤ 2 then r.filterMap tileBank else r
      if c.stage = 4 ∧ s.ctl.wantMap = false ∧ banks.all (fun b => !(s.bank b).zeroing && s.stBank b != 6
          && (c.op % 2 == 1 || s.stBank b != 4)) = true then
        let s := (s.wr pgPwr Reg.PWR.TILE_STAT_BUSY 0).wr pgPwr Reg.PWR.TILE_STAT_RESULT 1
        let s := (s.wr pgPwr Reg.PAGE.PROGRESS_BUSY 0).wr pgPwr Reg.PAGE.PROGRESS_PERCENT 100
        (s.evt pgPwr 12).modCtl fun x => { x with tileCmd := none, voters := [], votes := [] }
      else s
    | none => s

/-! ### Segment-wide entry (R464–R468) -/

/-- The refusal of an entry before prepare (R465): reason and refuser. -/
def Seg.entryCheck (s : Seg) (lvl : Nat) : Option (Nat × Nat) :=
  match s.firstC1 with
  | some t => some (1, srcRt t)
  | none =>
    match (List.range 72).find? (fun b => s.feHeld b) with
    | some b => some (2, srcBank b)
    | none =>
      if lvl = 3 ∧ (s.flag pgSeg Reg.SEG.SEG_ID_JOINED || s.enabled pgFlow) then some (3, 1) else none

/-- PWR_SEG_CMD commits (R464, R465): a level asked for is refused, or the prepare phase begins. -/
def Seg.entryCommand (s : Seg) (word : Word) : Seg :=
  let lvl := Reg.PWR.PWR_SEG_CMD_LEVEL.get word
  let halt := Reg.PWR.PWR_SEG_CMD_HALT.get word == 1
  if s.powerBusy || (match s.kiln.run with | some (_, true, _, _, _) => true | _ => false) then s.lockHit pgPwr
  else if lvl = 0 then s.setWord pgPwr 0x100 (word &&& 4)
  else
    let s := s.setWord pgPwr 0x100 (word &&& 7)
    match s.entryCheck lvl with
    | some (r, u) =>
      let s := (((s.wr pgPwr Reg.PWR.PWR_REFUSE_VALID 1).wr pgPwr Reg.PWR.PWR_REFUSE_REASON r).wr pgPwr
        Reg.PWR.PWR_REFUSE_LEVEL lvl).wr pgPwr Reg.PWR.PWR_REFUSE_UNIT u
      let s := (s.count pgPwr 0x818).evt pgPwr 9 (BitVec.ofNat 32 (u + r * 2 ^ 12))
      s.wr pgPwr Reg.PWR.PWR_SEG_CMD_LEVEL 0
    | none =>
      let ts := (List.range 144).filter (fun t => s.stTile t != 4)
      let bs := (List.range 72).filter (fun b => s.stBank b != 4 && (s.stTile (bankTile b) != 4 || lvl == 3))
      let s := s.wr pgPwr Reg.PWR.PWR_SEG_STAT_PHASE 2
      s.modCtl fun x => { x with
        voters := voterList ts bs ++ (if lvl = 3 then bridgeVoters else []), votes := [], prepared := []
        halt := halt && lvl == 3 }

/-- The phase in which votes are taken: prepare, or a TILE_CMD's first stage. -/
def Seg.voting (s : Seg) : Bool :=
  s.rd pgPwr Reg.PWR.PWR_SEG_STAT_PHASE == 2 ||
    (match s.ctl.tileCmd with | some c => (c.op == 1 || c.op == 3) && c.stage == 0 | none => false)

/-- Units quiesce in this order: NIs, banks, routers, bridge directions; they resume in the reverse (R466). -/
def quiesceRank (u : Nat) : Nat :=
  let l := voterSrc u
  if 0x200 ≤ l then 0 else if 0x100 ≤ l then 1 else if 0x40 ≤ l then 2 else 3

/-- A saggared unit, or one under a kiln run, counts as having voted to commit (R467, R508); of a bridge its bundle. -/
def Seg.voteOf (s : Seg) (u : Nat) : Nat :=
  let v := SMap.get 0 s.ctl.votes u
  let l := voterSrc u
  let out := if l = 0x10 ∨ l = 0x11 then
      s.bunTx (l - 0x10) (voterHalf u).1 == 5 || s.kilnTests (l - 0x10) (voterHalf u).1
    else s.srcSaggared l || s.kilnIsolates l
  if v = 0 && out then 8 else v

/-- PREPARE_RECEIVE (R179, R466): the unit quiesces in its turn; an NI stops injecting. -/
def execPrepareReceive (g : Fin 4) (unit : VoteUnit) (s : State) : Result :=
  if !srcOk unit.src then .fault .absentUnit
  else onSeg s g fun s =>
    let u := unit.key
    if !s.voting || !s.ctl.voters.contains u || s.ctl.prepared.contains u
        || s.ctl.voters.any (fun v => decide (quiesceRank v < quiesceRank u) && !s.ctl.prepared.contains v && s.voteOf v != 8) then s
    else
      let s := s.modCtl fun x => { x with prepared := u :: x.prepared }
      s.when (decide (0x200 ≤ voterSrc u)) fun s => s.modNi (voterSrc u - 0x200) fun x => { x with hold := true, voted := false }

/-- A bundle direction has nothing unacknowledged and no replay runs on it (R466). -/
def Seg.halfQuiet (s : Seg) (br b : Nat) (rx : Bool) : Bool :=
  let x := s.bun br b
  if rx then !x.ackOwed && !x.nakDue && !x.discard else x.replay.isEmpty && x.resend.isEmpty

/-- Whether a unit can vote to commit (R179, R466). A router that has become a C1 router and a bank that FE_MAP now keeps
awake go no lower than IDLE (R12, R300): they are busy, log 86. -/
def Seg.canCommit (s : Seg) (u : Nat) : Bool :=
  let l := voterSrc u
  if 0x200 ≤ l then (s.ni (l - 0x200)).hold && (s.ni (l - 0x200)).stores.isEmpty && !(s.ni (l - 0x200)).wake
  else if 0x100 ≤ l then s.bankQuiet (l - 0x100) && !s.feHeld (l - 0x100)
  else if 0x40 ≤ l then
    s.routerQuiet (l - 0x40) && !s.c1Tile (l - 0x40) && s.voteOf (srcNi (2 * (l - 0x40))) == 8
      && s.voteOf (srcNi (2 * (l - 0x40) + 1)) == 8
  else s.halfQuiet (l - 0x10) (voterHalf u).1 (voterHalf u).2

/-- A unit's vote recorded: 8 to commit, else the REASON of its refusal. -/
def Seg.vote (s : Seg) (u v : Nat) : Seg := s.modCtl fun x => { x with votes := SMap.put 0 x.votes u v }

/-- SLEEP_VOTE (R466): the decision of a unit that has quiesced. An NI that cannot commit refuses by NI_SLEEP_REFUSE; any other
unit refuses here with REASON 6. -/
def execSleepVote (g : Fin 4) (unit : VoteUnit) (s : State) : Result :=
  if !srcOk unit.src then .fault .absentUnit
  else onSeg s g fun s =>
    let u := unit.key
    if !s.voting || !s.ctl.voters.contains u || !s.ctl.prepared.contains u then s
    else if s.canCommit u then
      let s := s.vote u 8
      if 0x200 ≤ voterSrc u then
        let n := voterSrc u - 0x200
        (s.modNi n fun x => { x with voted := true }).wr (pgNi n) Reg.NI.SLEEP_STAT_REFUSED 0
      else s
    else if 0x200 ≤ voterSrc u then s else s.vote u 6

/-- NI_SLEEP_REFUSE (R179, R466, R468): stores buffered or WAKE at 1, 10 µs after prepare. -/
def execNiSleepRefuse (g : Fin 4) (site : Fin 288) (s : State) : Result :=
  onSeg s g fun s =>
    let n := site.val
    let x := s.ni n
    let why := b2n (!x.stores.isEmpty) + 2 * b2n x.wake
    if !s.voting || !s.ctl.voters.contains (srcNi n) || !s.ctl.prepared.contains (srcNi n) || decide (why = 0) || x.voted then s
    else
      let s := s.vote (srcNi n) (if why = 2 then 5 else 4)
      let s := (s.wr (pgNi n) Reg.NI.SLEEP_STAT_REFUSED 1).wr (pgNi n) Reg.NI.SLEEP_STAT_REASON why
      (s.count (pgNi n) 0xA68).evt (pgNi n) 17

/-- The last domain has entered the level: the phase is idle, and LEVEL reads the level (R464). -/
def Seg.entryEnds (s : Seg) (lvl : Nat) : Seg :=
  ((s.wr pgPwr Reg.PWR.PWR_SEG_STAT_PHASE 0).wr pgPwr Reg.PWR.PWR_SEG_STAT_LEVEL lvl).wr pgPwr Reg.PWR.PWR_SEG_CMD_LEVEL 0

/-- Every vote is a commit: a segment-wide entry commits, a TILE_CMD goes on. -/
def Seg.commitEntry (s : Seg) : Seg :=
  match s.ctl.tileCmd with
  | some c =>
    let r := cmdRange c.first c.last
    if c.op = 1 then
      s.modCtl fun x => { x with tileCmd := some { c with stage := 1 }, wantMap := true, dormant := r ++ x.dormant.filter (fun t => !r.contains t) }
    else
      let s := s.each (r.filter (fun b => !s.feHeld b)) Seg.bankOff
      (s.tileProgress r.length r.length).modCtl fun x => { x with tileCmd := some { c with stage := 4 } }
  | none =>
    let lvl := s.rd pgPwr Reg.PWR.PWR_SEG_CMD_LEVEL
    let s := ((s.wr pgPwr Reg.PWR.PWR_SEG_STAT_PHASE 3).count pgPwr (0x800 + 8 * (lvl - 1))).evt pgPwr 8
    let s := if lvl = 3 then s.modCtl fun x => { x with wantMap := true, dormant := List.range 144 } else s
    if s.ctl.voters = [] then s.entryEnds lvl else s

/-- VOTE_COLLECT (R466, R468): a refusal that has arrived aborts; a commit vote from every unit commits. -/
def execVoteCollect (g : Fin 4) (s : State) : Result :=
  onSeg s g fun s =>
    if !s.voting then s
    else match s.ctl.voters.find? (fun u => s.voteOf u != 8 && s.voteOf u != 0) with
      | some u => s.abortEntry (some (s.voteOf u, voterSrc u))
      | none => if s.ctl.voters.all (fun u => s.voteOf u == 8) then s.commitEntry else s

/-- VOTE_TIMEOUT (R466, R468): a vote is missing 11 µs after PREPARE. -/
def execVoteTimeout (g : Fin 4) (s : State) : Result :=
  onSeg s g fun s =>
    if !s.voting then s
    else match s.ctl.voters.find? (fun u => s.voteOf u != 8) with
      | some u => s.abortEntry (some (if s.voteOf u = 0 then 7 else s.voteOf u, voterSrc u))
      | none => s

/-- A direction of a bundle goes to sleep with the level (R397, R464): a running transmitter tells the far side by DROWSE. -/
def Seg.halfSleeps (s : Seg) (br b : Nat) (rx : Bool) : Seg :=
  let st := s.bunTx br b
  if rx then (if s.bunRx br b = 5 then s else s.setBunRx br b 4)
  else if st = 5 then s
  else
    let s := if st = 2 ∨ st = 3 then
        (s.modBun br b fun x => { x with out := { kind := .drowse }, cur := none, left := 0 }.onLine (st == 3)).countV (pgBr br) b
          0x8C0 1
      else s
    s.setBunTx br b 4

/-- The domain of a unit enters the level (R464); one that R12 or R300 now holds awake does not (log 86). -/
def Seg.enterLevel (s : Seg) (u lvl : Nat) : Seg :=
  let v := lvl + 1
  let l := voterSrc u
  if 0x200 ≤ l then s.modNi (l - 0x200) fun x => { x with hold := false }
  else if (0x100 ≤ l ∧ s.feHeld (l - 0x100) = true) ∨ (0x40 ≤ l ∧ l < 0x100 ∧ s.floorHeld (l - 0x40) = true) then s
  else if 0x100 ≤ l then (if v = 4 then s.bankOff (l - 0x100) else s.bankEnter (l - 0x100) v)
  else if 0x40 ≤ l then (if v = 4 then s.tilesOff [l - 0x40] false else s.tileEnter (l - 0x40) v)
  else s.halfSleeps (l - 0x10) (voterHalf u).1 (voterHalf u).2

/-- COMMIT_RECEIVE (R464, R466): the unit's domain enters the level; with the last one the entry ends. -/
def execCommitReceive (g : Fin 4) (unit : VoteUnit) (s : State) : Result :=
  if !srcOk unit.src then .fault .absentUnit
  else onSeg s g fun s =>
    let u := unit.key
    if s.rd pgPwr Reg.PWR.PWR_SEG_STAT_PHASE ≠ 3 || !s.ctl.voters.contains u then s
    else
      let lvl := s.rd pgPwr Reg.PWR.PWR_SEG_CMD_LEVEL
      let s := (s.enterLevel u lvl).modCtl fun x => { x with voters := x.voters.erase u }
      if s.ctl.voters = [] then s.entryEnds lvl else s

/-- ABORT_RECEIVE (R179, R466): the unit resumes, in its turn; with the last one the phase is idle. -/
def execAbortReceive (g : Fin 4) (unit : VoteUnit) (s : State) : Result :=
  if !srcOk unit.src then .fault .absentUnit
  else onSeg s g fun s =>
    let u := unit.key
    if s.voting || s.rd pgPwr Reg.PWR.PWR_SEG_STAT_PHASE == 3 || !s.ctl.voters.contains u
        || s.ctl.voters.any (fun v => decide (quiesceRank u < quiesceRank v)) then s
    else
      let s := s.when (decide (0x200 ≤ voterSrc u)) fun s =>
        s.modNi (voterSrc u - 0x200) fun x => { x with hold := false, voted := false }
      let s := s.modCtl fun x => { x with voters := x.voters.erase u }
      if s.ctl.voters = [] then s.wr pgPwr Reg.PWR.PWR_SEG_STAT_PHASE 0 else s

/-! ### The AON regulator (R470–R472) -/

/-- AON_HALT (R470, R481): after a LEVEL AON commit with HALT, with everything OFF and asleep and no bay mid-sequence. -/
def execAonHalt (g : Fin 4) (s : State) : Result :=
  onSeg s g fun s =>
    let off := (List.range 144).all (fun t => s.stTile t == 4) && (List.range 72).all (fun b => s.stBank b == 4)
    let away := fun st : Nat => st == 4 || st == 5 || st == 0
    let asleep := (List.range 48).all (fun i => away (s.bunTx (i / 24) (i % 24)) && away (s.bunRx (i / 24) (i % 24)))
    let bays := (List.range 8).all (fun n => !([2, 3, 4, 5, 6, 9].contains (s.bayState n)))
    if s.ctl.halt && !s.ctl.halted && decide (s.rd pgPwr Reg.PWR.PWR_SEG_STAT_LEVEL = 3) && off && asleep && bays then
      { s with mp := {}, ctl := { s.ctl with halted := true, lowPower := true } }
    else s

/-- The controller runs again. -/
def Seg.unhalt (s : Seg) : Seg :=
  { s with mp := { s.mp with ready := true }, ctl := { s.ctl with halted := false, halt := false, lowPower := false } }

/-- REGULATOR_FULL_MODE_RETURN (R470). -/
def execRegulatorFullModeReturn (g : Fin 4) (s : State) : Result :=
  onSeg s g fun s => if s.ctl.lowPower then s.unhalt.evt pgPwr 17 else s

/-- A tile's domain marked retention-lost (R471): it restarts, and returns to ACTIVE, a sleeping one once its supply allows it
(R99). -/
def Seg.tileRetLost (s : Seg) (t : Nat) : Seg := (s.tileWakes t).tileRestart t

/-- The domains of a list marked retention-lost. -/
def Seg.markLost (s : Seg) (doms : List Nat) : Seg :=
  s.each doms fun s d =>
    if d < 0x100 then s.tileRetLost (d - 0x40) else s.retentionLost (d - 0x100) 3 0 0

/-- PG_SRAM_LOSS (R472): every domain that is not OFF is marked, and every tile page returns to its reset values. -/
def execPgSramLoss (g : Fin 4) (s : State) : Result :=
  onSeg s g fun s =>
    let ts := (List.range 144).filter (fun t => s.stTile t != 4)
    let bs := (List.range 72).filter (fun b => s.stBank b != 4)
    if ts = [] ∧ bs = [] then s
    else
      let s := s.markLost (ts.map srcRt ++ bs.map srcBank)
      let s := s.each ts fun s t => ((s.clearTilePages t).freqLock t).codeChange t
      let s := s.each (List.range 4) Seg.followV
      ((s.countBy pgPwr 0x860 (ts.length + bs.length)).evt pgPwr 14).evt pgPwr 18

/-! ### The power cap and residency (R473, R476) -/

/-- The static power of every domain in its state, in µW (R450, R473): each state's figure is a free value (log 6). -/
def Seg.staticPower (s : Seg) : Nat :=
  (List.range 144).foldl (fun a t => a + Config.staticPower 0 (s.stTile t)) 0
    + (List.range 72).foldl (fun a b => a + Config.staticPower 1 (s.stBank b)) 0
    + (List.range 48).foldl (fun a i =>
        a + Config.staticPower 2 (s.bunTx (i / 24) (i % 24)) + Config.staticPower 2 (s.bunRx (i / 24) (i % 24))) 0

/-- POWER_CAP_STEP (R473): 10 µs have passed. The estimate is the static power and that of the energy spent; its energy adds to
CNT_ENERGY, and its average over AVG is held against the budget. A halted controller makes no step (R470). -/
def execPowerCapStep (g : Fin 4) (s : State) : Result :=
  onSeg s g fun s =>
    if s.ctl.halted then s else
    let now := s.staticPower + s.ctl.spent / 10000
    let n := max 1 (max 1 (s.rd pgPwr Reg.PWR.PWR_EXP2_AVG) * 4096 / 12000)
    let window := (now :: s.ctl.estimates).take n
    let est := window.sum / window.length / 1000
    let energy := s.ctl.energyRest + now
    let s := s.modCtl fun x => { x with spent := 0, estimates := window, energyRest := energy % 100000 }
    let s := s.countBy pgPwr 0x8A0 (energy / 100000)
    let s := s.wr pgPwr Reg.PWR.PWR_EST_EST (min 255 (est / 250))
    if !s.flag pgPwr Reg.PWR.PWR_CAP_CAP_EN || s.mismatched pgPwr 0x110 then s
    else
      let capw := max 40 (min 120 (s.rd pgPwr Reg.PWR.PWR_CAP_CAP_W))
      let budget := capw * s.rd pgPwr Reg.PWR.PWR_CAP_SHARE * 1000 / 16
      let code := s.rd pgPwr Reg.PWR.PWR_EST_CAPCODE
      let new := if budget < est ∧ 12 < code then code - 1
        else if est * 100 < budget * 95 ∧ code < 48 then code + 1 else code
      let s := s.wr pgPwr Reg.PWR.PWR_EST_CAPCODE new
      let s := s.wr pgPwr Reg.PWR.PWR_EST_LIMITING (b2n (decide (new < 48)))
      let s := if new = code then s else (s.count pgPwr 0x890).limitsMoved (List.range 144)
      let unmet := decide (budget < est) && new == 12
      let was := s.flag pgPwr Reg.PWR.PWR_EST_UNMET
      let s := s.wr pgPwr Reg.PWR.PWR_EST_UNMET (b2n unmet)
      if unmet && !was then s.evt pgPwr 11 else s

/-- RESIDENCY_SAMPLE (R476): the number of tiles in each state is added; a halted controller takes no sample (R470). -/
def execResidencySample (g : Fin 4) (s : State) : Result :=
  onSeg s g fun s =>
    if s.ctl.halted then s else
    s.each (List.range 5) fun s v =>
      s.countBy pgPwr (0x868 + 8 * v) ((List.range 144).filter (fun t => s.stTile t == v)).length

/-- VACK_RISE (R99, R351, R461): the quadrant's waiting ramps start, and a waking range may be switched on. -/
def execVackRise (g : Fin 4) (quad : Fin 4) (s : State) : Result :=
  onSeg s g fun s => (s.vackUp quad).tileWakeSupply

end Sys2Proof.Machine
end

