-- ==== Sys2Proof/Machine/Kiln.lean ====
section
/-!
DEFINITION. Kiln runs, repair solutions, factory test mode, fuses and the fuse load (R340–R342, R495–R516).
-/
namespace Sys2Proof.Machine

/-! ### Fuses (R104, R340, R341, R498, R499) -/

/-- A word of the macro, and a word as loaded; an unprogrammed word reads 0. -/
def Seg.fuse (s : Seg) (a : Nat) : Word := SMap.get 0 s.fuses a
def Seg.setFuse (s : Seg) (a : Nat) (w : Word) : Seg := { s with fuses := SMap.put 0 s.fuses a w }
def Seg.heldFuse (s : Seg) (a : Nat) : Word := SMap.get 0 s.held a

/-- An even number of ones among the low `n` bits. -/
def evenOnes (n v : Nat) : Bool := ones n v % 2 == 0

/-- A repair half as the REPAIR registers take it: VALID and COL, or 0 where it is invalid (R341). -/
def repairHalf (h : Nat) : Nat :=
  if evenOnes 16 h && decide (h / 1024 % 16 = 0) && decide (h % 1024 ≤ 575) then h / 2 ^ 15 * 2 ^ 15 + h % 1024 else 0

/-- A half that the load refuses (R341). -/
def repairBad (h : Nat) : Bool := !(evenOnes 16 h && decide (h / 1024 % 16 = 0) && decide (h % 1024 ≤ 575))

/-- The REPAIR word a fuse word loads; two spares that name one column leave spare 1 unused. -/
def repairWord (w : Word) : Word :=
  let h0 := repairHalf (w.toNat % 65536)
  let h1 := repairHalf (w.toNat / 65536)
  BitVec.ofNat 32 (h0 + (if h0 = h1 ∧ 2 ^ 15 ≤ h0 then 0 else h1) * 65536)

/-- The digest mask of fuse word `a` (R498). -/
def digestMask (a : Nat) : Word :=
  if a = 0x240 then 0x000001FF else if a < 0x264 then 0 else 0xFFFFFFFF

/-- A word of the instance description (R499). -/
def instanceOf (k : Nat) : Word := if k = 0 then 0x40960320 else if k = 1 then 0x00000C04 else Config.instanceWord k

/-- CFG_DIGEST (R499). -/
def Seg.digest (s : Seg) : BitVec 64 :=
  let inst := (List.range 64).flatMap (fun k => wordBytes (instanceOf k))
  let fus := (List.range 0x1C0).flatMap (fun i => wordBytes (s.heldFuse (0x240 + i) &&& digestMask (0x240 + i)))
  BitVec.ofNat 64 (crc64 (inst ++ fus))

/-- The repairs loaded from the held fuse values (R341). -/
def Seg.loadRepairs (s : Seg) : Seg :=
  s.each (List.range 0x240) fun s a =>
    let w := s.heldFuse a
    if w = 0 then s
    else
      let p := pgBank (a / 8)
      let s := s.setWord p (0x400 + 4 * (a % 8)) (repairWord w)
      if repairBad (w.toNat % 65536) || repairBad (w.toNat / 65536) then s.evt p 13 else s

/-- The macro read into the held values (R341, R498): a word of 0x240–0x263 with a parity error is held as 0. -/
def Seg.readFuses (s : Seg) : Seg :=
  let bad := s.fuses.filter (fun e => 0x240 ≤ e.1 && e.1 ≤ 0x263 && !evenOnes 32 e.2.toNat)
  let s := { s with held := s.fuses.filter (fun e => !(0x240 ≤ e.1 && e.1 ≤ 0x263 && !evenOnes 32 e.2.toNat)) }
  if bad = [] then s
  else (s.wr pgKiln Reg.KILN.KILN_BOOT_FUSE_ERR 1).each bad fun s e => s.evt pgKiln 12 (BitVec.ofNat 32 e.1)

/-- The management port and the collector start (R84, R106, R495 step 3). -/
def Seg.startController (s : Seg) : Seg :=
  { s.wr pgColl Reg.COLL.COLL_STAT_RUNNING 1 with mp := { s.mp with ready := true } }

/-- The fuse pins at rest, and while the whole macro is read (R102, R104). -/
def Pins.fuseIdle (p : Pins) : Pins :=
  { p with fuseClk := false, fuseCs := false, fusePgm := false, fuseAddr := 0, fusePbit := 0 }
def Pins.fuseReads (p : Pins) : Pins := { p.fuseIdle with fuseClk := true, fuseCs := true }

/-- SCAN_SO (R96, R102, R103): 0 in reset and unless TEST_MODE was sampled at 1; what the scan chains then put out is free
(log 88). -/
def Seg.scanSo (s : Seg) : Word :=
  if !s.inReset && s.flag pgKiln Reg.KILN.KILN_BOOT_TEST_MODE then Config.scanOut s.free else 0

/-- FUSE_LOAD_COMPLETE (R341, R495, R498, R499). -/
def execFuseLoadComplete (g : Fin 4) (s : State) : Result :=
  onSeg s g fun s =>
    if !s.kiln.loading then s
    else
      let s := { s with kiln := { s.kiln with loading := false } }
      let s := s.modPins Pins.fuseIdle
      let s := (s.readFuses).loadRepairs
      let s := s.setWord64 pgSeg 0x148 s.digest
      let s := s.wr pgKiln Reg.KILN.KILN_BOOT_FIELD_LOCK ((s.heldFuse 0x240).toNat / 256 % 2)
      (s.wr pgKiln Reg.KILN.KILN_BOOT_FUSE_DONE 1).startController

/-! ### Runs (R500–R508) -/

/-- The tile of a unit of R501. -/
def kilnTile (u b : Nat) : Nat :=
  if u = 0x10 then tileOf 11 (b / 2) else if u = 0x11 then tileOf 0 (b / 2)
  else match srcTile u with | some t => t | none => 0

/-- A unit of R501, with its bundle. -/
def kilnUnitOk (u b : Nat) : Bool := ((0x40 ≤ u && srcOk u) || u == 0x10 || u == 0x11) && b < 24

/-- The unit a run tests is saggared. -/
def Seg.kilnUnitSaggared (s : Seg) (u b : Nat) : Bool :=
  if u = 0x10 ∨ u = 0x11 then s.bunTx (u - 0x10) b == 5
  else if 0x200 ≤ u then s.saggared (pgNi (u - 0x200)) || s.saggared (pgRt ((u - 0x200) / 2))
  else if 0x100 ≤ u then s.saggared (pgBank (u - 0x100)) else s.saggared (pgRt (u - 0x40))

/-- The conditions of a segment-scope run (R502). -/
def Seg.segReady (s : Seg) : Bool :=
  !s.flag pgSeg Reg.SEG.SEG_ID_JOINED && (s.mode == 1 || s.mode == 2)
    && (List.range 144).all (fun t => s.stTile t ≤ 1) && (List.range 288).all (fun n => !s.enabled (pgNi n))
    && !s.enabled pgFlow && s.firstC1.isNone

/-- SOL_STAT of a bank: bit 0 VALID, bit 1 REPAIRABLE, bit 2 NEW (R509). -/
def Seg.solStat (s : Seg) (b : Nat) : Nat := SMap.get 0 s.kiln.solOk b

/-- The bank SOL_SEL selects. -/
def Seg.solSel (s : Seg) : Nat := s.rd pgKiln Reg.KILN.SOL_SEL

/-- The RESULT of a kiln command (R502). The unit's row and the rows of SCOPE act on runs; APPLY names its bank by
SOL_SEL (DEDUCED, log 12). -/
def Seg.kilnCheck (s : Seg) (op : Nat) (scope : Bool) (u b : Nat) : Nat :=
  let run := op ≤ 3
  if run && !scope && !kilnUnitOk u b then 3
  else if run && !scope && !s.kilnUnitSaggared u b && !s.factory then 2
  else if run && !scope && s.stTile (kilnTile u b) == 4 then 5
  else if run && scope && !s.segReady then 4
  else if op == 5 && s.solStat s.solSel % 4 != 3 then 6
  else if op == 5 && ((s.enabled (pgBank s.solSel) && !s.saggared (pgBank s.solSel)) || !s.expertEn) then 7
  else 1

/-- APPLY (R510): the solution goes into the bank's REPAIR registers, and the bank is zeroed. -/
def Seg.kilnApply (s : Seg) (b : Nat) : Seg :=
  let s := s.each (List.range 8) fun s i =>
    (s.setWord (pgBank b) (0x400 + 4 * i) (repairWord (SMap.get 0 s.kiln.sols (8 * b + i)))).heal (pgBank b) (0x400 + 4 * i)
  s.startZeroing b true

/-- Both halves of a bundle under a kiln run are held (R440). -/
def Seg.holdBundle (s : Seg) (br b : Nat) : Seg :=
  (((s.cutBundle br b fun x => { pairs := x.pairs, stay := x.stay }).setBunTx br b 0).setBunRx br b 0).noteBridge br

/-- A KILN_CMD word commits (R440, R500, R502). -/
def Seg.kilnCommand (s : Seg) (w : Word) : Seg :=
  let op := Reg.KILN.KILN_CMD_OP.get w
  let scope := Reg.KILN.KILN_CMD_SCOPE.get w == 1
  let u := Reg.KILN.KILN_CMD_UNIT.get w
  let b := Reg.KILN.KILN_CMD_BUNDLE.get w
  let seed := Reg.KILN.KILN_CMD_SEED_EN.get w == 1
  let busy := s.flag pgKiln Reg.KILN.KILN_STAT_BUSY
  if busy && op != 4 then s.lockHit pgKiln
  else
    let s := s.setWord pgKiln 0x100 (w &&& 0x000FFFFF)
    if op = 0 ∨ 5 < op then s
    else if op = 4 then s.kilnAbort
    else
      let r := s.kilnCheck op scope u b
      let s := s.wr pgKiln Reg.KILN.KILN_STAT_RESULT r
      if r ≠ 1 then s.count pgKiln 0x820
      else if op = 5 then s.kilnApply s.solSel
      else
        let s := { s with kiln := { s.kiln with run := some (op, scope, u, b, seed) } }
        let s := ((s.wr pgKiln Reg.KILN.KILN_STAT_BUSY 1).wr pgKiln Reg.KILN.KILN_STAT_UNIT (if scope then 0x40 else u)).count
          pgKiln 0x800
        let s := (s.wr pgKiln Reg.PAGE.PROGRESS_BUSY 1).wr pgKiln Reg.PAGE.PROGRESS_PERCENT 0
        let s := s.wr pgKiln Reg.PAGE.PROGRESS_POSITION ((if scope then 0x40 else u) * 2 ^ 14)
        if scope then s
        else if 0x40 ≤ u ∧ u < 0xD0 then s.tileLinksDown (u - 0x40)
        else if (u = 0x10 ∨ u = 0x11) ∧ s.bunTx (u - 0x10) b ≠ 5 then s.holdBundle (u - 0x10) b
        else s

/-- The steps of a run on one unit (R507). -/
def Seg.kilnSteps (s : Seg) (op : Nat) : Nat :=
  let logic := max 1 (s.rd pgKiln Reg.KILN.EXP_PATTERNS)
  if op = 1 then logic else if op = 2 then 64 else logic + 64

/-- The unit type by which GOLD is fixed: router, NI, bank, bridge bundle. -/
def kilnType (u : Nat) : Nat := if 0x200 ≤ u then 1 else if 0x100 ≤ u then 2 else if 0x40 ≤ u then 0 else 3

/-- A fuse half that names column `c` (R340). -/
def fuseHalf (c : Nat) : Nat := 2 ^ 15 + c + (if evenOnes 16 (2 ^ 15 + c) then 0 else 2 ^ 14)

/-- The solution of one subarray (R509): its fuse word, whether it is repairable, and whether it takes a new spare. `w`
is the REPAIR word in force, `cols` the failing columns, `bad` the spares that failed. -/
def solveSub (w : Word) (cols bad : List Nat) : Word × Bool × Bool :=
  let v := w.toNat
  let h0 := if 2 ^ 15 ≤ v % 65536 then some (v % 1024) else none
  let h1 := if 2 ^ 15 ≤ v / 65536 then some (v / 65536 % 1024) else none
  let free := (if h0.isNone && !bad.contains 0 then [0] else []) ++ (if h1.isNone && !bad.contains 1 then [1] else [])
  let new := free.zip cols
  let pick := fun (i : Nat) (h : Option Nat) => match h with
    | some c => fuseHalf c
    | none => match new.find? (fun e => e.1 == i) with | some e => fuseHalf e.2 | none => 0
  let ok := !(h0.isSome && bad.contains 0) && !(h1.isSome && bad.contains 1) && decide (cols.length ≤ free.length)
  (BitVec.ofNat 32 (pick 0 h0 + pick 1 h1 * 65536), ok, !new.isEmpty)

/-- The solutions of the banks tested replace those of the last run (R509). -/
def Seg.solve (s : Seg) (banks : List Nat) (f : KilnFind) : Seg :=
  let s := { s with kiln := { s.kiln with sols := [], solOk := [] } }
  s.each banks fun s b =>
    let per := (List.range 8).map fun i =>
      solveSub (s.word (pgBank b) (0x400 + 4 * i))
        ((f.cols.filter (fun e => e.1 == b && e.2.1 == i)).map (fun e => e.2.2)).eraseDups
        ((f.badSpares.filter (fun e => e.1 == b && e.2.1 == i)).map (fun e => e.2.2))
    let sols := per.zipIdx.foldl (fun m e => SMap.put 0 m (8 * b + e.2) e.1.1) s.kiln.sols
    let st := 1 + 2 * b2n (per.all (fun e => e.2.1)) + 4 * b2n (per.any (fun e => e.2.2))
    { s with kiln := { s.kiln with sols := sols, solOk := SMap.put 0 s.kiln.solOk b st } }

/-- KILN_RUN_COMPLETE (R440, R504–R507, R509): the run ends with what it found. -/
def execKilnRunComplete (g : Fin 4) (found : KilnFind) (s : State) : Result :=
  onSeg s g fun s =>
    match s.kiln.run with
    | none => s
    | some (op, scope, u, b, seed) =>
      let s := { s with kiln := { s.kiln with run := none } }
      let gold := if op = 2 then 0 else Config.gold (if scope then 0 else kilnType u) op
      let sig := if op = 2 ∧ found.failBits = 0 then 0 else found.sig
      let s := (((s.setWord64 pgKiln 0x110 sig).setWord64 pgKiln 0x118 gold).heal pgKiln 0x110).heal pgKiln 0x114
      let pass := if scope then found.failUnits == [] else sig == gold
      let verdict := if seed then 3 else if pass then 1 else 2
      let s := (s.wr pgKiln Reg.KILN.KILN_STAT_VERDICT verdict).wr pgKiln Reg.KILN.KILN_STAT_BUSY 0
      let s := (s.wr pgKiln Reg.KILN.KILN_FAIL_FAIL_BITS (min 65535 found.failBits)).wr pgKiln
        Reg.KILN.KILN_FAIL_FAIL_MEMS (min 65535 found.failMems)
      let fails := if seed then [] else if scope then found.failUnits else if pass then [] else [u]
      let s := match fails with | f :: _ => s.wr pgKiln Reg.KILN.KILN_STAT_UNIT f | [] => s
      let s := s.each fails fun s f => (s.count pgKiln 0x810).evt pgKiln 9 (BitVec.ofNat 32 (f + b * 1024))
      let s := if verdict = 1 then s.count pgKiln 0x808 else s
      let s := if verdict = 1 && !scope && (0x40 ≤ u || found.trained) then s.modSrc u fun x => { x with kilnPass := true } else s
      let banks := if scope then List.range 72 else if 0x100 ≤ u ∧ u < 0x148 then [u - 0x100] else []
      let s := if op ≠ 1 then s.solve banks found else s
      let s := (s.wr pgKiln Reg.PAGE.PROGRESS_BUSY 0).wr pgKiln Reg.PAGE.PROGRESS_PERCENT 100
      let s := s.wr pgKiln Reg.PAGE.PROGRESS_POSITION ((if scope then 0x147 else u) * 2 ^ 14 + s.kilnSteps op)
      (s.evt pgKiln 8 (BitVec.ofNat 32 (u + b * 1024))).kilnEnd scope u b

/-! ### Factory test mode (R511, R512) -/

/-- The conditions of entry. -/
def Seg.factoryOk (s : Seg) : Bool :=
  s.flag pgKiln Reg.KILN.KILN_BOOT_TEST_MODE && !s.flag pgKiln Reg.KILN.KILN_BOOT_FIELD_LOCK
    && !s.flag pgKiln Reg.KILN.KILN_BOOT_LOCKOUT && !s.flag pgSeg Reg.SEG.SEG_ID_JOINED && s.mode == 2

/-- KEY_A and KEY_B (R511). -/
def Seg.keyA (s : Seg) : Nat := let w := (s.heldFuse 0x260).toNat; if w = 0 then 0x7E21 else w % 65536
def Seg.keyB (s : Seg) : Nat := let w := (s.heldFuse 0x260).toNat; if w = 0 then 0x0BD6 else w / 65536 % 32768

/-- A failed attempt: back to the start, counted; the eighth locks entry out. -/
def Seg.keyFail (s : Seg) : Seg :=
  let k := min 8 (s.rd pgKiln Reg.KILN.KILN_BOOT_KEY_FAILS + 1)
  let s := (s.wr pgKiln Reg.KILN.KILN_BOOT_KEY_STEP 0).wr pgKiln Reg.KILN.KILN_BOOT_KEY_FAILS k
  let s := if k = 8 then s.wr pgKiln Reg.KILN.KILN_BOOT_LOCKOUT 1 else s
  (s.count pgKiln 0x828).evt pgKiln 15

/-- More than 1 ms since the last key: 1,200,000 ticks, or 200,000 bisque cycles. -/
def Seg.keyLate (s : Seg) : Bool :=
  decide ((if s.ftbRuns then 1200000 else 200000) < (s.now - s.kiln.keyAt).toNat)

/-- FACTORY_KEY commits. -/
def Seg.factoryKey (s : Seg) (key : Nat) (late : Bool) : Seg :=
  let st := s.rd pgKiln Reg.KILN.KILN_BOOT_KEY_STEP
  let s := { s with kiln := { s.kiln with keyAt := if st = 1 && (late || s.keyLate) then s.kiln.keyAt else s.now } }
  if !s.factoryOk then s.keyFail
  else if st = 0 ∧ key = s.keyA then s.wr pgKiln Reg.KILN.KILN_BOOT_KEY_STEP 1
  else if st = 1 ∧ key = s.keyB ∧ (late || s.keyLate) = false then s.wr pgKiln Reg.KILN.KILN_BOOT_KEY_STEP 2
  else s.keyFail

/-- FACTORY_CTRL.ENTER commits. -/
def Seg.factoryEnter (s : Seg) (late : Bool) : Seg :=
  if s.factoryOk && s.rd pgKiln Reg.KILN.KILN_BOOT_KEY_STEP == 2 && !(late || s.keyLate) then
    ((s.wr pgSeg Reg.SEG.SEG_STAT_FACTORY 1).wr pgKiln Reg.KILN.KILN_BOOT_KEY_STEP 0).evt pgKiln 14
  else s.keyFail

/-! ### Fuse programming (R513) -/

/-- The words a PROG_REPAIR of bank `b` would program, with the bits to set; `none` where a programmed half would have to
change. -/
def Seg.progWords (s : Seg) (b : Nat) : Option (List (Nat × Word)) :=
  (List.range 8).foldl (fun acc i =>
    match acc with
    | none => none
    | some l =>
      let old := (s.fuse (8 * b + i)).toNat
      let new := (SMap.get (0 : Word) s.kiln.sols (8 * b + i)).toNat
      let half := fun o n => if o = n then some 0 else if o = 0 then some n else none
      match half (old % 65536) (new % 65536), half (old / 65536) (new / 65536) with
      | some a, some c => some (if a = 0 ∧ c = 0 then l else l ++ [(8 * b + i, BitVec.ofNat 32 (a + c * 65536))])
      | _, _ => none) (some [])

/-- The words and bits a fuse command in progress programs. -/
def Seg.fuseWork (s : Seg) : List (Nat × Word) :=
  match s.kiln.fuseCmd with
  | some (1, a) => [(a, s.word pgKiln Reg.KILN.FUSE_DATA.off)]
  | some (_, b) => (s.progWords b).getD []
  | none => []

/-- A fuse command that a loss of power, a PORESET_N or the end of factory test mode interrupts leaves any
subset of its bits (R513, log 9). -/
def Seg.fuseInterrupt (s : Seg) : Seg :=
  s.fuseWork.foldl (fun s e => (s.setFuse e.1 (s.fuse e.1 ||| (e.2 &&& Config.fusedSubset s.free e.1))).tick1) s

/-- FACTORY_CTRL.EXIT commits: every test control back to reset, an injection in progress stopped. A fuse command still
running ends as an interrupted one does, FUSE_PGM being for factory test mode alone (R104): DESIGN CHOICE, log 109. -/
def Seg.factoryExit (s : Seg) : Seg :=
  let s := s.fuseInterrupt
  let s := { s with regs := s.regs.filter (fun e => e.1 % 1024 < 960)
                    ctl := { s.ctl with inj := none, injFlit := false }
                    kiln := { s.kiln with fuseCmd := none } }
  (s.modPins Pins.fuseIdle).wr pgSeg Reg.SEG.SEG_STAT_FACTORY 0

/-- FUSE_CMD commits (R102, R513). The fuse pins stand at the first word with a bit to program and at that bit; the macro works
through the others until the command completes. Outside factory test mode the word is ignored (R36, R104). -/
def Seg.fuseCommand (s : Seg) (w : Word) : Seg :=
  if !s.factory then s.lockHit pgKiln
  else
  let op := Reg.KILN.FUSE_CMD_OP.get w
  let a := Reg.KILN.FUSE_CMD_FUSE_ADDR.get w
  let s := s.setWord pgKiln 0xF00 (w &&& 0x1FFF)
  if s.flag pgKiln Reg.KILN.FUSE_STAT_BUSY || !(op == 1 || op == 2) then s
  else if op = 2 ∧ s.solStat s.solSel % 4 ≠ 3 then s.wr pgKiln Reg.KILN.FUSE_STAT_RESULT 4
  else if op = 2 ∧ (s.progWords s.solSel).isNone = true then s.wr pgKiln Reg.KILN.FUSE_STAT_RESULT 3
  else
    let s := s.wr pgKiln Reg.KILN.FUSE_STAT_BUSY 1
    let s := { s with kiln := { s.kiln with fuseCmd := some (op, if op = 1 then a else s.solSel) } }
    let due := s.fuseWork.filter (fun e => (e.2 &&& ~~~(s.fuse e.1)) != 0)
    match due with
    | (addr, bits) :: _ =>
      let bit := ((List.range 32).find? fun i => (bits &&& ~~~(s.fuse addr)).getLsbD i).getD 0
      s.modPins fun p => { p with fuseClk := true, fuseCs := true, fusePgm := true, fuseAddr := BitVec.ofNat 10 addr,
                                  fusePbit := BitVec.ofNat 5 bit }
    | [] => s.modPins fun p => { p with fuseClk := true, fuseCs := true,
                                        fuseAddr := BitVec.ofNat 10 ((s.fuseWork.head?.map (·.1)).getD 0) }

/-- Bits of a word that are 1. -/
def popcount (w : Word) : Nat := ones 32 w.toNat

/-- FUSE_CMD_COMPLETE (R513): the macro took the bits but for those of `stuck`, and the words are read back. -/
def execFuseCmdComplete (g : Fin 4) (stuck : Word) (s : State) : Result :=
  onSeg s g fun s =>
    if s.kiln.fuseCmd = none then s
    else
      let work := s.fuseWork
      let fail := work.any (fun e => (e.2 &&& stuck &&& ~~~(s.fuse e.1)) != 0)
      let n := (work.map (fun e => popcount (e.2 &&& ~~~stuck &&& ~~~(s.fuse e.1)))).sum
      let addr := match work with | e :: _ => e.1 | [] => 0
      let s := s.each work fun s e => s.setFuse e.1 (s.fuse e.1 ||| (e.2 &&& ~~~stuck))
      let s := { s with kiln := { s.kiln with fuseCmd := none } }
      let s := s.modPins fun p => p.fuseIdle
      let s := (s.wr pgKiln Reg.KILN.FUSE_STAT_BUSY 0).wr pgKiln Reg.KILN.FUSE_STAT_RESULT (if fail then 2 else 1)
      let s := (s.countBy pgKiln 0x830 n).evt pgKiln 16 (BitVec.ofNat 32 addr)
      if fail then (s.count pgKiln 0x838).evt pgKiln 17 (BitVec.ofNat 32 addr) else s

/-! ### Resets (R95, R96, R433, R444, R497, R512) -/

/-- The NIs' inputs from outside: agent clock, ARST_N and WAKE stay as the agents drive them. -/
def Seg.agentInputs (s : Seg) : List (Nat × Ni) :=
  SMap.mapNorm {} (fun _ (x : Ni) => { clk := x.clk, arstN := x.arstN, wake := x.wake }) s.nis

/-- Everything at its reset value, as PORESET_N leaves it (R95): the fuse macro and the inputs alone stay. -/
def Seg.coldReset (s : Seg) : Seg :=
  let s := s.fuseInterrupt
  { Seg.reset s.strap with fuses := s.fuses, nis := s.agentInputs, free := s.free, pins := { poresetN := s.pins.poresetN, segResetN := s.pins.segResetN } }

/-- The register words that SEG_RESET_N leaves: the sherd queue with its head, and KILN_BOOT's sample, fuse bits and
lockout (R96, R433, R511). -/
def Seg.warmRegs (s : Seg) : Seg → Seg := fun n =>
  let n := { n with regs := s.regs.filter (fun e => e.1 / 1024 == pgColl && (e.1 % 1024 == 0x160 / 4
    || (0x200 / 4 ≤ e.1 % 1024 && e.1 % 1024 < 0x400 / 4))) }
  [Reg.KILN.KILN_BOOT_TEST_MODE, Reg.KILN.KILN_BOOT_FIELD_LOCK, Reg.KILN.KILN_BOOT_FUSE_ERR, Reg.KILN.KILN_BOOT_FUSE_DONE,
    Reg.KILN.KILN_BOOT_LOCKOUT].foldl (fun n f => n.wr pgKiln f (s.rd pgKiln f)) n

/-- Everything SEG_RESET_N resets at its reset value (R96): the strap and TEST_MODE samples, the sherd queue, the held
fuse values with their digest, and the regulator's mode stay. -/
def Seg.warmReset (s : Seg) : Seg :=
  let n := { Seg.reset s.strap with
    fuses := s.fuses, held := s.held, nis := s.agentInputs, free := s.free,
    pins := { poresetN := s.pins.poresetN, segResetN := s.pins.segResetN },
    kiln := { loading := s.kiln.loading }, ctl := { lowPower := s.ctl.lowPower } }
  (s.warmRegs n).setWord64 pgSeg 0x148 (s.word64 pgSeg 0x148)

/-- A command on the resets of segment `g`: it acts in reset too. -/
def onReset (s : State) (g : Fin 4) (f : Seg → Seg) : Result := .next (s.modSeg g f)

/-- PORESET_ASSERT (R84, R88, R95, R105). -/
def execPoresetAssert (g : Fin 4) (s : State) : Result :=
  onReset s g fun s => { s.coldReset with pins := { poresetN := false, segResetN := s.pins.segResetN } }

/-- PORESET_RELEASE (R95, R103, R104, R495 step 1): SEGNUM and TEST_MODE are sampled, and the fuse load begins; while
SEG_RESET_N is 0 the pins hold their reset values (R96). -/
def execPoresetRelease (g : Fin 4) (testMode : Bool) (s : State) : Result :=
  onReset s g fun s =>
    if s.pins.poresetN then s
    else
      let s := s.coldReset
      { s.wr pgKiln Reg.KILN.KILN_BOOT_TEST_MODE (b2n testMode) with
        pins := if s.pins.segResetN then { s.pins with poresetN := true }.fuseReads else { s.pins with poresetN := true }
        kiln := { loading := true } }

/-- SEG_RESET_ASSERT (R84, R88, R96, R444). -/
def execSegResetAssert (g : Fin 4) (s : State) : Result :=
  onReset s g fun s => s.warmReset.modPins fun p => { p with segResetN := false }

/-- SEG_RESET_RELEASE (R341, R497, R534): step 1 again; the repairs come from the held values, and the controller starts
once they are loaded. A fuse load that the reset held up is made then. -/
def execSegResetRelease (g : Fin 4) (s : State) : Result :=
  onReset s g fun s =>
    if s.pins.segResetN then s
    else
      let s := { s with pins := { s.pins with segResetN := true } }
      if !s.pins.poresetN then s
      else if s.kiln.loading then s.modPins Pins.fuseReads
      else (s.loadRepairs).startController

/-- ALIVE_TOGGLE (R105, R445): the level changes while the collector runs, the segment is not in SOAK and no source is
severe; a halted controller holds it (R470). -/
def execAliveToggle (g : Fin 4) (s : State) : Result :=
  onSeg s g fun s =>
    if s.flag pgColl Reg.COLL.COLL_STAT_RUNNING && !s.soak && !s.anySevere && !s.ctl.halted then
      s.modPins fun p => { p with alive := !p.alive }
    else s

/-- BROWN_OUT (R467, R471, R508): `tripped` are the domains whose retention detectors tripped. Below 0.45 V everything is
lost until AON_RESTART. -/
def execBrownOut (g : Fin 4) (tripped : List (Fin 1024)) (belowLatch : Bool) (s : State) : Result :=
  onSeg s g fun s =>
    if belowLatch then { s.coldReset with kiln := { loading := false } }
    else
      let marked := (tripped.map (·.val)).eraseDups.filter (fun d =>
        (0x40 ≤ d && d < 0xD0 && (s.stTile (d - 0x40) == 2 || s.stTile (d - 0x40) == 3))
        || (0x100 ≤ d && d < 0x148 && (s.stBank (d - 0x100) == 2 || s.stBank (d - 0x100) == 3)))
      let mode := b2n s.ctl.lowPower
      let s := (s.abortEntry none).kilnAbort
      let s := if s.ctl.lowPower then s.unhalt.evt pgPwr 17 else s
      let s := ((s.wr pgPwr Reg.PWR.REG_STAT_BROWNOUT 1).wr pgPwr Reg.PWR.REG_STAT_MODE_AT mode).wr pgPwr
        Reg.PWR.REG_STAT_MARKED marked.length
      let s := ((s.markLost marked).count pgPwr 0x858).countBy pgPwr 0x860 marked.length
      let s := if marked = [] then s else s.evt pgPwr 14
      s.evt pgPwr 16 (BitVec.ofNat 32 (mode + marked.length * 65536))

/-- AON_RESTART (R471): the AON domain restarts as after PORESET_N release. -/
def execAonRestart (g : Fin 4) (testMode : Bool) (s : State) : Result :=
  onSeg s g fun s =>
    let s := s.coldReset
    { s.wr pgKiln Reg.KILN.KILN_BOOT_TEST_MODE (b2n testMode) with kiln := { loading := true }, pins := s.pins.fuseReads }

end Sys2Proof.Machine
end

