-- ==== Sys2Proof/Machine/Endpoint.lean ====
section
/-!
DEFINITION. The delivery machinery of the endpoints: numbering, resending, acknowledgement and receipt (R122–R126,
R131–R142, R145, R149, R208, R209, R535, R536).
-/
namespace Sys2Proof.Machine

/-! ### The unit's own values -/

/-- A field of the NI page taken as 1 when it is 0 (R143). It reads back 0 as written (DESIGN CHOICE, log 112). -/
def atLeast1 (n : Nat) : Nat := max 1 n

/-- RETRY_TO, RETRY_MAX, ACK_EVERY of unit `l`: an NI's fields, a bank's fixed values (R143, R535). -/
def Seg.retryTo (s : Seg) (l : Nat) : Nat := if l < 0x120 then atLeast1 (s.rd (pgNi l) Reg.NI.RETRY_CFG_RETRY_TO) else 7
def Seg.retryMax (s : Seg) (l : Nat) : Nat := if l < 0x120 then atLeast1 (s.rd (pgNi l) Reg.NI.RETRY_CFG_RETRY_MAX) else 3
def Seg.ackEvery (s : Seg) (l : Nat) : Nat :=
  if l < 0x120 then atLeast1 (min 16 (s.rd (pgNi l) Reg.NI.ACK_CFG_ACK_EVERY)) else 16

/-- A counter of the delivery machinery, which an NI page has and a bank page has not. -/
def Seg.niCount (s : Seg) (l off : Nat) : Seg := if l < 0x120 then s.count (pgNi l) off else s

/-- The NI of site `n` runs: its tile is awake, and neither a reset, a saggar, a fence nor a kiln run holds it. -/
def Seg.niRuns (s : Seg) (n : Nat) : Bool :=
  decide (s.stTile (n / 2) ≤ 1) && !(s.ni n).resetting && !s.saggared (pgNi n) && !s.saggared (pgRt (n / 2))
    && !s.fenced (n / 2) && !s.kilnIsolates (srcNi n)

/-- Bank `b` is clocked: its tile is awake, and no kiln run holds it. A fence leaves it untouched (R192, R426). -/
def Seg.bankClocked (s : Seg) (b : Nat) : Bool := decide (s.stTile (bankTile b) ≤ 1) && !s.kilnIsolates (srcBank b)

/-- Bank `b` is reached: it is clocked, and in no fence region. -/
def Seg.bankPort (s : Seg) (b : Nat) : Bool := s.bankClocked b && !s.fenced (bankTile b)

/-- Bank `b` runs: it is clocked, and its own domain is awake. -/
def Seg.bankRuns (s : Seg) (b : Nat) : Bool := decide (s.stBank b ≤ 1) && s.bankClocked b

/-- A unit that takes part in the delivery machinery. -/
def Seg.epRuns (s : Seg) (l : Nat) : Bool := if l < 0x120 then s.niRuns l else s.bankPort (l - 0x200)

/-- The NI takes no new work: DRAIN is 1 or ENABLE 0 (R149). -/
def Seg.niDraining (s : Seg) (n : Nat) : Bool :=
  s.flag (pgNi n) Reg.PAGE.PAGE_CTRL_DRAIN || !s.flag (pgNi n) Reg.PAGE.PAGE_CTRL_ENABLE

/-! ### Credits and completions (R120–R122, R131) -/

/-- The credits owed to the agent, sent as one credit beat on RS (R121). -/
def Seg.creditBeat (s : Seg) (n : Nat) : Seg :=
  let x := s.ni n
  if x.retReq = 0 ∧ x.retWd = 0 ∧ x.retTun = 0 then s
  else
    let h : Hdr := { dest := s.eid n, src := s.eid n, type := tCpl, cls := 2, code := cOk, tag := 0xFFF }
    let imm := x.retReq % 256 + x.retWd % 256 * 256 + x.retTun % 256 * 65536
    s.setNi n { x with
      retReq := 0, retWd := 0, retTun := 0
      rs := x.rs ++ [{ bits := BitVec.ofNat 768 imm ++ h.glaze.toBits, credit := true }] }

/-- SNP credits owed to the agent, sent on SN. -/
def Seg.snpCredit (s : Seg) (n : Nat) : Seg :=
  let x := s.ni n
  if x.retSnp = 0 then s
  else
    let h : Hdr := { dest := s.eid n, src := s.eid n, type := tSnpRsp, cls := 2, code := cOk, tag := 0xFFF,
                     aux := BitVec.ofNat 16 (x.retSnp % 256) }
    s.setNi n { x with retSnp := 0, sn := x.sn ++ [{ bits := 0#768 ++ h.glaze.toBits, credit := true }] }

/-- Credits of each kind given back. -/
def Seg.giveBack (s : Seg) (n req wd tun : Nat) : Seg :=
  (s.modNi n fun x => { x with retReq := x.retReq + req, retWd := x.retWd + wd, retTun := x.retTun + tun }).creditBeat n

/-- The WD and TUN credits an entry's beats used. -/
def Entry.wdCredits (e : Entry) : Nat := if e.hdr.type == tTunnel then 0 else e.wdUsed
def Entry.tunCredits (e : Entry) : Nat := if e.hdr.type == tTunnel then 1 else 0

/-- The header store without entry `id`. -/
def Ni.drop (x : Ni) (id : Nat) : Ni := { x with store := x.store.filter (fun e => e.id != id) }
/-- Entry `id` changed by `f`. -/
def Ni.mapEntry (x : Ni) (id : Nat) (f : Entry → Entry) : Ni :=
  { x with store := x.store.map (fun e => if e.id = id then f e else e) }
def Seg.modEntry (s : Seg) (n id : Nat) (f : Entry → Entry) : Seg := s.modNi n fun x => x.mapEntry id f

/-- A new entry of the header store. -/
def Ni.enter (x : Ni) (e : Entry) : Ni := { x with store := x.store ++ [{ e with id := x.nextId }], nextId := x.nextId + 1 }

/-- One request fewer in flight through binding entry `i` (R131). -/
def Ni.landed (x : Ni) (i : Byte) : Ni :=
  { x with inFlight := SMap.put 0 x.inFlight i.toNat (SMap.get 0 x.inFlight i.toNat - 1) }

/-- Entry `e` is complete: it is no access any more. One that has been sent stays until it is acknowledged, for its WD
credits return then. -/
def Seg.retire (s : Seg) (n : Nat) (e : Entry) : Seg :=
  let s := s.modNi n fun x => x.landed e.bind
  if e.phase == .sent && !e.acked then s.modEntry n e.id fun e => { e with dead := true, slots := 0 }
  else s.modNi n fun x => x.drop e.id

/-- A request the NI completes with a code of its own (R115): the completion returns its REQ credit, a credit beat its
WD credits where they have not returned. -/
def Seg.complete (s : Seg) (n : Nat) (e : Entry) (code : BitVec 3) : Seg :=
  let s := (s.retire n e).niCpl n (s.eid n) e.hdr.tag code
  if e.acked || e.phase == .sent then s else s.giveBack n 0 e.wdCredits e.tunCredits

/-- A posted request acknowledged or discarded: its credits return by credit beat, or under POSTED_CPL its REQ credit by
its own CPL (R122). -/
def Seg.completePosted (s : Seg) (n : Nat) (e : Entry) (code : BitVec 3) : Seg :=
  let s := s.modNi n fun x => (x.landed e.bind).drop e.id
  if s.flag (pgNi n) Reg.NI.NI_CFG_POSTED_CPL then
    (s.niCpl n (s.eid n) e.hdr.tag code).giveBack n 0 e.wdCredits e.tunCredits
  else s.giveBack n 1 e.wdCredits e.tunCredits

/-! ### Virtual channels at injection (R187, R188) -/

/-- The VC on which a unit puts a header into its router. -/
def Seg.injectVc (s : Seg) (l : Nat) (pl : Plane) (h : Hdr) : Nat :=
  let r := (Flit.rhdr { body := .head h 0 }).getD ⟨0, 0, 0, 0, false, false, 0, 0, 0, false, false⟩
  if h.cls = 1 then 3
  else if s.adaptOk (unitPort l).1 r && !snpResponse pl r then
    let m := s.mapOf (s.unitEpoch l)
    match target (s.ringOf m.ringVer) m s.strap r with
    | some (tx, _, _) => if pl ≠ .snp ∧ tx < tileX (unitPort l).1 then 2 else 1
    | none => 1
  else escVc pl r

/-! ### Sending (R132, R134, R136, R145, R218, R267, R536) -/

/-- A region that spans the segment lies between two tiles (R195). -/
def FenceMap.cuts (m : FenceMap) (a b : Nat) : Bool :=
  m.rects.any fun r =>
    (r.x0 == 0 && r.x1 == 11 && ((tileY a < r.y0 && r.y1 < tileY b) || (tileY b < r.y0 && r.y1 < tileY a)))
      || (r.y0 == 0 && r.y1 == 11 && ((tileX a < r.x0 && r.x1 < tileX b) || (tileX b < r.x0 && r.x1 < tileX a)))

/-- The target tile of EID `d` lies in a region or across a split under the epoch unit `l` injects under; toward another
segment also the tile of the bridge (R145, R192, R195). -/
def Seg.fencedFor (s : Seg) (l : Nat) (d : BitVec 12) : Bool :=
  let m := s.mapOf (s.unitEpoch l)
  (eidSeg d != s.strap && decide (eidLocal d < 0x300)
    && ((s.ringOf m.ringVer).regionMap (eidSeg d)).tile (localTile 65 (eidLocal d))) ||
  match target (s.ringOf m.ringVer) m s.strap ⟨d, s.eid l, 0, 0, false, false, 0, 0, 0, false, false⟩ with
  | some (tx, ty, _) => m.has tx ty || m.cuts (unitPort l).1 (tileOf tx ty)
  | none => true

/-- The home tile of EID `d` lies in a fence region or is dormant under the epoch unit `l` injects under (R145). -/
def Seg.homeFenced (s : Seg) (l : Nat) (d : BitVec 12) : Bool :=
  let m := s.mapOf (s.unitEpoch l)
  let t := localTile 65 (eidLocal d)
  decide (eidLocal d < 0x300) &&
    if eidSeg d = s.strap then m.tile t else ((s.ringOf m.ringVer).regionMap (eidSeg d)).tile t

/-- The header as it is sent now: to the twin with VIA_TWIN where `alt` names one and the home is fenced (R145). -/
def Seg.addressed (s : Seg) (l : Nat) (h : Hdr) (alt : Option (BitVec 12)) : Hdr :=
  match alt with
  | some a => if s.homeFenced l h.dest then { h with dest := a, viaTwin := true, adapt := false } else h
  | none => h

/-- Number one packet toward `home` on plane `pl` and keep it until it is acknowledged; the packet answered is as it is
sent. A fresh sequence starts where one is due (R536). The first packet that goes to ALT is a failover (R145, R150). -/
def Seg.number (s : Seg) (l : Nat) (home : BitVec 12) (p : Packet) (entry : Option Nat) (alt : Option (BitVec 12)) :
    Seg × Packet :=
  let pl := p.plane.code
  let st := (s.ep l).sendOf home pl
  let fresh := !st.started && ((s.ep l).txFresh || st.freshDue)
  let st : Send := if fresh then { started := true, sync := true, failedOver := st.failedOver } else { st with started := true }
  let fenced := s.homeFenced l home
  let first := fenced && alt.isSome && !st.failedOver && decide (l < 0x120)
  let st := { st with grant := st.grant && !fenced, failedOver := fenced && (st.failedOver || alt.isSome) }
  let snpRsp := p.plane == .snp && p.hdr.type != tSnoop && p.hdr.type != tBackInval
  let c1 := p.hdr.cls == 1
  let h := { p.hdr with
    src := s.eid l, seq := st.next, sync := st.sync, epoch := s.unitEpoch l, retry := false
    adapt := st.grant && !st.sync && !c1 && !snpRsp, age := ageOf (s.unitTime l) }
  let h := s.addressed l { h with dest := home } alt
  let q := { p with hdr := h }
  let now := s.unitTime l
  let s := s.modEp l fun e => e.setSend home pl { st with
    next := st.next + 1, unacked := st.unacked ++ [⟨q, now, entry⟩], lastSent := now, c1 := some c1 }
  let s := s.when first fun s =>
    (s.count (pgNi l) 0x880).evt (pgNi l) 13 (BitVec.ofNat 32 (home.toNat + 4096 * pl))
  (if fresh then s.niCount l 0x8A8 else s, q)

/-- A sequence lets one more packet go, C1 or not, under an epoch: earlier ones are acknowledged first at a change
between C1 and another class (R267) and, without a grant in use, at a change of epoch (R136); a grant allows 8 (R134). -/
def Send.ready (st : Send) (c1 : Bool) (epoch : BitVec 4) : Bool :=
  let change := match st.c1 with | some b => b != c1 | none => false
  let older := st.unacked.any (fun u => u.pkt.hdr.epoch != epoch)
  !(change && !st.unacked.isEmpty) && !((!st.grant || st.sync) && older) && !(st.grant && decide (8 ≤ st.unacked.length))

/-- The packets without a header-store entry that their sequences let go now are sent, in order toward each destination
and plane; `n` bounds the looks at the queue. -/
def Seg.sendOwns (s : Seg) (l : Nat) : Nat → Seg
  | 0 => s
  | n + 1 =>
    let q := (s.ep l).own
    let ready := fun p : Packet =>
      ((s.ep l).sendOf p.hdr.dest p.plane.code).ready (p.hdr.cls == 1) (s.unitEpoch l)
        && ((q.find? (fun r => r.hdr.dest == p.hdr.dest && r.plane == p.plane)) == some p)
    match q.find? ready with
    | none => s
    | some p =>
      let s := s.modEp l fun e => { e with own := e.own.erase p }
      let (s, q) := s.number l p.hdr.dest p none none
      Seg.sendOwns ((s.niCount l 0x800).injectPkt l (s.injectVc l q.plane q.hdr) q) l n

/-- Every packet without an entry that may go goes. -/
def Seg.sendReady (s : Seg) (l : Nat) : Seg := s.sendOwns l (s.ep l).own.length

/-- A packet that has no header-store entry: a completion of a bank, or a request of the flow engine. It goes as soon as
its sequence lets it. -/
def Seg.sendOwn (s : Seg) (l : Nat) (p : Packet) : Seg :=
  (s.modEp l fun e => { e with own := e.own ++ [p] }).sendReady l

/-! ### Resending (R140, R141, R536) -/

/-- The ALT a packet's entry keeps. -/
def Seg.altOf (s : Seg) (l : Nat) (entry : Option Nat) : Option (BitVec 12) :=
  match entry with
  | some id => ((s.ni l).store.find? (fun e => e.id == id)).bind (fun e => if e.altEn then some e.alt else none)
  | none => none

/-- Every unacknowledged packet to `home` on `pl` sent again, in SEQ order. A C1 packet with an entry goes out again
through the release of its two copies. -/
def Seg.goBack (s : Seg) (l : Nat) (home : BitVec 12) (pl : Nat) : Seg :=
  let st := (s.ep l).sendOf home pl
  let now := s.unitTime l
  let again := st.unacked.map fun u =>
    let h := { u.pkt.hdr with retry := true, epoch := s.unitEpoch l, sync := st.sync, adapt := u.pkt.hdr.adapt && st.grant }
    let sent := if h.viaTwin then h else s.addressed l { h with dest := home } (s.altOf l u.entry)
    { u with at_ := now, pkt := { u.pkt with hdr := sent } }
  let s := s.modEp l fun e => e.setSend home pl { st with unacked := again, lastSent := now }
  s.each again fun s u =>
    let s := s.niCount l 0x810
    match u.entry with
    | some id =>
      if u.pkt.hdr.cls = 1 ∧ l < 0x120 then
        s.modEntry l id fun e => { e with phase := .copies, path0 := false, path1 := false, since := now }
      else s.injectPkt l (s.injectVc l u.pkt.plane u.pkt.hdr) u.pkt
    | none => s.injectPkt l (s.injectVc l u.pkt.plane u.pkt.hdr) u.pkt

/-- The first lost posted packet recorded (R141). -/
def Seg.noteLost (s : Seg) (n : Nat) (h : Hdr) : Seg :=
  let p := pgNi n
  let s := s.modNi n fun x => { x with fenceLost := true }
  if s.flag p Reg.NI.LOST_INFO_VALID then s
  else
    let s := (s.setWord64 p 0x150 h.addr).wr p Reg.NI.LOST_INFO_VALID 1
    (s.wr p Reg.NI.LOST_INFO_DEST h.dest.toNat).evt p 10 (BitVec.ofNat 32 h.dest.toNat)

/-- The flow engine's request with tag `tag` completes here with `code` (R141, R142, R192, R299). -/
def Seg.feFails (s : Seg) (n : Nat) (tag : BitVec 12) (code : BitVec 3) : Seg :=
  let x := s.ni n
  if SMap.get (2 ^ 20) x.feTags tag.toNat = 2 ^ 20 ∨ x.feIn.any (·.hdr.tag == tag) = true then s
  else
    let h : Hdr := { dest := s.eid n, src := s.eid n, type := tCpl, cls := 0, code := code, tag := tag }
    let s := s.setNi n { x with feIn := x.feIn ++ [{ plane := .rsp, hdr := h }] }
    s.when (code == cDecerr) fun s => s.count (pgNi n) 0x850

/-- One packet given up: its request completes RETRYLOST, or its loss is recorded. -/
def Seg.losePacket (s : Seg) (n : Nat) (u : Unacked) : Seg :=
  let s := s.count (pgNi n) 0x818
  match u.entry.bind (fun id => (s.ni n).store.find? (fun e => e.id == id)) with
  | none => if u.pkt.plane = .req then s.feFails n u.pkt.hdr.tag cRetrylost else s
  | some e =>
    if e.dead || e.answer then (s.modNi n fun x => x.drop e.id).giveBack n 0 e.wdCredits e.tunCredits
    else if isPosted e.hdr.type then (s.noteLost n { e.hdr with dest := u.pkt.hdr.dest }).completePosted n e cRetrylost
    else s.complete n { e with phase := .queued } cRetrylost

/-- A snoop of the site given up or answered by the NI: its SNP credit (R120), and an SNPRSP with `code`. -/
def Seg.snpAnswer (s : Seg) (n : Nat) (tag : BitVec 12) (code : BitVec 3) : Seg :=
  let h : Hdr := { dest := s.eid n, src := s.eid n, type := tSnpRsp, cls := 2, code := code, tag := tag,
                   aux := 0 }
  let s := (s.modNi n fun x => { x with retSnp := x.retSnp + 1 }).snpCredit n
  s.modNi n fun x => { x with sn := x.sn ++ [{ bits := 0#768 ++ h.glaze.toBits, cpl := true }] }

/-- Retry is exhausted toward `home` on `pl` (R141): everything unacknowledged is lost, one event is raised, and the next
packet starts a fresh sequence. -/
def Seg.exhaust (s : Seg) (l : Nat) (home : BitVec 12) (pl : Nat) : Seg :=
  let st := (s.ep l).sendOf home pl
  let s := s.modEp l fun e => e.setSend home pl { freshDue := true, lastSent := st.lastSent, c1 := st.c1, failedOver := st.failedOver }
  if l < 0x120 then
    let s := s.each st.unacked fun s u =>
      if pl = 2 ∧ (u.pkt.hdr.type = tSnoop ∨ u.pkt.hdr.type = tBackInval) then
        let s := s.count (pgNi l) 0x818
        match u.entry.bind (fun id => (s.ni l).store.find? (fun e => e.id == id)) with
        | none => s
        | some e =>
          if e.dead then s.modNi l fun x => x.drop e.id
          else (s.modNi l fun x => (x.landed e.bind).drop e.id).snpAnswer l e.hdr.tag cRetrylost
      else s.losePacket l u
    (s.evt (pgNi l) 9 (BitVec.ofNat 32 (home.toNat + 4096 * pl))).sendReady l
  else s.sendReady l

/-- One trigger of R140: a go-back resend, or after RETRY_MAX of them without progress the loss of R141. -/
def Seg.retryTrigger (s : Seg) (l : Nat) (home : BitVec 12) (pl : Nat) : Seg :=
  let st := (s.ep l).sendOf home pl
  if st.unacked = [] then s
  else if s.retryMax l ≤ st.resends then s.exhaust l home pl
  else (s.modEp l fun e => e.setSend home pl { st with resends := st.resends + 1 }).goBack l home pl

/-- NACK with RESYNC (R536): the unacknowledged packets are renumbered from SEQ 0 with SYNC, and resent. The resend counts as
one toward RETRY_MAX, as every go-back resend does (DESIGN CHOICE, log 111). -/
def Seg.resync (s : Seg) (l : Nat) (home : BitVec 12) (pl : Nat) : Seg :=
  let st := (s.ep l).sendOf home pl
  let ren := st.unacked.zipIdx.map fun (u, i) =>
    { u with pkt := { u.pkt with hdr := { u.pkt.hdr with seq := BitVec.ofNat 16 i, sync := true, adapt := false } } }
  let st := { st with unacked := ren, next := BitVec.ofNat 16 ren.length, sync := true, grant := false, started := true,
                      freshDue := false }
  ((s.modEp l fun e => e.setSend home pl st).niCount l 0x8A8).retryTrigger l home pl

/-! ### Taking an acknowledgement (R133, R134, R154) -/

/-- The endpoint whose sequence an acknowledgement from `src` belongs to: after failover the home EID's (R145). -/
def Ep.homeOf (e : Ep) (src : BitVec 12) (pl : Nat) (viaTwin : Bool) : BitVec 12 :=
  if viaTwin then
    match e.send.find? (fun d => d.1 % 4 == pl && d.2.unacked.any (fun u => u.pkt.hdr.dest == src && u.pkt.hdr.viaTwin)) with
    | some d => BitVec.ofNat 12 (d.1 / 4)
    | none => src
  else src

/-- A C1 packet of which one copy has gone is acknowledged or complete: the other copy still goes in its own window (R254). -/
def Seg.noteLate (s : Seg) (n : Nat) (e : Entry) (p : Packet) : Seg :=
  s.when (e.phase == .copies && e.path0 != e.path1) fun s => s.modNi n fun x => { x with late := x.late ++ [(e, p)] }

/-- One packet of an NI acknowledged: its entry is bound, complete, or done with. `refused` names it as refused. -/
def Seg.packetAcked (s : Seg) (n : Nat) (u : Unacked) (refused : Bool) : Seg :=
  match u.entry.bind (fun id => (s.ni n).store.find? (fun e => e.id == id)) with
  | none => s
  | some e =>
    let s := s.noteLate n e u.pkt
    if e.dead || e.answer then
      (s.modNi n fun x => x.drop e.id).giveBack n 0 (if e.answer then 0 else e.wdCredits) (if e.answer then 0 else e.tunCredits)
    else if isPosted e.hdr.type then s.completePosted n e (if refused then cDenied else cOk)
    else if e.hdr.type = tSnoop ∨ e.hdr.type = tBackInval then
      s.modEntry n e.id fun e => { e with acked := true, phase := .bound, since := s.unitTime n }
    else
      (s.modEntry n e.id fun e => { e with acked := true, phase := .bound, since := s.unitTime n }).giveBack n 0 e.wdCredits 0

/-- An acknowledgement taken by unit `l` (R133, R134, R140, R154, R536). One with NACK and RESYNC comes from receive state
that is gone: it covers nothing. -/
def Seg.takeAck (s : Seg) (l : Nat) (h : Hdr) : Seg :=
  let aux := h.aux.toNat
  let pl := aux / 4 % 4
  let home := (s.ep l).homeOf h.src pl h.viaTwin
  let st := (s.ep l).sendOf home pl
  let fresh := aux / 2 % 2 = 1 ∧ aux / 32 % 2 = 1
  let covered := fun u : Unacked => decide (¬ fresh) && decide ((h.seq - u.pkt.hdr.seq).toNat < 32768)
  let done := st.unacked.filter covered
  let rest := st.unacked.filter (fun u => !covered u)
  let refused := aux / 16 % 2 = 1
  let st := { st with
    unacked := rest
    sync := st.sync && !done.any (fun u => u.pkt.hdr.seq == 0)
    resends := if done = [] then st.resends else 0 }
  let st := if aux % 2 = 1 ∧ st.sync = false ∧ s.homeFenced l home = false then { st with grant := true } else st
  let s := s.modEp l fun e => e.setSend home pl st
  let s := if l < 0x120 then
      let s := if refused then (s.count (pgNi l) 0x8A0).modNi l fun x => { x with fenceRefused := true } else s
      s.each done fun s u => s.packetAcked l u (refused && u.pkt.hdr.seq == h.seq)
    else s
  if fresh then s.resync l home pl
  else if aux / 2 % 2 = 1 then s.retryTrigger l home pl
  else s.sendReady l

/-! ### Delivering (R69, R116, R123, R124, R149, R208, R209) -/

/-- The header as an agent sees it: poisoned where any of its flits is. -/
def Packet.seen (p : Packet) : Hdr := { p.hdr with poison := p.hdr.poison || p.data.any (·.poison) }

/-- A packet as RS beats: header and immediate area, then its data flits, the last ending the delivery under receive key
`key` where there is one (R123). -/
def rsBeats (p : Packet) (key : Nat) (deliv cpl ld : Bool) : List Beat :=
  let all := (p.imm ++ p.seen.toBits) :: p.data.map (·.bits)
  all.zipIdx.map fun (b, i) =>
    let last := i + 1 == all.length
    { bits := b, last := last, deliv := if last && deliv then some (p.hdr.src, key, p.hdr.seq) else none, cpl := cpl,
      ld := ld && last, noGrant := p.hdr.cls == 1, old := p.old }

/-- A packet as SN beats of 256 bits. -/
def snBeats (p : Packet) (key : Nat) (cpl : Bool) : List Beat :=
  let all := (0#768 ++ p.seen.toBits) :: p.data.map (·.bits)
  all.zipIdx.map fun (b, i) =>
    let last := i + 1 == all.length
    { bits := b, last := last, deliv := if last then some (p.hdr.src, key, p.hdr.seq) else none, cpl := cpl,
      noGrant := p.hdr.cls == 1 || p.hdr.type == tSnpRsp, old := p.old }

/-- The key of the receive state a packet belongs to: a twin site keeps VIA_TWIN packets apart (R145). -/
def Seg.recvKey (s : Seg) (l : Nat) (p : Packet) : Nat :=
  p.plane.code + (if l < 0x120 ∧ p.hdr.viaTwin = true ∧ s.flag (pgNi l) Reg.NI.NI_CFG_TWIN = true then twinKey else 0)

/-- The deliveries that have become next in SEQ order counted as delivered in order; `now` stamps the oldest of those
owed. -/
def Recv.advance (r : Recv) (now : BitVec 64) : Nat → Recv
  | 0 => r
  | n + 1 =>
    match r.ahead.find? (fun a => a.1 == r.del + 1) with
    | none => r
    | some a =>
      Recv.advance { r with
        del := a.1, ahead := r.ahead.erase a, owed := r.owed + 1, oldest := if r.owed = 0 then now else r.oldest
        noGrant := r.noGrant || a.2 } now n

/-- One delivery of source `src`. SEQ order is kept for the acknowledgement, which follows at ACK_EVERY: a packet delivered
ahead of an earlier one is covered only with it (R133). C1 and SNPRSP never earn a grant. -/
def Seg.delivered (s : Seg) (l : Nat) (src : BitVec 12) (key : Nat) (seq : BitVec 16) (noGrant : Bool) : Seg :=
  let r := (s.ep l).recvOf src key
  let r := { r with ahead := r.ahead ++ [(seq, noGrant)] }
  let r := r.advance (s.unitTime l) r.ahead.length
  let s := s.modEp l fun e => e.setRecv src key r
  if 0 < r.owed ∧ s.ackEvery l ≤ r.owed then s.ackNow l src key else s

/-- The delivery of packet `p`, unless its receive state has been discarded (R536). -/
def Seg.deliveredPkt (s : Seg) (l : Nat) (p : Packet) (noGrant : Bool) : Seg :=
  if p.old then s else s.delivered l p.hdr.src (s.recvKey l p) p.hdr.seq noGrant

/-- A posted packet consumed without effect: every earlier delivery is acknowledged, then the packet as refused (R133). -/
def Seg.refusePosted (s : Seg) (l : Nat) (p : Packet) : Seg :=
  let src := p.hdr.src
  let key := s.recvKey l p
  if p.old then s.niCount l 0x8B0
  else
    let s := if 0 < ((s.ep l).recvOf src key).owed then s.ackNow l src key else s
    let s := s.modEp l fun e => e.setRecv src key { e.recvOf src key with del := p.hdr.seq }
    (s.ackPackets l src key p.hdr.seq (p.hdr.cls == 1) true).niCount l 0x8B0

/-- The completion of request `q` by a unit: to its source, with its tag, class and flow (R248). -/
def answerHdr (q : Hdr) (type : BitVec 4) (code : BitVec 3) (len : BitVec 10) : Hdr :=
  { dest := q.src, type := type, cls := q.cls, code := code, len := len, tag := q.tag, fid := q.fid, viaTwin := q.viaTwin }

/-- A non-posted request answered with `code` by the NI of site `n` itself, without data: an answer of its header store, in
the request's class, which on the SNP plane is never C1 (R248). -/
def Seg.answerCode (s : Seg) (n : Nat) (p : Packet) (code : BitVec 3) : Seg :=
  let h := answerHdr p.hdr (if p.plane = .snp then tSnpRsp else tCpl) code 0
  let h := if p.plane = .snp ∧ h.cls = 1 then { h with cls := 2 } else h
  s.modNi n fun x => x.enter { id := 0, hdr := h, answer := true, bindClass := h.cls, phase := .eligible, since := s.unitTime n }

/-- An RS or SN beat that ends a delivery of this source and receive state still waits. -/
def Ni.pendingFor (x : Ni) (src : BitVec 12) (key : Nat) : Bool :=
  (x.rs ++ x.sn).any (fun b => match b.deliv with | some (a, k, _) => a == src && k == key | none => false)

/-- The write/retry entries left for completions: of those WD_CRED leaves, the ones neither stored answers nor requests
delivered and not yet answered hold (R124). -/
def Seg.cplRoom (s : Seg) (n : Nat) : Nat :=
  64 - atLeast1 (s.rd (pgNi n) Reg.NI.NI_CREDIT_WD_CRED) - ((s.ni n).store.filter (·.answer)).foldl (fun a e => a + e.need) 0
    - (s.ni n).inb.foldl (fun a i => a + i.room) 0

/-- The write/retry entries the completion of an inbound request needs (R109, R124); an SNPRSP needs its entry of the SR
store alone. -/
def cplNeed (h : Hdr) : Nat := if h.type = tRead ∨ h.type = tLdres then wdBeats tCpl h.len.toNat else 0

/-- Space for the completion of an inbound request is there (R124, R209). -/
def Seg.roomFor (s : Seg) (n : Nat) (h : Hdr) : Bool :=
  let x := s.ni n
  decide (x.store.length + x.inb.length < 256) && decide (cplNeed h ≤ s.cplRoom n)

/-- The port an inbound request is delivered on is free: UP is 1 and no beat waits there, so that a request stands at the
port as soon as it is put there (R123, R149). -/
def Ni.portFree (x : Ni) (pl : Plane) : Bool := x.up && (if pl = .snp then x.sn else x.rs).isEmpty

/-- What becomes of the inbound request or message `p`, next in order: consumed, delivered, or not yet (R123, R124, R126,
R149). `none`: it waits. -/
def Seg.serveIn (s : Seg) (n : Nat) (p : Packet) : Option Seg :=
  let x := s.ni n
  let key := s.recvKey n p
  let h := p.hdr
  if s.niDraining n || !s.flag (pgNi n) Reg.NI.NI_CFG_COMPLETER then
    if x.pendingFor h.src key then none
    else if isPosted h.type then some (s.refusePosted n p)
    else some (((s.deliveredPkt n p (h.cls == 1)).answerCode n p cDecerr).count (pgNi n) 0x850)
  else if !x.portFree p.plane then none
  else if isPosted h.type then some (s.modNi n fun x => { x with rs := x.rs ++ rsBeats p key true false false })
  else if s.roomFor n h then
    let i : Inbound := ⟨h.src, h.tag, p.plane == .snp, h.cls, h.fid, h.type, h.viaTwin, cplNeed h⟩
    some (s.modNi n fun x =>
      if p.plane = .snp then { x with inb := x.inb ++ [i], sn := x.sn ++ snBeats p key false }
      else { x with inb := x.inb ++ [i], rs := x.rs ++ rsBeats p key true false false })
  else none

/-- The packets of plane `pl` that wait at the NI served in order, as far as they go. -/
def Seg.serveWaiting (s : Seg) (n : Nat) (pl : Plane) : Nat → Seg
  | 0 => s
  | fuel + 1 =>
    match (s.ni n).wait.find? (fun p => p.plane == pl) with
    | none => s
    | some p =>
      match s.serveIn n p with
      | none => s
      | some t => Seg.serveWaiting (t.modNi n fun x => { x with wait := x.wait.erase p }) n pl fuel

/-- Both planes of waiting requests served. -/
def Seg.serveAll (s : Seg) (n : Nat) : Seg :=
  let k := (s.ni n).wait.length
  (s.serveWaiting n .req k).serveWaiting n .snp k

/-- An SNPRSP of the site's own snoop delivered on SN after its SNP credit (R120); one that matches nothing is only
consumed, counted as a CPL that comes too late is (R142; DESIGN CHOICE, log 127). -/
def Seg.takeSnpRsp (s : Seg) (n : Nat) (p : Packet) : Seg :=
  match (s.ni n).store.find? (fun e => !e.dead && !e.answer && (e.hdr.type == tSnoop || e.hdr.type == tBackInval)
      && e.hdr.tag == p.hdr.tag) with
  | none => (s.count (pgNi n) 0x828).deliveredPkt n p true
  | some e =>
    let s := ((s.retire n e).modNi n fun x => { x with retSnp := x.retSnp + 1 }).snpCredit n
    s.modNi n fun x => { x with sn := x.sn ++ snBeats p (s.recvKey n p) true }

/-- A packet taken in order by unit `l` (R124, R137). -/
def Seg.takeIn (s : Seg) (l : Nat) (p : Packet) : Seg :=
  if l < 0x120 then
    if p.plane = .rsp then
      if p.hdr.fid.toNat % 2 ^ 18 = 0x3FFFF then
        (s.modNi l fun x => { x with feIn := x.feIn ++ [p] }).deliveredPkt l p false
      else s.modNi l fun x => { x with cplIn := x.cplIn ++ [p] }
    else if p.plane = .snp ∧ p.hdr.type = tSnpRsp then s.takeSnpRsp l p
    else (s.modNi l fun x => { x with wait := x.wait ++ [p] }).serveAll l
  else
    s.modBank (l - 0x200) fun b =>
      if directPair (eidLocal p.hdr.src) l && eidSeg p.hdr.src == s.strap then { b with pb := { b.pb with q := b.pb.q ++ [p] } }
      else { b with pa := { b.pa with q := b.pa.q ++ [p] } }

/-! ### Receipt (R111, R137, R139, R535, R536) -/

/-- An acknowledgement with NACK, at most once per source and plane in each RETRY_TO period. -/
def Seg.sendNack (s : Seg) (l : Nat) (src : BitVec 12) (key : Nat) (resync : Bool) : Seg :=
  let r := (s.ep l).recvOf src key
  let now := s.unitTime l
  let soon := match r.lastNack with | some t => decide ((now - t).toNat < s.retryTo l * 256) | none => false
  if soon then s
  else
    let s := s.modEp l fun e => e.setRecv src key { r with lastNack := some now }
    (s.sendAck l src key r.del false true false resync).niCount l 0x848

/-- The held packets that have become next are taken. -/
def Seg.takeHeld (s : Seg) (l : Nat) (src : BitVec 12) (key : Nat) : Nat → Seg
  | 0 => s
  | fuel + 1 =>
    let r := (s.ep l).recvOf src key
    match r.held.find? (fun p => p.hdr.seq == r.next) with
    | none => s
    | some p =>
      let s := s.modEp l fun e => e.setRecv src key { r with next := r.next + 1, held := r.held.erase p }
      Seg.takeHeld (s.takeIn l p) l src key fuel

/-- The receive state once copy `h` of a C1 packet has come and its twin may still come. -/
def Recv.expectTwin (r : Recv) (h : Hdr) : Recv :=
  if h.cls = 1 then { r with twin := r.twin.filter (fun t => t.1 != h.seq) ++ [(h.seq, h.path, h.retry)] } else r

/-- `h` is the twin of a C1 copy that has come: the other path of the same sending (R139). -/
def Recv.isTwin (r : Recv) (h : Hdr) : Bool := h.cls == 1 && r.twin.contains (h.seq, !h.path, h.retry)

/-- R137 and R139 against the receive state in force: a twin is discarded and counted; a duplicate is counted and
acknowledged again. -/
def Seg.decideIn (s : Seg) (l : Nat) (p : Packet) : Seg :=
  let key := s.recvKey l p
  let h := p.hdr
  let r := (s.ep l).recvOf h.src key
  let d := (h.seq - r.next).toNat
  if d = 0 then
    let s := s.modEp l fun e => e.setRecv h.src key ({ r with next := r.next + 1 }.expectTwin h)
    (s.takeIn l p).takeHeld l h.src key 8
  else if 32768 ≤ d ∨ r.held.any (fun q => q.hdr.seq == h.seq) = true then
    if r.isTwin h then
      (s.modEp l fun e => e.setRecv h.src key { r with twin := r.twin.filter (fun t => t.1 != h.seq) }).niCount l 0x830
    else
      let s := s.modEp l fun e => e.setRecv h.src key (r.expectTwin h)
      (s.niCount l 0x838).ackPackets l h.src key r.del (h.cls == 1 || h.type == tSnpRsp) false
  else if h.adapt ∧ d ≤ 7 then s.modEp l fun e => e.setRecv h.src key { r with held := r.held ++ [p] }
  else (s.niCount l 0x840).sendNack l h.src key false

/-- Packet `p` belongs to the receive state of `src` under `key`. -/
def Seg.ofRecv (s : Seg) (l : Nat) (src : BitVec 12) (key : Nat) (p : Packet) : Bool :=
  p.hdr.src == src && s.recvKey l p == key

/-- The receive state of `src` under `key` is discarded for a new one: what unit `l` has taken under it and not delivered is
delivered without an acknowledgement (R536). -/
def Seg.discardRecv (s : Seg) (l : Nat) (src : BitVec 12) (key : Nat) : Seg :=
  let mark := fun p : Packet => if s.ofRecv l src key p then { p with old := true } else p
  let beat := fun b : Beat => match b.deliv with
    | some (a, k, _) => if a = src ∧ k = key then { b with old := true } else b
    | none => b
  if l < 0x120 then
    s.modNi l fun x => { x with
      rs := x.rs.map beat, sn := x.sn.map beat, wait := x.wait.map mark, cplIn := x.cplIn.map mark }
  else
    let port := fun x : BankPort => { x with
      q := x.q.map mark, burst := x.burst.map (fun u => { u with pkt := mark u.pkt }) }
    s.modBank (l - 0x200) fun b => { b with
      pa := port b.pa, pb := port b.pb, defer := b.defer.map (fun d => (d.1, { d.2 with pkt := mark d.2.pkt })) }

/-- A sound packet that has reached unit `l`: SYNC first, then R137. -/
def Seg.receive (s : Seg) (l : Nat) (p : Packet) : Seg :=
  let key := s.recvKey l p
  let h := p.hdr
  let r := (s.ep l).recvOf h.src key
  let now := s.unitTime l
  if h.sync ∧ h.seq = 0 ∧ ¬ (r.active ∧ r.bySync) then
    let s := (s.discardRecv l h.src key).modEp l fun e =>
      e.setRecv h.src key { active := true, bySync := true, lastPkt := now, lastNack := r.lastNack }
    s.decideIn l p
  else if h.sync = false ∧ r.active = false ∧ (s.ep l).rxLost = true then
    (s.niCount l 0x840).sendNack l h.src key true
  else
    let first := if twinKey ≤ key then h.seq else 0
    let r := if r.active then r else { r with active := true, next := first, del := first - 1 }
    let s := s.modEp l fun e => e.setRecv h.src key { r with bySync := r.bySync && h.sync, lastPkt := now }
    s.decideIn l p

/-- The packet with what the endpoint's ECC finds in its flits, by flit number, and whether a flit's control parity fails:
two wrong bits spoil the header or poison a data flit (R112, R113). -/
def Packet.upset (p : Packet) (double : List (Fin 8)) (cpar : Bool) : Packet :=
  let hit := fun i : Nat => double.any (fun d => d.val == i)
  { p with
    hdrErr := p.hdrErr || hit 0 || cpar
    data := p.data.zipIdx.map fun (d, i) => { d with poison := d.poison || hit (i + 1) } }

/-- A packet at an endpoint (R111, R112, R139, R206, R535): a header that fails its checks is consumed unacknowledged, a
truncated packet discarded. -/
def Seg.arrive (s : Seg) (l : Nat) (p : Packet) : Seg :=
  if p.hdrErr || !p.hdr.glazeOk then
    if l < 0x120 then (s.count (pgNi l) 0x868).evt (pgNi l) 11 (BitVec.ofNat 32 (p.hdr.src.toNat + 4096 * p.plane.code)) p.inj
    else (s.count (pgBank (l - 0x200)) 0x8B8).evt (pgBank (l - 0x200)) 16 0 p.inj
  else if p.trunc then s
  else s.receive l p

end Sys2Proof.Machine
end

