-- ==== Sys2Proof/Machine/Ordering.lean ====
section
/-!
DEFINITION. The ordering rules at an NI: which access may be injected, forwarding, and the waits (R152–R165).
-/
namespace Sys2Proof.Machine

/-- Two entries have one endpoint; a home EID and its twin count as one (R153). -/
def sameEndpoint (e f : Entry) : Bool :=
  e.hdr.dest == f.hdr.dest || (e.altEn && e.alt == f.hdr.dest) || (f.altEn && f.alt == e.hdr.dest)

/-- Their byte ranges share a byte at one endpoint (R153). -/
def overlaps (e f : Entry) : Bool :=
  sameEndpoint e f && decide (0 < e.hdr.len.toNat) && decide (0 < f.hdr.len.toNat)
    && decide (e.hdr.addr.toNat < f.hdr.addr.toNat + f.hdr.len.toNat)
    && decide (f.hdr.addr.toNat < e.hdr.addr.toNat + e.hdr.len.toNat)

/-- An access of the site: a request on RQ that is neither an answer, a snoop, a fence nor done with. -/
def Entry.access (e : Entry) : Bool :=
  !e.answer && !e.dead && (isLoad e.hdr.type || isStore e.hdr.type)

/-- The packet has left the NI. -/
def Entry.injected (e : Entry) : Bool := e.phase == .sent || e.phase == .bound

/-- The packet has passed meter and shaper. -/
def Entry.released (e : Entry) : Bool := e.injected || e.phase == .eligible || e.phase == .copies

/-- The access is bound: acknowledged (R154). -/
def Entry.isBound (e : Entry) : Bool := e.acked || e.phase == .bound

/-- A pure load and a pure store. -/
def Entry.pureLoad (e : Entry) : Bool := isLoad e.hdr.type && !isStore e.hdr.type
def Entry.pureStore (e : Entry) : Bool := isStore e.hdr.type && !isLoad e.hdr.type

/-- The access counts as relaxed at this site (R163, R164). -/
def Seg.relaxed (s : Seg) (n : Nat) (e : Entry) : Bool := e.hdr.relaxed && s.flag (pgNi n) Reg.NI.NI_ORD_CFG_RELAXED_OK

/-- R158: the ordered access `e` waits for the earlier ordered access `f` to another endpoint. -/
def Seg.bindWaits (s : Seg) (n : Nat) (e f : Entry) : Bool :=
  !sameEndpoint e f && !f.isBound && !s.relaxed n e && !s.relaxed n f && (isStore e.hdr.type || isLoad f.hdr.type)

/-- R156 with its one exception: `e` may not be injected ahead of the earlier `f`. `gone` tells whether `f` has gone. -/
def Seg.stuckBehind (s : Seg) (n : Nat) (gone : Entry → Bool) (e f : Entry) : Bool :=
  sameEndpoint e f && !gone f &&
    !(s.flag (pgNi n) Reg.NI.NI_ORD_EXP_LD_PASS_EN && e.pureLoad && f.pureStore && !overlaps e f)

/-- The entries of the store before `e`. -/
def Ni.before (x : Ni) (e : Entry) : List Entry := x.store.takeWhile (fun f => f.id != e.id)

/-- The other site of a dual-homed agent (R144, R153), while its NI runs. -/
def Seg.pairSite (s : Seg) (n : Nat) : Option Nat :=
  let p := pgNi n
  let d := BitVec.ofNat 12 (s.rd p Reg.NI.NI_ID_PAIR_EID)
  if (s.flag p Reg.NI.NI_CFG_DUAL || s.flag p Reg.NI.NI_CFG_TWIN) && eidSeg d == s.strap && decide (eidLocal d < 0x120)
      && eidLocal d != n && s.niRuns (eidLocal d) then some (eidLocal d)
  else none

/-- What comes before `e` in the program order of its agent: at its own port, and for a dual-homed agent at the other
(R153). -/
def Seg.earlier (s : Seg) (n : Nat) (e : Entry) : List Entry :=
  (s.ni n).before e ++ (match s.pairSite n with
    | some m => (s.ni m).store.filter (fun f => decide (f.ord < e.ord))
    | none => [])

/-- The overlapping earlier stores of a load that are not complete (R159). -/
def Seg.overlapping (s : Seg) (n : Nat) (e : Entry) : List Entry :=
  (s.earlier n e).filter (fun f => f.access && isStore f.hdr.type && overlaps e f)

/-- A load waits on an overlapping earlier store, forwarding aside. -/
def Seg.overlapWaits (s : Seg) (n : Nat) (e : Entry) : Bool :=
  isLoad e.hdr.type && (s.overlapping n e).any (fun f => !f.isBound)

/-- R156 and R158 let `e` go next, as R290 asks. -/
def Seg.mayGo (s : Seg) (n : Nat) (gone : Entry → Bool) (e : Entry) : Bool :=
  (s.earlier n e).all fun f =>
    !f.access || !(s.stuckBehind n gone e f || s.bindWaits n e f)

/-- Every earlier fence has been answered (R165). -/
def Seg.pastFences (s : Seg) (n : Nat) (e : Entry) : Bool := (s.earlier n e).all (fun f => f.phase != .fence)

/-- The youngest of a list of entries. -/
def youngest (l : List Entry) : Option Entry :=
  l.foldl (fun a f => match a with | some g => if f.ord < g.ord then some g else some f | none => some f) none

/-- The store that supplies a READ's data under R159: the youngest of its overlapping incomplete stores, if it may and its
data is in this NI. -/
def Seg.forwardFrom (s : Seg) (n : Nat) (e : Entry) : Option Entry :=
  match youngest (s.overlapping n e) with
  | some f =>
    if s.flag (pgNi n) Reg.NI.NI_ORD_EXP_FWD_EN && e.hdr.type == tRead && (f.hdr.type == tWrite || f.hdr.type == tPosted)
        && (s.ni n).store.contains f
        && !f.hdr.poison && !f.data.any (·.poison)
        && decide (f.hdr.addr.toNat ≤ e.hdr.addr.toNat)
        && decide (e.hdr.addr.toNat + e.hdr.len.toNat ≤ f.hdr.addr.toNat + f.hdr.len.toNat) then some f
    else none
  | none => none

/-- The payload bytes of a packet from its site (R107, R109). -/
def payBytes (h : Hdr) : Nat := if h.type == tTunnel then 256 else if carriesData h.type then h.len.toNat else 0

/-- The first `k` bytes of a value, the others 0. -/
def firstBytes (k v : Nat) : Nat := v % 2 ^ (8 * k)

/-- The packet of an entry. On a data plane every byte beyond the payload is sent as 0 (R109). -/
def Entry.packet (e : Entry) (pl : Plane) : Packet :=
  let k := payBytes e.hdr
  if pl = .snp then { plane := pl, hdr := e.hdr, imm := e.imm, data := e.data }
  else
    { plane := pl, hdr := e.hdr, imm := if k ≤ 96 then BitVec.ofNat 768 (firstBytes k e.imm.toNat) else 0,
      data := e.data.zipIdx.map fun (d, i) => { d with bits := BitVec.ofNat 1024 (firstBytes (k - 128 * i) d.bits.toNat) } }

/-- A forwarded READ completes from the store's data (R159). The CPL's SRC is the endpoint's EID, as on the CPL the READ
would have had (DESIGN CHOICE, log 43). -/
def Seg.forward (s : Seg) (n : Nat) (e f : Entry) : Seg :=
  let v := payload (f.packet .req) / 2 ^ (8 * (e.hdr.addr.toNat - f.hdr.addr.toNat))
  let h : Hdr := { dest := s.eid n, src := e.hdr.dest, type := tCpl, cls := 2, code := cOk, tag := e.hdr.tag, len := e.hdr.len }
  let p : Packet := { plane := .rsp, hdr := h.glaze, imm := payloadImm e.hdr.len.toNat v,
                      data := payloadData e.hdr.len.toNat v false }
  let s := s.retire n e
  (s.modNi n fun x => { x with rs := x.rs ++ rsBeats p 0 false true false }).count (pgNi n) 0xA10

/-- Accesses that R158 or R159 holds now are counted, each once (R182). -/
def Seg.noteWaits (s : Seg) (n : Nat) : Seg :=
  let x := s.ni n
  let ready := x.store.filter (fun e => e.access && (e.phase == .queued || e.phase == .eligible))
  s.each ready fun s e =>
    let b := (s.earlier n e).any (fun f => f.access && s.bindWaits n e f) && !e.waited
    let o := s.overlapWaits n e && (s.forwardFrom n e).isNone && !e.ovWait
    let s := if b then s.count (pgNi n) 0xA00 else s
    let s := if o then s.count (pgNi n) 0xA18 else s
    if b || o then s.modEntry n e.id fun e => { e with waited := e.waited || b, ovWait := e.ovWait || o } else s

end Sys2Proof.Machine
end

