-- ==== Sys2Proof/Machine/Flow.lean ====
section
/-!
DEFINITION. Flow policing and shaping (R274–R313): contexts, the NI's cache, meters and shapers, and the flow window.
-/
namespace Sys2Proof.Machine

/-! ### Flows (R274–R276) -/

/-- The local index of a FID. -/
def flowIdx (f : BitVec 20) : Nat := f.toNat % 2 ^ 18

/-- Slice, bank and byte offset of a context. -/
def sliceOf (i : Nat) : Nat := i / 8192
def ctxOff (i : Nat) : Nat := i % 8192 * 16
def Seg.ctxBank (s : Seg) (i : Nat) : Nat := s.feBank (sliceOf i)

/-- The site polices the flow (R275, R276). -/
def Seg.policed (s : Seg) (n i : Nat) : Bool :=
  i != 0 && i != 0x3FFFF && s.flag (pgNi n) Reg.NI.NI_POL_CFG_POL_EN && s.flowOn

/-- The present in age units, as site `n` reads it. -/
def Seg.ageNow (s : Seg) (n : Nat) : BitVec 16 := ageOf (s.unitTime n)

/-- The way that caches a flow. -/
def Ni.way (x : Ni) (i : Nat) : Option Way := x.cache.find? (fun w => w.idx.toNat == i)
def Ni.mapWay (x : Ni) (i : Nat) (f : Way → Way) : Ni :=
  { x with cache := x.cache.map (fun w => if w.idx.toNat = i then f w else w) }
def Seg.modWay (s : Seg) (n i : Nat) (f : Way → Way) : Seg := s.modNi n fun x => x.mapWay i f

/-- The packets in a flow's queue, in arrival order (R288), and their exact number. -/
def Ni.queue (x : Ni) (i : Nat) : List Entry := x.store.filter (fun e => e.phase == .queued && flowIdx e.hdr.fid == i)
def Ni.qcount (x : Ni) (i : Nat) : Nat := (x.queue i).length

/-- A way is pinned (R293). -/
def Ni.pinned (x : Ni) (w : Way) : Bool := decide (0 < x.qcount w.idx.toNat) || w.fetch || decide (0 < w.wb)

/-! ### The lazy update (R286) -/

/-- The buckets and the credit brought to time `now`; `q` is QCOUNT. -/
def Way.update (w : Way) (now : BitVec 16) (q : Nat) : Way :=
  let dt := (now - w.last).toNat
  let cr := w.credit + ((rateOf (cfgSlope w.cfg) * dt : Nat) : Int)
  { w with
    last := now
    tc := min (w.tc + rateOf (cfgCir w.cfg) * dt) (sizeOf' (cfgCbs w.cfg) * 65536)
    tp := min (w.tp + rateOf (cfgPir w.cfg) * dt) (sizeOf' (cfgPbs w.cfg) * 65536)
    credit :=
      if cfgShape w.cfg ≠ 1 then w.credit
      else if 0 < q then min cr ((sizeOf' (cfgHi w.cfg) * 65536 : Nat) : Int)
      else if w.credit < 0 then min cr 0 else 0 }

/-- The way dirty from `t` on, unless it was already. -/
def Way.touch (w : Way) (t : BitVec 64) : Way := { w with dirty := true, dirtyAt := if w.dirty then w.dirtyAt else t }

/-- An event of a flow at site `n`: its cached context is updated to now and is dirty. -/
def Seg.flowEvent (s : Seg) (n i : Nat) : Seg :=
  let q := (s.ni n).qcount i
  s.modWay n i fun w => (w.update (s.ageNow n) q).touch (s.unitTime n)

/-! ### The wheel (R285) -/

def Seg.gran (s : Seg) (n : Nat) : Nat := min 8 (s.rd (pgNi n) Reg.NI.WHL_CTRL_GRAN)

/-- now := (FTB << 8) >> GRAN, kept to 32 bits. -/
def Seg.wheelNow (s : Seg) (n : Nat) : BitVec 32 := BitVec.ofNat 32 ((s.unitTime n).toNat * 256 / 2 ^ s.gran n)

/-- `a` comes before `b` modulo 2^24, within half the circle. -/
def before24 (a b : Nat) : Bool := 0 < (b + 2 ^ 24 - a) % 2 ^ 24 && (b + 2 ^ 24 - a) % 2 ^ 24 < 2 ^ 23

/-- The flow waits on the wheel. -/
def Seg.wheelHolds (s : Seg) (n : Nat) (w : Way) : Bool :=
  cfgShape w.cfg == 2 && s.flag (pgNi n) Reg.NI.WHL_CTRL_WHL_EN && w.hasNext
    && before24 ((s.wheelNow n).toNat / 256) (w.next.toNat / 256)

/-- NEXT after a send of `cost`, and whether it was clamped. The first send after a fetch has no NEXT: it counts as BURST ×
INTERVAL before now, the most that R285 lets a flow catch up (DESIGN CHOICE, log 114). -/
def Seg.wheelNext (s : Seg) (n : Nat) (w : Way) (cost : Nat) : BitVec 32 × Bool :=
  let p := cfgSlope w.cfg % 16
  let interval := s.rd (pgNi n) (Reg.NI.WHL_PROF_INTERVAL.at p)
  let burst := s.rd (pgNi n) (Reg.NI.WHL_PROF_BURST.at p)
  let now := s.wheelNow n
  let floor := now - BitVec.ofNat 32 (burst * interval)
  let base := if w.hasNext && decide ((w.next - floor).toNat < 2 ^ 31) then w.next else floor
  let next := base + BitVec.ofNat 32 (cost * interval)
  let cap := now + BitVec.ofNat 32 (4095 * 256)
  if (next - cap).toNat < 2 ^ 31 ∧ next ≠ cap then (cap, true) else (next, false)

/-! ### Flow-engine packets (R292, R294) -/

/-- A packet of the flow engine to the bank of context `i`; `kind` 0 fetches, 1 writes back. To a fenced bank it completes
with DECERR under R192. -/
def Seg.fePacket (s : Seg) (n i kind : Nat) (type : BitVec 4) (imm : Nat) : Seg :=
  let x := s.ni n
  let bank := s.eid (0x200 + s.ctxBank i)
  let fid := BitVec.ofNat 20 (s.strap * 2 ^ 18 + 0x3FFFF)
  let h : Hdr := { dest := bank, type := type, cls := 0, len := 16, tag := x.feTag, fid := fid, addr := BitVec.ofNat 64 (ctxOff i) }
  let s := s.setNi n { x with feTag := x.feTag + 1, feTags := SMap.put (2 ^ 20) x.feTags x.feTag.toNat (2 * i + kind) }
  if s.fencedFor n bank then
    (s.modNi n fun x => { x with
      feIn := x.feIn ++ [{ plane := .rsp, hdr := { answerHdr h tCpl cDecerr 0 with dest := s.eid n, src := bank } }] }).count
        (pgNi n) 0x850
  else s.sendOwn n { plane := .req, hdr := h, imm := BitVec.ofNat 768 imm }

/-- The context in the form a write-back carries it: in wheel mode CREDIT is 0 (R285, R294). -/
def Way.stored (w : Way) (q : Nat) : BitVec 128 := (if cfgShape w.cfg = 2 then { w with credit := 0 } else w).toBank q

/-- A fetch of context `i`. -/
def Seg.fetch (s : Seg) (n i : Nat) : Seg := (s.count (pgNi n) 0xB38).fePacket n i 0 tRead 0

/-- A write-back of the cached context `i` (R294); an unavailable one is not written back. -/
def Seg.writeBack (s : Seg) (n i : Nat) : Seg :=
  match (s.ni n).way i with
  | some w =>
    if w.unavail || w.fetch then s
    else
      let s := s.modWay n i fun w => { w with dirty := false, wb := w.wb + 1 }
      (s.count (pgNi n) 0xB48).fePacket n i 1 tStcond (w.stored ((s.ni n).qcount i)).toNat
  | none => s

/-- The flows of the set of `i` with packets that wait for a way (R289, R293). -/
def Ni.missing (x : Ni) (i : Nat) : List Nat :=
  (((x.store.filter (fun e => e.phase == .intake || e.phase == .queued)).map (fun e => flowIdx e.hdr.fid)).filter
    (fun j => j % 64 == i % 64 && (x.way j).isNone)).eraseDups

/-- Room for flow `i` in its set, and its fetch (R292, R293): one way goes for each flow that waits for one. `count`: a full
set is counted. -/
def Seg.allocate (s : Seg) (n i : Nat) (count : Bool) : Seg :=
  let x := s.ni n
  let set := x.cache.filter (fun w => w.idx.toNat % 64 == i % 64)
  let enter := fun (s : Seg) =>
    (s.modNi n fun x => { x with cache := x.cache ++ [{ idx := BitVec.ofNat 18 i, fetch := true, used := x.useCount }] }).fetch n i
  if (x.way i).isSome then s
  else if set.length < 8 then enter s
  else if (x.missing i).length ≤ (set.filter (·.evict)).length then
    if count && set.all x.pinned then s.count (pgNi n) 0xB58 else s
  else
    let idle := set.filter (fun w => !x.pinned w && !w.evict)
    let lru := idle.foldl (fun (a : Option Way) w => match a with
      | some v => if v.used ≤ w.used then some v else some w | none => some w) none
    match lru with
    | none => if count then s.count (pgNi n) 0xB58 else s
    | some v =>
      let s := s.count (pgNi n) 0xB40
      if v.dirty && !v.unavail then (s.modWay n v.idx.toNat fun w => { w with evict := true }).writeBack n v.idx.toNat
      else enter (s.modNi n fun x => { x with cache := x.cache.erase v })

/-- Packets in the intake list whose context has no way try again (R289). -/
def Seg.retryIntake (s : Seg) (n : Nat) : Seg :=
  s.each (((s.ni n).store.filter (fun e => e.phase == .intake)).map (fun e => flowIdx e.hdr.fid)).eraseDups
    fun s i => s.allocate n i false

/-! ### Joining a queue (R276, R288, R289) -/

/-- Entry `id` is eligible from now on (R256, R287). -/
def Seg.makeEligible (s : Seg) (n id : Nat) (f : Entry → Entry) : Seg :=
  s.modEntry n id fun e => { f e with phase := .eligible, since := s.unitTime n }

/-- Entry `id` is sent unpoliced (R276): at its binding class, as green. -/
def Seg.unpoliced (s : Seg) (n id : Nat) : Seg :=
  (s.count (pgNi n) 0xB28).makeEligible n id fun e =>
    { e with hdr := { e.hdr with cls := e.bindClass, yellow := false } }

/-- A request whose lookup and beats are complete joins its flow queue, or waits for its context. -/
def Seg.join (s : Seg) (n : Nat) (e : Entry) : Seg :=
  let i := flowIdx e.hdr.fid
  if !s.policed n i then s.unpoliced n e.id
  else match (s.ni n).way i with
    | some w =>
      if w.fetch then s.modEntry n e.id fun e => { e with phase := .intake }
      else if w.unavail then s.unpoliced n e.id
      else
        let s := (s.count (pgNi n) 0xB30).flowEvent n i
        let s := s.modNi n fun x => { x with useCount := x.useCount + 1 }
        let s := s.modWay n i fun w => { w with used := (s.ni n).useCount, evict := false }
        s.modEntry n e.id fun e => { e with phase := .queued }
    | none => (s.modEntry n e.id fun e => { e with phase := .intake }).allocate n i true

/-! ### Send decisions (R280–R287, R290) -/

/-- Colours of R280: 0 green, 1 yellow, 2 red. -/
def colourOf (w : Way) (e : Entry) (need : Nat) : Nat :=
  if cfgMeter w.cfg = 0 then 0
  else if w.tp < need then 2
  else if w.tc < need ∨ (cfgMeter w.cfg = 2 ∧ e.hdr.yellow = true) then (if e.bindClass = 1 then 2 else 1) else 0

/-- A packet that can never leave red (R283). -/
def neverConforms (w : Way) (need : Nat) : Bool := decide (sizeOf' (cfgPbs w.cfg) * 65536 < need) || rateOf (cfgPir w.cfg) == 0

/-- A hold by the shaper or the wheel, counted once per packet. -/
def Seg.shapeHold (s : Seg) (n : Nat) (e : Entry) : Seg :=
  if e.shapeHeld then s else (s.count (pgNi n) 0xB20).modEntry n e.id fun e => { e with shapeHeld := true }

/-- Red handling (R281–R283). -/
def Seg.redHandling (s : Seg) (n : Nat) (w : Way) (e : Entry) (need : Nat) : Seg :=
  if isPosted e.hdr.type && cfgRedDrop w.cfg then (s.count (pgNi n) 0xB18).completePosted n e cOk
  else
    let s := if e.redHeld then s else (s.count (pgNi n) 0xB10).modEntry n e.id fun e => { e with redHeld := true }
    if neverConforms w need && !e.never then
      ((s.modEntry n e.id fun e => { e with never := true }).count (pgNi n) 0xB78).evt (pgNi n) 25
        (BitVec.ofNat 32 (flowIdx e.hdr.fid))
    else s

/-- The release of a green or yellow packet (R281, R284, R287). -/
def Seg.releaseFlow (s : Seg) (n : Nat) (w : Way) (e : Entry) (cost col : Nat) : Seg :=
  let need := cost * 65536
  let i := flowIdx e.hdr.fid
  let metered := cfgMeter w.cfg ≠ 0
  let last := (s.ni n).qcount i = 1
  let (next, clamped) := s.wheelNext n w cost
  let wheel := cfgShape w.cfg == 2 && s.flag (pgNi n) Reg.NI.WHL_CTRL_WHL_EN
  let s := s.modWay n i fun w =>
    let cr := if cfgShape w.cfg = 1 then w.credit - ((need : Nat) : Int) else w.credit
    { w with
      tp := if metered then w.tp - need else w.tp
      tc := if metered ∧ col = 0 then w.tc - need else w.tc
      credit := if last ∧ 0 < cr then 0 else cr
      next := if wheel then next else w.next
      hasNext := w.hasNext || wheel }
  let s := if wheel && clamped then (s.count (pgNi n) 0xB70).evt (pgNi n) 27 (BitVec.ofNat 32 i) else s
  let cls := if col = 0 then e.bindClass else BitVec.ofNat 3 (max e.bindClass.toNat (cfgYclass w.cfg))
  (s.count (pgNi n) (if col = 0 then 0xB00 else 0xB08)).makeEligible n e.id fun e =>
    { e with hdr := { e.hdr with cls := cls, yellow := col == 1 } }

/-- The packet R290 offers: the oldest that R156 and R158 allow to go next, of those not passed over. -/
def Seg.offered (s : Seg) (n i : Nat) (passed : List Nat) : Option Entry :=
  ((s.ni n).queue i).find? (fun e => !passed.contains e.id && s.mayGo n Entry.released e)

/-- The decisions of one flow at one age-unit boundary (R287). -/
def Seg.sendDecisions (s : Seg) (n i : Nat) (passed : List Nat) : Nat → Seg
  | 0 => s
  | fuel + 1 =>
    match s.offered n i passed, (s.ni n).way i with
    | some e, some _ =>
      let s := s.flowEvent n i
      match (s.ni n).way i with
      | none => s
      | some w =>
        let cost := costOf e.hdr.type e.hdr.len.toNat
        if cfgShape w.cfg = 1 ∧ w.credit < 0 then s.shapeHold n e
        else if s.wheelHolds n w then Seg.sendDecisions (s.shapeHold n e) n i (e.id :: passed) fuel
        else
          let col := colourOf w e (cost * 65536)
          if col = 2 then Seg.sendDecisions (s.redHandling n w e (cost * 65536)) n i (e.id :: passed) fuel
          else Seg.sendDecisions (s.releaseFlow n w e cost col) n i passed fuel
    | _, _ => s

/-- Every packet of a flow queue released unpoliced (R276, R298, R299). -/
def Seg.releaseAll (s : Seg) (n i : Nat) : Seg := s.each ((s.ni n).queue i) fun s e => s.unpoliced n e.id

/-- FLOW_SEND_DECISION (R276, R287, R290): the decisions of flow `idx` at an age-unit boundary. -/
def execFlowSendDecision (g : Fin 4) (site : Fin 288) (idx : BitVec 18) (s : State) : Result :=
  onSeg s g fun s =>
    let n := site.val
    let i := idx.toNat
    if !s.niRuns n then s
    else
      let s := s.noteWaits n
      if !s.policed n i then s.releaseAll n i
      else match (s.ni n).way i with
        | some w =>
          if w.fetch then s
          else if w.unavail then s.releaseAll n i
          else (s.sendDecisions n i [] ((s.ni n).qcount i + 1)).retryIntake n
        | none => if 0 < (s.ni n).qcount i then s.allocate n i false else s

/-! ### Returns (R294, R295, R299) -/

/-- The first packet of the flow engine's that answers kind `kind` for context `i`, with its tag taken. -/
def Seg.takeFe (s : Seg) (n i kind : Nat) : Option (Seg × Packet) :=
  let x := s.ni n
  (x.feIn.find? (fun p => SMap.get (2 ^ 20) x.feTags p.hdr.tag.toNat == 2 * i + kind)).map fun p =>
    (s.setNi n { x with feIn := x.feIn.erase p, feTags := SMap.put (2 ^ 20) x.feTags p.hdr.tag.toNat (2 ^ 20) }, p)

/-- The packets of the intake list that wait for context `i`. -/
def Ni.intake (x : Ni) (i : Nat) : List Entry := x.store.filter (fun e => e.phase == .intake && flowIdx e.hdr.fid == i)

/-- FLOW_CONTEXT_RETURN (R289, R292, R295, R299): the context arrives and its waiting packets join the queue, or the flow is
marked unavailable and they go unpoliced. -/
def execFlowContextReturn (g : Fin 4) (site : Fin 288) (idx : BitVec 18) (s : State) : Result :=
  onSeg s g fun s =>
    let n := site.val
    let i := idx.toNat
    match s.takeFe n i 0 with
    | none => s
    | some (s, p) =>
      let wait := (s.ni n).intake i
      if p.hdr.code = cOk ∧ p.hdr.poison = false then
        let c := BitVec.ofNat 128 (payload p)
        let s := s.modWay n i fun w => { Way.ofBank idx c with used := w.used, unavail := false }
        let s := s.flowEvent n i
        s.each wait fun s e => s.modEntry n e.id fun e => { e with phase := .queued }
      else
        let s := s.modWay n i fun w => { w with fetch := false, unavail := true }
        let s := (s.count (pgNi n) 0xB80).evt (pgNi n) 24 (BitVec.ofNat 32 i)
        (s.each wait fun s e => s.unpoliced n e.id).releaseAll n i

/-- FLOW_WRITEBACK_TIMER (R294). -/
def execFlowWritebackTimer (g : Fin 4) (site : Fin 288) (idx : BitVec 18) (s : State) : Result :=
  onSeg s g fun s =>
    match (s.ni site).way idx.toNat with
    | some w => if w.dirty && w.wb == 0 && s.niRuns site then s.writeBack site idx.toNat else s
    | none => s

/-- FLOW_WRITEBACK_RESULT (R294, R299): on STFAIL the copy is dropped; a write-back to an unavailable slice only fails. -/
def execFlowWritebackResult (g : Fin 4) (site : Fin 288) (idx : BitVec 18) (s : State) : Result :=
  onSeg s g fun s =>
    let n := site.val
    let i := idx.toNat
    match s.takeFe n i 1 with
    | none => s
    | some (s, p) =>
      let drop := fun (s : Seg) => s.modNi n fun x => { x with cache := x.cache.filter (fun w => w.idx != idx) }
      let s := if p.hdr.code = cStfail then ((drop s).count (pgNi n) 0xB50).evt (pgNi n) 26 (BitVec.ofNat 32 i)
        else
          let s := if p.hdr.code = cOk then s else s.evt (pgNi n) 26 (BitVec.ofNat 32 i)
          match (s.ni n).way i with
          | some w =>
            if w.evict && decide ((s.ni n).qcount i = 0) && decide (w.wb ≤ 1) then drop s
            else s.modWay n i fun w => { w with wb := w.wb - 1 }
          | none => s
      s.retryIntake n

/-- FLOW_REFRESH (R296). -/
def execFlowRefresh (g : Fin 4) (site : Fin 288) (idx : BitVec 18) (s : State) : Result :=
  onSeg s g fun s =>
    match (s.ni site).way idx.toNat with
    | some w =>
      if !w.fetch && !w.unavail && decide (16384 ≤ (s.ageNow site - w.last).toNat) then s.flowEvent site idx.toNat else s
    | none => s

/-- UNAVAIL_FETCH_RETRY (R299): the fetch is tried again. -/
def execUnavailFetchRetry (g : Fin 4) (site : Fin 288) (idx : BitVec 18) (s : State) : Result :=
  onSeg s g fun s =>
    match (s.ni site).way idx.toNat with
    | some w =>
      if w.unavail && !w.fetch && s.flowOn then
        (s.modWay site idx.toNat fun w => { w with unavail := false, fetch := true }).fetch site idx.toNat
      else s
    | none => s

/-! ### Contexts in the banks (R274, R296, R301–R305) -/

/-- The 128 bits of context `i` in its bank, and whether a word of it carries the poison mark. -/
def Seg.bankCtx (s : Seg) (i : Nat) : Nat := s.bBytes (s.ctxBank i) (ctxOff i) 16
def Seg.ctxPoisoned (s : Seg) (i : Nat) : Bool :=
  s.marked (s.ctxBank i) (ctxOff i / 8) || s.marked (s.ctxBank i) (ctxOff i / 8 + 1)

/-- Context `i` stored, with valid codes. -/
def Seg.setBankCtx (s : Seg) (i v : Nat) : Seg :=
  let b := s.ctxBank i
  ((s.setBBytes b (ctxOff i) v 16).setMark b (ctxOff i / 8) false).setMark b (ctxOff i / 8 + 1) false

/-- The flow engine's own time in age units: the bank tile's copy of the FTB. -/
def Seg.ctxNow (s : Seg) (i : Nat) : BitVec 16 := ageOf (s.tftb (bankTile (s.ctxBank i)))

/-- FLOW_SWEEP (R296): a context of an available slice whose LAST is at least 16,384 units old is updated in bank
precision. -/
def execFlowSweep (g : Fin 4) (idx : BitVec 18) (s : State) : Result :=
  onSeg s g fun s =>
    let i := idx.toNat
    let c := BitVec.ofNat 128 (s.bankCtx i)
    let w := Way.ofBank idx c
    let now := s.ctxNow i
    if !s.enabled pgFlow || !s.sliceUsable (sliceOf i) || s.ctxPoisoned i || decide ((now - w.last).toNat < 16384) then s
    else
      let q := slice c.toNat 59 5
      (s.setBankCtx i ((w.update now q).toBank q).toNat).count pgFlow 0x818

/-- The outcome of a command on context `i`: RESULT 1 for an unavailable slice, 2 for a poisoned context, else 0. -/
def Seg.fwCheck (s : Seg) (i : Nat) : Nat :=
  if !s.sliceUsable (sliceOf i) then 1 else if s.ctxPoisoned i then 2 else 0

/-- The bank copy read into FW_D0–D3 (R301). -/
def Seg.fwReadCtx (s : Seg) (i : Nat) : Seg :=
  let r := s.fwCheck i
  let v := s.bankCtx i
  let s := s.wr pgFlow Reg.FLOWWIN.FW_STAT_RESULT r
  if r = 0 then s.each (List.range 4) fun s k => s.setWord pgFlow (0x110 + 4 * k) (BitVec.ofNat 32 (slice v (32 * k) 32)) else s

/-- FW_D0–D3 as a number. -/
def Seg.fwData (s : Seg) : Nat := (s.word64 pgFlow 0x118 ++ s.word64 pgFlow 0x110).toNat

/-- A notice of the segment controller reaches site `n`, as the fence-map broadcast does: its tile is not OFF, its NI neither
saggared nor in a kiln run. -/
def Seg.noticed (s : Seg) (n : Nat) : Bool :=
  s.stTile (n / 2) != 4 && !s.saggared (pgNi n) && !s.saggared (pgRt (n / 2)) && !s.kilnIsolates (srcNi n)

/-- The sites a broadcast of the segment controller reaches. -/
def Seg.noticeSites (s : Seg) : List Nat := (List.range 288).filter s.noticed

/-- Word 0 after a configuration change (R302): what the changed fields reset, by RESET_TO. -/
def Way.reconfigure (w : Way) (cfg : BitVec 64) (shapeCh meterCh : Bool) : Way :=
  let full := cfgResetTo cfg
  { w with
    cfg := cfg
    credit := if shapeCh then (if full then ((sizeOf' (cfgHi cfg) * 65536 : Nat) : Int) else 0) else w.credit
    tc := if meterCh then (if full then sizeOf' (cfgCbs cfg) * 65536 else 0) else w.tc
    tp := if meterCh then (if full then sizeOf' (cfgPbs cfg) * 65536 else 0) else w.tp }

/-- Which of the fields of R302 differ. -/
def shapeChanged (a b : BitVec 64) : Bool :=
  cfgField a 115 2 != cfgField b 115 2 || cfgSlope a != cfgSlope b || cfgHi a != cfgHi b
def meterChanged (a b : BitVec 64) : Bool :=
  cfgField a 117 2 != cfgField b 117 2 || cfgCir a != cfgCir b || cfgPir a != cfgPir b || cfgCbs a != cfgCbs b
    || cfgPbs a != cfgPbs b

/-- A broadcast of the flow window counted (R310). -/
def Seg.fwNotice (s : Seg) (f : Ctl → Ctl) : Seg := (s.count pgFlow 0x808).modCtl f

/-- WRITE_CFG and WRITE_RAW (R302, R303). -/
def Seg.fwWriteCtx (s : Seg) (i : Nat) (raw : Bool) : Seg :=
  let r := s.fwCheck i
  let s := s.wr pgFlow Reg.FLOWWIN.FW_STAT_RESULT r
  if r ≠ 0 then s
  else
    let old := Way.ofBank (BitVec.ofNat 18 i) (BitVec.ofNat 128 (s.bankCtx i))
    let q := slice (s.bankCtx i) 59 5
    let d := s.fwData
    let otag := (cfgOtag old.cfg + 1) % 4
    let cfg := cfgWithOtag (BitVec.ofNat 64 (d / 2 ^ 64)) otag
    let sh := shapeChanged old.cfg cfg
    let mt := meterChanged old.cfg cfg
    let s := if raw then
        let v := d % 2 ^ 64 / 2 ^ 16 * 2 ^ 16 + (s.ctxNow i).toNat
        s.setBankCtx i (cfg.toNat * 2 ^ 64 + v)
      else
        let w := { old.reconfigure cfg sh mt with last := s.ctxNow i }
        let s := s.setBankCtx i (w.toBank q).toNat
        if sh ∧ old.credit < 0 then s.count pgFlow 0x828 else s
    s.fwNotice fun c =>
      { c with notice := some ⟨BitVec.ofNat 18 i, BitVec.ofNat 2 otag, cfg, sh, mt, raw⟩, noticeDue := s.noticeSites }

/-- The contexts of the INIT in progress written, those of unavailable slices skipped (R305 step 2). -/
def Seg.fwInitWrite (s : Seg) : Seg :=
  match s.ctl.recallAll with
  | none => s
  | some (first, last) =>
    if !s.ctl.fwInit then s
    else
      let lo := first.toNat
      let d := s.fwData
      let all := (List.range (last.toNat + 1 - lo)).map (fun k => lo + k)
      let good := all.filter (fun i => s.sliceUsable (sliceOf i))
      let s := s.modCtl fun c => { c with fwInit := false }
      let s := s.wr pgFlow Reg.FLOWWIN.FW_STAT_RESULT (if good.length = all.length then 0 else 1)
      let s := s.each good fun s i =>
        let otag := (cfgOtag (BitVec.ofNat 64 (s.bankCtx i / 2 ^ 64)) + 1) % 4
        let cfg := cfgWithOtag (BitVec.ofNat 64 (d / 2 ^ 64)) otag
        s.setBankCtx i (cfg.toNat * 2 ^ 64 + d % 2 ^ 64 / 2 ^ 16 * 2 ^ 16 + (s.ctxNow i).toNat)
      let s := (s.wr pgFlow Reg.PAGE.PROGRESS_POSITION good.length).wr pgFlow Reg.PAGE.PROGRESS_PERCENT
        (100 * good.length / all.length)
      s.countBy pgFlow 0x810 good.length

/-- INIT (R305): the recall-all for the range; the contexts are written once every NI has dropped its copies. -/
def Seg.fwInitCtx (s : Seg) : Seg :=
  let lo := s.rd pgFlow Reg.FLOWWIN.INIT_FIRST
  let hi := s.rd pgFlow Reg.FLOWWIN.INIT_LAST
  if hi < lo then s.wr pgFlow Reg.FLOWWIN.FW_STAT_RESULT 3
  else
    let sites := s.noticeSites
    let s := (s.wr pgFlow Reg.PAGE.PROGRESS_POSITION 0).wr pgFlow Reg.PAGE.PROGRESS_PERCENT 0
    let s := s.fwNotice fun c =>
      { c with recallAll := some (BitVec.ofNat 18 lo, BitVec.ofNat 18 hi), recallAllDue := sites, fwInit := true }
    if sites.isEmpty then s.fwInitWrite else s

/-- Context `i` waits to be written by an INIT: a fetch of it waits at its bank (R305 step 3). -/
def Seg.initHolds (s : Seg) (i : Nat) : Bool :=
  s.ctl.fwInit && (match s.ctl.recallAll with
    | some (lo, hi) => decide (lo.toNat ≤ i) && decide (i ≤ hi.toNat)
    | none => false)

/-- FW_CMD written: an operation that is none changes nothing; another starts (R301). -/
def Seg.fwStart (s : Seg) (op i : Nat) : Seg :=
  if s.flag pgFlow Reg.FLOWWIN.FW_CMD_BUSY then s.lockHit pgFlow
  else if op = 0 ∨ 5 < op then s
  else
    let s := ((s.wr pgFlow Reg.FLOWWIN.FW_CMD_OP op).wr pgFlow Reg.FLOWWIN.FW_CMD_INDEX i).wr pgFlow Reg.FLOWWIN.FW_CMD_BUSY 1
    let s := s.wr pgFlow Reg.PAGE.PROGRESS_BUSY (b2n (op == 5))
    if op = 1 then s.fwReadCtx i
    else if op = 2 then s.fwNotice fun c => { c with recalled := some (BitVec.ofNat 18 i), recallDue := s.noticeSites }
    else if op = 3 then s.fwWriteCtx i false
    else if op = 4 then s.fwWriteCtx i true
    else s.fwInitCtx

/-- FW_CMD_COMPLETE (R301, R304, R305, R309): READ_SYNC reads now, 2 µs after its recall; an INIT has written every context;
the command ends. -/
def execFwCmdComplete (g : Fin 4) (s : State) : Result :=
  onSeg s g fun s =>
    if !s.flag pgFlow Reg.FLOWWIN.FW_CMD_BUSY then s
    else
      let s := s.fwInitWrite
      let s := if s.rd pgFlow Reg.FLOWWIN.FW_CMD_OP = 2 then s.fwReadCtx (s.rd pgFlow Reg.FLOWWIN.FW_CMD_INDEX) else s
      let s := (s.wr pgFlow Reg.FLOWWIN.FW_CMD_BUSY 0).wr pgFlow Reg.PAGE.PROGRESS_BUSY 0
      let s := (s.count pgFlow 0x800).evt pgFlow 8
      if s.rd pgFlow Reg.FLOWWIN.FW_STAT_RESULT = 0 then s
      else s.evt pgFlow 9 (BitVec.ofNat 32 (s.rd pgFlow Reg.FLOWWIN.FW_STAT_RESULT))

/-! ### Notices at an NI (R298, R302–R305) -/

/-- What a notice the site is due does there; it wakes a sleeping tile first (R368). -/
def Seg.noticeTo (s : Seg) (n : Nat) (due : Bool) (f : Seg → Seg) : Seg :=
  let t := n / 2
  if !due then s
  else if 1 < s.stTile t ∧ s.stTile t ≠ 4 then s.tileWakeReq t 0x828
  else if !s.noticed n || (s.ni n).resetting then s
  else f s

/-- CONFIG_NOTICE_RECEIVE (R302, R303, R361): a notice one of whose flits fails its reads is sent again. -/
def execConfigNoticeReceive (g : Fin 4) (read : NoticeRead) (s : State) : Result :=
  onSeg s g fun s =>
    let n := read.site.val
    let reads := read.reads
    match s.ctl.notice with
    | none => s
    | some c => s.noticeTo n (s.ctl.noticeDue.contains n) fun s =>
      if (readTwice reads).2 then s.readBroadcast (n / 2) reads
      else
        let s := (s.readBroadcast (n / 2) reads).modCtl fun x => { x with noticeDue := x.noticeDue.erase n }
        let i := c.idx.toNat
        match (s.ni n).way i with
        | none => s
        | some w =>
          if w.fetch || cfgOtag w.cfg == c.otag.toNat then s
          else
            let s := (s.flowEvent n i).count (pgNi n) 0xB68
            let s := s.modNi n fun x => { x with store := x.store.map (fun e =>
              if flowIdx e.hdr.fid = i then { e with never := false } else e) }
            if c.raw then (s.modWay n i fun w => { idx := w.idx, used := w.used, fetch := true }).fetch n i
            else
              let debt := c.shapeCh && (match (s.ni n).way i with | some w => decide (w.credit < 0) | none => false)
              let s := s.modWay n i fun w => w.reconfigure c.cfg c.shapeCh c.meterCh
              if debt then s.count (pgNi n) 0xB60 else s

/-- RECALL_RECEIVE (R304): written back at once, dirty or not, and kept. -/
def execRecallReceive (g : Fin 4) (site : Fin 288) (s : State) : Result :=
  onSeg s g fun s =>
    match s.ctl.recalled with
    | none => s
    | some i => s.noticeTo site (s.ctl.recallDue.contains site.val) fun s =>
      (s.modCtl fun x => { x with recallDue := x.recallDue.erase site.val }).writeBack site i.toNat

/-- RECALL_ALL_RECEIVE (R305): the copies in the range dropped without write-back; after the last NI the contexts are
written. -/
def execRecallAllReceive (g : Fin 4) (site : Fin 288) (s : State) : Result :=
  onSeg s g fun s =>
    match s.ctl.recallAll with
    | none => s
    | some (lo, hi) => s.noticeTo site (s.ctl.recallAllDue.contains site.val) fun s =>
      let s := (s.modCtl fun x => { x with recallAllDue := x.recallAllDue.erase site.val }).modNi site fun x =>
        { x with cache := x.cache.filter (fun w => w.fetch || !(lo.toNat ≤ w.idx.toNat && w.idx.toNat ≤ hi.toNat)) }
      if s.ctl.recallAllDue.any s.noticed then s else s.fwInitWrite

/-- FLOWWIN_DISABLE_NOTICE (R276, R298): dirty entries are written back, the cache is emptied, and every packet that waits
for policing goes unpoliced. -/
def execFlowwinDisableNotice (g : Fin 4) (site : Fin 288) (s : State) : Result :=
  onSeg s g fun s => s.noticeTo site (s.ctl.disableDue.contains site.val) fun s =>
    let n := site.val
    let s := s.modCtl fun x => { x with disableDue := x.disableDue.erase n }
    let s := s.each ((s.ni n).cache.filter (·.dirty)) fun s w => s.writeBack n w.idx.toNat
    let s := s.modNi n fun x => { x with cache := [] }
    s.each ((s.ni n).store.filter (fun e => e.phase == .queued || e.phase == .intake)) fun s e => s.unpoliced n e.id

end Sys2Proof.Machine
end

