-- ==== Sys2Proof/Machine/AgentPorts.lean ====
section
/-!
DEFINITION. The agent ports: the beats an agent presents and takes, binding lookup, the agent clock and reset, and
APnnn_UP (R66–R75, R107–R131, R149, R165, R173, R174).
-/
namespace Sys2Proof.Machine

/-! ### Binding lookup (R108, R126–R128) -/

/-- The binding entry permits the type (R127). -/
def permitted (e : BitVec 128) (t : BitVec 4) : Bool :=
  if t == tRead || t == tLdres then e.getLsbD 1
  else if t == tWrite || t == tPosted then e.getLsbD 2
  else if t == tAdd || t == tSwap || t == tStcond then e.getLsbD 3
  else if t == tMsg then e.getLsbD 4
  else if t == tTunnel then e.getLsbD 5
  else if t == tSnoop || t == tBackInval then e.getLsbD 6
  else false

/-- Fields of a binding entry (R127). -/
def bindClassOf (e : BitVec 128) : BitVec 3 := e.extractLsb' 8 3
def bindAltEn (e : BitVec 128) : Bool := e.getLsbD 11
def bindDest (e : BitVec 128) : BitVec 12 := e.extractLsb' 12 12
def bindAlt (e : BitVec 128) : BitVec 12 := e.extractLsb' 24 12

/-- The entry names a twin that an access may have as its target: a site or a bank (R11, R126). -/
def bindHasAlt (e : BitVec 128) : Bool := bindAltEn e && epOk (eidLocal (bindAlt e))
def bindFid (e : BitVec 128) : BitVec 20 := e.extractLsb' 36 20

/-- The entry's address window holds `a`. -/
def inWindow (e : BitVec 128) (a : BitVec 64) : Bool :=
  let n := max (e.extractLsb' 56 6).toNat 12
  let base : Nat := (e.extractLsb' 64 52).toNat * 4096
  a.toNat / 2 ^ n == base / 2 ^ n

/-- The ring state the NI of site `n` holds (R203). -/
def Seg.niRing (s : Seg) (n : Nat) : Ring := s.ringOf (s.ni n).ringVer

/-- A destination a request may have (R126): a site or a bank, in this segment or in one joined and reachable. -/
def Seg.destOk (s : Seg) (n : Nat) (d : BitVec 12) : Bool :=
  localOk (eidLocal d) && decide (eidLocal d < 0x3F0) && reaches (s.niRing n) s.strap (eidSeg d)

/-- The entry a descriptor names. -/
def Seg.bindEntry (s : Seg) (n : Nat) (h : Hdr) : BitVec 128 := SMap.get 0 (s.ni n).bind (h.dest.toNat % 256)

/-- The code a request completes with without being injected, or OK: the rules of R108, the lookup of R128, then the
destinations of R126. -/
def Seg.lookupCode (s : Seg) (n : Nat) (h : Hdr) : BitVec 3 :=
  let e := s.bindEntry n h
  if !requestRuleOk h then cDecerr
  else if e.getLsbD 0 = false then cDecerr
  else if !permitted e h.type then cDenied
  else if (e.extractLsb' 56 6 != 0)
      && !(inWindow e h.addr && (h.len == 0 || inWindow e (h.addr + BitVec.ofNat 64 (h.len.toNat - 1)))) then cDenied
  else if !s.destOk n (bindDest e) then cDecerr
  else cOk

/-- The header a request gets from its lookup: the agent's fields, DEST, CLASS and FID of the entry, and at a twin site
the home EID of a reissued request in AUX (R117, R128, R147, R248). -/
def Seg.stamped (s : Seg) (n : Nat) (h : Hdr) (snp : Bool) : Hdr :=
  let e := s.bindEntry n h
  let cls := bindClassOf e
  { h.agentPart with
    dest := bindDest e, fid := bindFid e, cls := if snp && cls == 1 then 2 else cls
    aux := if h.reissue && s.flag (pgNi n) Reg.NI.NI_CFG_TWIN then
        BitVec.ofNat 16 (s.rd (pgNi n) Reg.NI.NI_ID_PAIR_EID) else 0 }

/-- The in-flight count of binding entry `i` one higher, up to 0xFFFF (R131). -/
def Ni.launched (x : Ni) (i : Byte) : Ni :=
  { x with inFlight := SMap.put 0 x.inFlight i.toNat (min 0xFFFF (SMap.get 0 x.inFlight i.toNat + 1)) }

/-! ### WD bursts (R69, R119, R125) -/

/-- The burst of entry `e` is complete: its LAST has come. One that is too short or too long ends a request with POISON
and poisons a CPL. -/
def Seg.burstDone (s : Seg) (n : Nat) (e : Entry) (burst : List DataFlit) : Seg :=
  let bad := burst.length != e.need
  let s := s.when bad fun s => s.evt (pgNi n) 20
  let e := { e with wdUsed := burst.length }
  let data := (List.range e.need).map (fun i => burst.getD i ⟨0, true⟩)
  if e.dead then
    let own := e.hdr.type == tCpl
    (s.modNi n fun x => x.drop e.id).giveBack n 0 (if own then 0 else e.wdCredits) (if own then 0 else e.tunCredits)
  else if e.answer then
    s.modEntry n e.id fun f =>
      { f with data := data, phase := .eligible, since := s.unitTime n, hdr := { f.hdr with poison := f.hdr.poison || bad } }
  else if bad then s.complete n e cPoison
  else
    let e := { e with data := data }
    (s.modEntry n e.id fun _ => e).join n e

/-- The bursts that have come are given to the entries that wait for them, in RQ order. -/
def Seg.takeBursts (s : Seg) (n : Nat) : Nat → Seg
  | 0 => s
  | fuel + 1 =>
    let x := s.ni n
    match x.store.find? (fun e => e.phase == .data), x.wd.findIdx? (·.2) with
    | some e, some i =>
      let s := s.setNi n { x with wd := x.wd.drop (i + 1) }
      Seg.takeBursts (s.burstDone n e ((x.wd.take (i + 1)).map (·.1))) n fuel
    | _, _ => s

/-- Every burst that can be given. -/
def Seg.bursts (s : Seg) (n : Nat) : Seg := s.takeBursts n (s.ni n).store.length

/-! ### RQ -/

/-- A beat error of R69: counted, with its event. -/
def Seg.parityError (s : Seg) (n : Nat) : Seg := (s.count (pgNi n) 0x860).evt (pgNi n) 8

/-- An entry that only takes the burst of a descriptor that is not injected (R125). -/
def Seg.sinkBurst (s : Seg) (n : Nat) (h : Hdr) : Seg :=
  let k := wdBeats h.type h.len.toNat
  if k = 0 then s else (s.modNi n fun x => x.enter { id := 0, hdr := h, dead := true, need := k }).bursts n

/-- A descriptor that is refused (R123, R125). -/
def Seg.badDesc (s : Seg) (n : Nat) : Seg := (s.count (pgNi n) 0x888).evt (pgNi n) 12

/-- The inbound request a CPL or SNPRSP answers (R123). -/
def Seg.answered (s : Seg) (n : Nat) (h : Hdr) (snp : Bool) : Option Inbound :=
  if s.flag (pgNi n) Reg.NI.NI_CFG_COMPLETER then
    (s.ni n).inb.find? (fun i => i.snp == snp && i.src == h.dest && i.tag == h.tag)
  else none

/-- The header of an agent's answer: to the requester, in its class and flow, with the code R116 lets stand. -/
def Inbound.reply (i : Inbound) (h : Hdr) : Hdr :=
  let bad := decide (5 ≤ h.code.toNat) || (h.code == cStfail && i.type != tStcond)
  { h.agentPart with
    dest := i.src, cls := if i.snp && i.cls == 1 then 2 else i.cls, fid := i.fid, viaTwin := i.viaTwin
    code := if bad then cPoison else h.code }

/-- R116 replaces the code. -/
def Inbound.replaces (i : Inbound) (h : Hdr) : Bool := (i.reply h).code != h.code

/-- A CPL on RQ. -/
def Seg.rqCpl (s : Seg) (n : Nat) (h : Hdr) (imm : BitVec 768) : Seg :=
  match s.answered n h false with
  | none => (s.badDesc n).sinkBurst n h
  | some i =>
    let k := wdBeats tCpl h.len.toNat
    let s := s.when (i.replaces h) fun s => s.count (pgNi n) 0x898
    (s.modNi n fun x => { x with inb := x.inb.erase i }.enter
      { id := 0, hdr := i.reply h, imm := imm, need := k, answer := true, bindClass := i.cls
        phase := if k = 0 then .eligible else .data, since := s.unitTime n }).bursts n

/-- The STCOND follows the form of R173: no other RQ beat since the CPL of the LDRES was delivered, at most 256 router
cycles ago, and the granule of the record. -/
def Seg.compliant (s : Seg) (n : Nat) (h : Hdr) : Bool :=
  let p := pgNi n
  match (s.ni n).ldAt with
  | none => false
  | some t =>
    let cycles := (s.unitTime n - t).toNat * s.rd pgClk (Reg.CLK.CLK_TILE_CUR.at (n / 2)) / 24
    decide (cycles ≤ 256) && s.flag p Reg.NI.NI_RES_STAT_VALID
      && s.rd p Reg.NI.NI_RES_STAT_DEST == (bindDest (s.bindEntry n h)).toNat
      && (s.word64 p 0x20C).toNat / 64 == h.addr.toNat / 64

/-- A request on RQ: lookup, and its place in the header store and in program order, or its completion at once (R108, R126,
R128, R153, R165). -/
def Seg.rqRequest (s : Seg) (n : Nat) (h : Hdr) (imm : BitVec 768) : Seg :=
  let s := { s with order := s.order + 1 }
  let s := if h.type = tStcond then
      (s.count (pgNi n) 0xA38).when (!s.compliant n h) fun s => s.count (pgNi n) 0xA50
    else s
  let s := s.modNi n fun x => { x with ldAt := none }
  if h.type = tFence then
    s.modNi n fun x => x.enter { id := 0, hdr := h.agentPart, phase := .fence, since := s.unitTime n, ord := s.order }
  else
    let code := s.lookupCode n h
    if code = cOk then
      let i := h.dest.truncate 8
      let e := s.bindEntry n h
      let k := wdBeats h.type h.len.toNat
      let s := s.modNi n fun x => (x.launched i).enter
        { id := 0, hdr := s.stamped n h false, imm := imm, need := k, bind := i, alt := bindAlt e, altEn := bindHasAlt e
          bindClass := bindClassOf e, phase := .data, since := s.unitTime n, ord := s.order }
      if k = 0 then
        match (s.ni n).store.getLast? with
        | some e => s.join n e
        | none => s
      else s.bursts n
    else (s.niCpl n (s.eid n) h.tag code).sinkBurst n h

/-- A descriptor taken on RQ (R69, R125). -/
def Seg.rqTake (s : Seg) (n : Nat) (data : BitVec 1024) (par : Nat) : Seg :=
  let h := Hdr.ofBits (data.truncate 256)
  let imm : BitVec 768 := data.extractLsb' 256 768
  let broken := fun s : Seg => s.modNi n fun x => { x with ldAt := none }
  if !parityOk 16 data.toNat par then (((broken s).parityError n).niCpl n (s.eid n) h.tag cPoison).sinkBurst n h
  else if h.type = tCpl then s.rqCpl n h imm
  else if 0xA ≤ h.type.toNat then (((broken s).badDesc n).niCpl n (s.eid n) h.tag cDecerr).sinkBurst n h
  else s.rqRequest n h imm

/-- The NI takes new beats: UP is 1 and no reset runs (R67, R73). -/
def Ni.takes (x : Ni) : Bool := x.up && !x.resetting

/-- APnnn_RQ_READY toward the beat that stands there with header `h` (R67, R149): a draining NI takes only CPLs that answer
delivered requests. -/
def Seg.rqReady (s : Seg) (n : Nat) (h : Hdr) : Bool :=
  (s.ni n).takes && (!s.niDraining n || (h.type == tCpl && (s.answered n h false).isSome))

/-- RQ_BEAT (R69, R120, R149): taken while READY is 1. -/
def execRqBeat (g : Fin 4) (site : Fin 288) (data : BitVec 1024) (par : BitVec 16) (s : State) : Result :=
  onSeg s g fun s =>
    if s.rqReady site (Hdr.ofBits (data.truncate 256)) then (s.beatIn site).rqTake site data par.toNat else s

/-- APnnn_WD_READY (R67, R149): a draining NI takes only the beats of requests it has taken. -/
def Seg.wdReady (s : Seg) (n : Nat) : Bool :=
  (s.ni n).takes && (!s.niDraining n || (s.ni n).store.any (fun e => e.phase == .data))

/-- WD_BEAT (R69, R119, R149): a beat of the burst in progress. -/
def execWdBeat (g : Fin 4) (site : Fin 288) (data : BitVec 1024) (par : BitVec 16) (last : Bool) (s : State) : Result :=
  onSeg s g fun s =>
    let n := site.val
    if !s.wdReady n then s
    else
      let ok := parityOk 16 data.toNat par.toNat
      let s := (s.beatIn n).when (!ok) fun s => s.parityError n
      (s.modNi n fun x => { x with wd := x.wd ++ [(⟨data, !ok⟩, last)] }).bursts n

/-- WD_STALL_TIMEOUT (R119): an RQ beat whose burst has not begun raises an event. -/
def execWdStallTimeout (g : Fin 4) (site : Fin 288) (s : State) : Result :=
  onSeg s g fun s =>
    let x := s.ni site
    let waiting := (x.store.filter (fun e => e.phase == .data)).length
    if (if x.wd = [] then 0 else 1) < waiting ∧ s.niRuns site = true then s.evt (pgNi site) 14 else s

/-! ### SR -/

/-- A SNOOP or BACK_INVAL of the agent (R107, R125–R128, R279): looked up, and eligible at once. -/
def Seg.srRequest (s : Seg) (n : Nat) (h : Hdr) (poison : Bool) : Seg :=
  let code := s.lookupCode n h
  if code = cOk then
    let i := h.dest.truncate 8
    let e := s.bindEntry n h
    let hd := { s.stamped n h true with yellow := false, poison := h.poison || poison }
    s.modNi n fun x => (x.launched i).enter
      { id := 0, hdr := hd, bind := i, alt := bindAlt e, altEn := bindHasAlt e, bindClass := hd.cls, phase := .eligible
        since := s.unitTime n }
  else (s.count (pgNi n) (if code = cDecerr then 0x850 else 0x858)).snpAnswer n h.tag code

/-- An SNPRSP of the agent (R107, R116, R123). -/
def Seg.srAnswer (s : Seg) (n : Nat) (h : Hdr) (data : List DataFlit) (poison : Bool) : Seg :=
  match s.answered n h true with
  | none => s.badDesc n
  | some i =>
    let s := s.when (i.replaces h) fun s => s.count (pgNi n) 0x898
    let hd := i.reply h
    s.modNi n fun x => { x with inb := x.inb.erase i }.enter
      { id := 0, hdr := { hd with poison := hd.poison || poison }, data := data, answer := true, bindClass := hd.cls
        phase := .eligible, since := s.unitTime n }

/-- A whole packet taken on SR; the flag beside each beat tells a parity error (R69). -/
def Seg.srTake (s : Seg) (n : Nat) (beats : List (BitVec 256 × Bool)) : Seg :=
  match beats with
  | [] => s
  | (b, _) :: rest =>
    let h := Hdr.ofBits b
    let poison := beats.any (·.2)
    if h.type = tSnoop ∨ h.type = tBackInval then s.srRequest n h poison
    else if h.type = tSnpRsp then s.srAnswer n h (rest.map fun (w, e) => ⟨w.setWidth 1024, e⟩) poison
    else (((s.badDesc n).count (pgNi n) 0x850).snpAnswer n h.tag cDecerr)

/-- APnnn_SR_READY toward a beat, read as a header where it opens a packet (R67, R149). -/
def Seg.srReady (s : Seg) (n : Nat) (h : Hdr) : Bool :=
  (s.ni n).takes && (!s.niDraining n || !(s.ni n).sr.isEmpty || (h.type == tSnpRsp && (s.answered n h true).isSome))

/-- SR_BEAT (R69, R123, R149). -/
def execSrBeat (g : Fin 4) (site : Fin 288) (data : BitVec 256) (par : BitVec 4) (last : Bool) (s : State) : Result :=
  onSeg s g fun s =>
    let n := site.val
    let x := s.ni n
    if !s.srReady n (Hdr.ofBits data) then s
    else
      let ok := parityOk 4 data.toNat par.toNat
      let s := (s.beatIn n).when (!ok) fun s => s.parityError n
      let beats := x.sr ++ [(data, !ok)]
      if last then (s.modNi n fun x => { x with sr := [] }).srTake n beats
      else s.modNi n fun x => { x with sr := beats }

/-! ### MG -/

/-- The tenant domain of site `n` (R54, R56): its field of the TEN page, or the most restrictive domain while that word
mismatches (R430). -/
def Seg.siteDom (s : Seg) (n : Nat) : BitVec 6 :=
  if s.mismatched pgTen (0x100 + 8 * (n / 4)) then 63
  else BitVec.ofNat 6 (s.rd pgTen ⟨0x100 + 8 * (n / 4), 8 * (n % 4) + 5, 8 * (n % 4)⟩)

/-- MGT flits put on the MG output, the last with LAST; `own` where the NI made the packet. -/
def mgBeats (h : MgtHdr) (pay : List (BitVec 64)) (own : Bool := false) : List MgBeat :=
  let all := h.glaze.toBits :: pay
  all.zipIdx.map fun (w, i) => { bits := w, last := i + 1 == all.length, own := own }

/-- PAR of a beat on RS (16 groups) or SN (4), and of an MG beat (R66, R67, R69). -/
def Beat.par (b : Beat) (k : Nat) : Nat := parityBits k b.bits.toNat
def MgBeat.par (b : MgBeat) : Nat := parityBits 1 b.bits.toNat

/-- A REGACC of site `n` completes on MG with a code of the NI's own (R69, R126, R142, R192). A read's CPL carries its data
flit also here, with a free value (R114, log 14). -/
def Seg.regaccCpl (s : Seg) (n : Nat) (tag : BitVec 8) (rd : Bool) (code : BitVec 3) : Seg :=
  let pay := if rd then [Config.failedRead s.free] else []
  let h : MgtHdr := { dest := s.eid n, src := s.eid n, type := tCpl, tag := tag, code := code, epoch := (s.ni n).epoch,
                      len := BitVec.ofNat 3 pay.length }
  let s := (s.when rd Seg.tick1).modNi n fun x => { x with regacc := none, mgOut := x.mgOut ++ mgBeats h pay true }
  if code = cDecerr then s.count (pgNi n) 0x850 else s

/-- MGT flits of unit `l` put into its router, or where they are addressed to the unit itself among its arrivals (R218). -/
def Seg.injectMgt (s : Seg) (l : Nat) (h : MgtHdr) (pay : List (BitVec 64)) : Seg :=
  let fs := mgtFlits h.glaze pay 0
  if h.dest = s.eid l then
    s.modEp l fun e => { e with asm := SMap.put [] e.asm 248 (SMap.get [] e.asm 248 ++ fs) }
  else s.injectFlits l 3 fs

/-- The destination of an MGT packet can be reached (R126, R192). -/
def Seg.mgtDestOk (s : Seg) (n : Nat) (d : BitVec 12) : Bool :=
  localOk (eidLocal d) && reaches (s.niRing n) s.strap (eidSeg d) && !s.fencedFor n d

/-- A whole packet taken on the MG input (R54, R69, R107, R114, R210): a register access is stamped and sent, or completes
with DECERR. Any other message to a site goes as it came, with POISON after a parity error; one that names no site that can
be reached is refused and counted, as R125 refuses a descriptor on RQ or SR (DESIGN CHOICE, log 41). -/
def Seg.mgTake (s : Seg) (n : Nat) (beats : List (BitVec 64 × Bool)) : Seg :=
  match beats with
  | [] => s
  | (b, _) :: rest =>
    let h := MgtHdr.ofBits b (s.siteDom n)
    let bad := beats.any (·.2)
    let ok := s.mgtDestOk n h.dest
    let h := { h with src := s.eid n, fab := false, epoch := (s.ni n).epoch,
                      domBad := s.mismatched pgTen (0x100 + 8 * (n / 4)) }
    let rd := match rest with | (w, _) :: _ => !w.getLsbD 34 | [] => false
    if h.type ≠ tRegacc then
      if !ok || decide (0x120 ≤ eidLocal h.dest) then s.badDesc n
      else (s.count (pgNi n) 0x800).injectMgt n { h with poison := h.poison || bad } (rest.map (·.1))
    else if bad || !ok then s.regaccCpl n h.tag rd cDecerr
    else
      ((s.modNi n fun x => { x with regacc := some h.tag, regaccRd := rd }).count (pgNi n) 0x800).injectMgt n h (rest.map (·.1))

/-- APnnn_MG_IREADY toward a beat, read as a header where it opens a packet (R67, R210): no second REGACC of the site. -/
def Seg.mgReady (s : Seg) (n : Nat) (h : MgtHdr) : Bool :=
  (s.ni n).takes && !((s.ni n).mgIn.isEmpty && (s.ni n).regacc.isSome && h.type == tRegacc)

/-- MG_INPUT_BEAT (R66, R69, R210): a REGACC is not taken while one of the site is outstanding. -/
def execMgInputBeat (g : Fin 4) (site : Fin 288) (data : BitVec 64) (par : Bool) (last : Bool) (s : State) : Result :=
  onSeg s g fun s =>
    let n := site.val
    let x := s.ni n
    if !s.mgReady n (MgtHdr.ofBits data 0) then s
    else
      let ok := parityOk 1 data.toNat (b2n par)
      let s := (s.beatIn n).when (!ok) fun s => s.parityError n
      let beats := x.mgIn ++ [(data, !ok)]
      if last then (s.modNi n fun x => { x with mgIn := [] }).mgTake n beats
      else s.modNi n fun x => { x with mgIn := beats }

/-! ### Beats the agent takes (R70, R121, R123, R133, R154, R173) -/

/-- What follows when the agent has taken beat `b`: on a packet's last beat it is delivered; a fence that an NI reset
answered counts (R181, R182). -/
def Seg.beatTaken (s : Seg) (n : Nat) (b : Beat) : Seg :=
  let s := match b.deliv with
    | some (src, key, seq) =>
      (s.count (pgNi n) 0x808).when (!b.old) fun s => s.delivered n src key seq b.noGrant
    | none => s
  let s := s.when b.fence fun s => ((s.count (pgNi n) 0xA20).count (pgNi n) 0xA28).evt (pgNi n) 18
  let s := s.when b.ld fun s => s.modNi n fun x => { x with ldAt := some (s.unitTime n) }
  if (s.ni n).resetting then s else s.serveAll n

/-- RS_BEAT_TAKEN. -/
def execRsBeatTaken (g : Fin 4) (site : Fin 288) (s : State) : Result :=
  onSeg s g fun s =>
    match (s.ni site).up, (s.ni site).rs with
    | true, b :: rest => (s.modNi site fun x => { x with rs := rest }).beatTaken site b
    | _, _ => s

/-- SN_BEAT_TAKEN. -/
def execSnBeatTaken (g : Fin 4) (site : Fin 288) (s : State) : Result :=
  onSeg s g fun s =>
    match (s.ni site).up, (s.ni site).sn with
    | true, b :: rest => (s.modNi site fun x => { x with sn := rest }).beatTaken site b
    | _, _ => s

/-- MG_OUTPUT_TAKEN (R151, R210); the MGT plane has no acknowledgements (R114). A CPL of the NI's own is no delivery. -/
def execMgOutputTaken (g : Fin 4) (site : Fin 288) (s : State) : Result :=
  onSeg s g fun s =>
    match (s.ni site).up, (s.ni site).mgOut with
    | true, b :: rest =>
      (s.modNi site fun x => { x with mgOut := rest }).when (b.last && !b.own) fun s => s.count (pgNi site) 0x808
    | _, _ => s

/-! ### The agent's clock and reset, and UP (R71–R73, R121) -/

/-- AGENT_CLOCK_STOP (R71): UP falls, and with the page enabled an event is raised. -/
def execAgentClockStop (g : Fin 4) (site : Fin 288) (s : State) : Result :=
  onSeg s g fun s =>
    if !(s.ni site).clk then s
    else
      let s := s.modNi site fun x => { x with clk := false }
      s.when (s.enabled (pgNi site)) fun s => s.evt (pgNi site) 15

/-- AGENT_CLOCK_RETURN (R71). -/
def execAgentClockReturn (g : Fin 4) (site : Fin 288) (s : State) : Result :=
  onSeg s g fun s => s.modNi site fun x => { x with clk := true }

/-- AGENT_RESET_ASSERT (R72, R176): partly transferred requests are discarded and counted; what the NI has taken whole
stays. -/
def execAgentResetAssert (g : Fin 4) (site : Fin 288) (s : State) : Result :=
  onSeg s g fun s =>
    let n := site.val
    let x := s.ni n
    if !x.arstN then s
    else
      let part := x.store.filter (fun e => e.phase == .data)
      let lost := part.filter (fun e => !e.dead)
      let orphan := x.wd != [] && part.isEmpty
      let s := s.modNi n fun x => { x with
        arstN := false, wd := [], sr := [], mgIn := [], store := x.store.filter (fun e => e.phase != .data) }
      let lost := lost.filter (fun e => !e.answer)
      let s := s.each lost fun s e => s.modNi n fun x => x.landed e.bind
      s.countBy (pgNi n) 0x890 (lost.length + b2n orphan)

/-- AGENT_RESET_RELEASE (R72). -/
def execAgentResetRelease (g : Fin 4) (site : Fin 288) (s : State) : Result :=
  onSeg s g fun s => s.modNi site fun x => { x with arstN := true }

/-- The credit beats that carry the full initial counts (R121). -/
def Seg.initialBeats (s : Seg) (n : Nat) : Beat × Beat :=
  let p := pgNi n
  let rq := s.rd p Reg.NI.NI_CREDIT_REQ_CRED + 256 * s.rd p Reg.NI.NI_CREDIT_WD_CRED
    + 65536 * s.rd p Reg.NI.NI_CREDIT_TUN_CRED
  let h : Hdr := { dest := s.eid n, src := s.eid n, type := tCpl, cls := 2, code := cOk, tag := 0xFFF }
  let sn : Hdr := { h with type := tSnpRsp, aux := BitVec.ofNat 16 (s.rd p Reg.NI.NI_CREDIT_SNP_CRED) }
  ({ bits := BitVec.ofNat 768 rq ++ h.glaze.toBits, credit := true }, { bits := 0#768 ++ sn.glaze.toBits, credit := true })

/-- AP_UP_RISE (R73, R121): UP rises where it may, and the credit beats come before everything that waits. -/
def execApUpRise (g : Fin 4) (site : Fin 288) (s : State) : Result :=
  onSeg s g fun s =>
    let n := site.val
    let x := s.ni n
    if x.up || x.resetting || !s.upAllowed n x then s
    else
      let (a, b) := s.initialBeats n
      (s.setNi n { x with
        up := true, retReq := 0, retWd := 0, retTun := 0, retSnp := 0, rs := a :: x.rs, sn := b :: x.sn }).serveAll n

end Sys2Proof.Machine
end

