-- ==== Sys2Proof/Machine/Slots.lean ====
section
/-!
DEFINITION. Slot tables, reservation descriptors, their loading, validation and swap, and the demotion lists (R233–R241,
R244, R252, R253, R261, R262, R266, R268, R269, R272).
-/
namespace Sys2Proof.Machine

/-! ### Entries and descriptors (R233–R235, R252) -/

/-- The physical bank a router uses, and the one it loads (R233, R240). -/
def Seg.slotActive (s : Seg) (t : Nat) : Nat := s.rd (pgRt t) Reg.ROUTER.SLOT_STAT_ACTIVE
def Seg.slotShadow (s : Seg) (t : Nat) : Nat := 1 - s.slotActive t

/-- Slot entry `i` of a table. -/
def Seg.slotEntry (s : Seg) (t bk pl o i : Nat) : Nat := SMap.get 7 s.slots (kSlot t bk pl o i)
def Seg.setSlotEntry (s : Seg) (t bk pl o i v : Nat) : Seg := { s with slots := SMap.put 7 s.slots (kSlot t bk pl o i) v }

/-- IN and RTAG of an entry (R234). -/
def slotIn (e : Nat) : Nat := e % 8
def slotTag (e : Nat) : Nat := e / 16 % 64

/-- The entry is owned at output `o` (R234). -/
def slotOwned (o e : Nat) : Bool := slotIn e != 7 && slotIn e != o

/-- Descriptor `r` of a table (R252). -/
def Seg.desc (s : Seg) (t bk pl o r : Nat) : Word := SMap.get 0 s.descs (kDesc t bk pl o r)
def Seg.setDesc (s : Seg) (t bk pl o r : Nat) (w : Word) : Seg := { s with descs := SMap.put 0 s.descs (kDesc t bk pl o r) w }
def descFid (w : Word) : BitVec 20 := w.truncate 20
def descPath (w : Word) : Bool := w.getLsbD 20
def descFlits (w : Word) : Nat := slice w.toNat 24 3
def descReject (w : Word) : Bool := w.getLsbD 30
def descValid (w : Word) : Bool := w.getLsbD 31

/-- A slot-owned transfer of the tile has started and has flits left (R240). -/
def Seg.slotTransfer (s : Seg) (t : Nat) : Bool :=
  s.outs.any fun e => e.1 / 32 == t && decide (e.1 / 8 % 4 < 2) && !e.2.runs.isEmpty

/-- AT_EN lets a pending swap take place at the boundary before tick `v` (R240). -/
def Seg.swapAt (s : Seg) (t : Nat) (v : BitVec 64) : Bool :=
  let at_ := BitVec.ofNat 16 (s.rd (pgRt t) Reg.ROUTER.SLOT_CTRL_SWAP_AT)
  !s.flag (pgRt t) Reg.ROUTER.SLOT_CTRL_AT_EN || decide (((v >>> 9).truncate 16 - at_).toNat < 32768)

/-- The physical bank in use in the slot cycle of a tick. The swap takes place where tick index 511 gives way to 0, so that the
cycle of tick 0, decided before, consults the bank that a pending swap is about to make active (R240). -/
def Seg.bankFor (s : Seg) (t : Nat) (tick : BitVec 64) : Nat :=
  if tick.toNat % 512 = 0 && s.flag (pgRt t) Reg.ROUTER.SLOT_STAT_SWAP_PEND && s.swapAt t tick && !s.slotTransfer t then
    s.slotShadow t
  else s.slotActive t

/-- The valid descriptor of an output's table in a bank for a copy, rejected or not: its RTAG (R253). -/
def Seg.descFor (s : Seg) (t b pl o : Nat) (fid : BitVec 20) (path : Bool) : Option Nat :=
  (List.range 64).find? fun r =>
    let d := s.desc t b pl o r
    descValid d && decide (1 ≤ descFlits d) && decide (descFlits d ≤ 5) && descFid d == fid && descPath d == path

/-- The copy's RTAG in a bank where its descriptor is not rejected; otherwise REASON as a reject notice tells it: 1 missing, 2
rejected (R253, R272). -/
def Seg.tagIn (s : Seg) (t b pl o : Nat) (fid : BitVec 20) (path : Bool) : Sum Nat Nat :=
  match s.descFor t b pl o fid path with
  | none => .inr 1
  | some r => if descReject (s.desc t b pl o r) then .inr 2 else .inl r

/-- The copy's RTAG in the active tables. -/
def Seg.tagFor (s : Seg) (t pl o : Nat) (fid : BitVec 20) (path : Bool) : Sum Nat Nat := s.tagIn t (s.slotActive t) pl o fid path

/-- Owned entries of the window from entry `k` to its end (R235, R236): a table of one window ends at entry 511. -/
def Seg.ownedLeft (s : Seg) (t b pl o k : Nat) : Nat :=
  let e := s.slotEntry t b pl o k
  let same := fun i => let f := s.slotEntry t b pl o (i % 512); slotIn f == slotIn e && slotTag f == slotTag e
  let run := ((List.range 512).takeWhile (fun i => same (k + i))).length
  if run = 512 then 512 - k else run

/-- How many entries of its window lie before entry `k`. -/
def Seg.ownedBefore (s : Seg) (t pl o k : Nat) : Nat :=
  let b := s.slotActive t
  let e := s.slotEntry t b pl o k
  let same := fun i => let f := s.slotEntry t b pl o (i % 512); slotIn f == slotIn e && slotTag f == slotTag e
  let run := ((List.range 512).takeWhile (fun i => same (k + 511 - i))).length
  if run = 512 then k else run

/-! ### C1 tiles (R268, R269) -/

/-- Some entry of either bank of the tile is owned. -/
def Seg.tileOwned (s : Seg) (t : Nat) : Bool :=
  s.slots.any fun e => e.1 / 16384 == t && slotOwned (e.1 / 512 % 8) e.2

/-- The tile becomes or ceases to be a C1 tile, and its clock follows. -/
def Seg.c1Update (s : Seg) (t : Nat) : Seg :=
  if s.tileOwned t = s.c1Tile t then s
  else
    let s := s.wr (pgRt t) Reg.ROUTER.C1_STAT_C1_TILE (b2n (s.tileOwned t))
    let fast := s.tileOwned t && decide (48 ≤ s.rd pgClk (Reg.CLK.CLK_TILE_CUR.at t))
    let s := s.wr (pgRt t) Reg.ROUTER.C1_STAT_RATE (b2n fast)
    (if s.c1Tile t then s else s.freqLock t).codeChange t

/-! ### Loading (R238, R239, R252) -/

/-- A COPY or CLEAR runs. -/
def Seg.slotBusy (s : Seg) (t : Nat) : Bool :=
  s.flag (pgRt t) Reg.ROUTER.SLOT_CTRL_COPY || s.flag (pgRt t) Reg.ROUTER.SLOT_CTRL_CLEAR

/-- A swap is pending or the shadow is under validation. -/
def Seg.swapBusy (s : Seg) (t : Nat) : Bool :=
  s.flag (pgRt t) Reg.ROUTER.SLOT_STAT_SWAP_PEND || s.flag (pgRt t) Reg.ROUTER.SLOT_STAT_VALIDATING

/-- The plane and port of a table number. -/
def tablePlane (pl : Nat) : Plane := if pl = 0 then .req else .rsp
def portOf (o : Nat) : Option Port := Port.all[o]?

/-- The output has a slot table (R233). -/
def hasTable (t pl o : Nat) : Bool := match portOf o with | some p => portOk t (tablePlane pl) p | none => false

/-- A write of SLOT_DATA (R238): two shadow entries, and the index moves on by 2; or LOCK_HIT. -/
def Seg.slotDataWrite (s : Seg) (t : Nat) (w : Word) : Seg :=
  let p := pgRt t
  let pl := s.rd p Reg.ROUTER.SLOT_ADDR_PLANE
  let o := s.rd p Reg.ROUTER.SLOT_ADDR_OUT
  let i := s.rd p Reg.ROUTER.SLOT_ADDR_INDEX / 2 * 2
  if s.flag p Reg.ROUTER.SLOT_ADDR_BANK || !hasTable t pl o || s.swapBusy t || s.slotBusy t then s.lockHit p
  else
    let b := s.slotShadow t
    let keep := fun (v : Nat) => v % 8 + v / 16 % 64 * 16
    let s := (s.setSlotEntry t b pl o i (keep (w.toNat % 65536))).setSlotEntry t b pl o (i + 1) (keep (w.toNat / 65536))
    (s.wr p Reg.ROUTER.SLOT_ADDR_INDEX (i + 2)).c1Update t

/-- SLOT_DATA as it reads: the two entries at SLOT_ADDR. -/
def Seg.slotDataRead (s : Seg) (t : Nat) : Word :=
  let p := pgRt t
  let b := if s.flag p Reg.ROUTER.SLOT_ADDR_BANK then s.slotActive t else s.slotShadow t
  let i := s.rd p Reg.ROUTER.SLOT_ADDR_INDEX / 2 * 2
  let e := s.slotEntry t b (s.rd p Reg.ROUTER.SLOT_ADDR_PLANE) (s.rd p Reg.ROUTER.SLOT_ADDR_OUT)
  BitVec.ofNat 32 (e i + 65536 * e (i + 1))

/-- A write of RES_DATA (R252, R272). -/
def Seg.resDataWrite (s : Seg) (t : Nat) (w : Word) : Seg :=
  let p := pgRt t
  let pl := s.rd p Reg.ROUTER.RES_ADDR_PLANE
  let o := s.rd p Reg.ROUTER.RES_ADDR_OUT
  let r := s.rd p Reg.ROUTER.RES_ADDR_RTAG
  if s.flag p Reg.ROUTER.RES_ADDR_BANK || !hasTable t pl o || s.swapBusy t || s.slotBusy t then s.lockHit p
  else (s.setDesc t (s.slotShadow t) pl o r (w &&& 0x871FFFFF)).wr p Reg.ROUTER.RES_ADDR_RTAG (r + 1)

/-- RES_DATA as it reads. -/
def Seg.resDataRead (s : Seg) (t : Nat) : Word :=
  let p := pgRt t
  let b := if s.flag p Reg.ROUTER.RES_ADDR_BANK then s.slotActive t else s.slotShadow t
  s.desc t b (s.rd p Reg.ROUTER.RES_ADDR_PLANE) (s.rd p Reg.ROUTER.RES_ADDR_OUT) (s.rd p Reg.ROUTER.RES_ADDR_RTAG)

/-- PROGRESS of a COPY or CLEAR. -/
def Seg.slotProgress (s : Seg) (t busy percent pos : Nat) : Seg :=
  ((s.wr (pgRt t) Reg.PAGE.PROGRESS_BUSY busy).wr (pgRt t) Reg.PAGE.PROGRESS_PERCENT percent).wr (pgRt t)
    Reg.PAGE.PROGRESS_POSITION pos

/-- The bits of SLOT_CTRL that start something (R239, R240): CLEAR before COPY, and a swap request. While a COPY or CLEAR runs
and no swap is pending another is ignored, without LOCK_HIT (DESIGN CHOICE, log 116). -/
def Seg.slotCtrl (s : Seg) (t : Nat) (w : Word) : Seg :=
  let p := pgRt t
  let copy := Reg.ROUTER.SLOT_CTRL_COPY.get w == 1
  let clear := Reg.ROUTER.SLOT_CTRL_CLEAR.get w == 1
  let s := if !(copy || clear) then s
    else if s.swapBusy t then s.lockHit p
    else if s.slotBusy t then s
    else (s.wr p (if clear then Reg.ROUTER.SLOT_CTRL_CLEAR else Reg.ROUTER.SLOT_CTRL_COPY) 1).slotProgress t 1 0 0
  if Reg.ROUTER.SLOT_CTRL_SWAP_REQ.get w = 1 ∧ s.swapBusy t = false then
    ((s.wr p Reg.ROUTER.SLOT_CTRL_SWAP_REQ 1).wr p Reg.ROUTER.SLOT_STAT_VALIDATING 1).wr p Reg.ROUTER.SLOT_STAT_DELAYS 0
  else s

/-- SLOT_COPY_CLEAR_DONE (R239): the shadow holds the active tables, or is free; the bit and BUSY fall. -/
def execSlotCopyClearDone (g : Fin 4) (tile : Fin 144) (s : State) : Result :=
  onSeg s g fun s =>
    let t := tile.val
    let p := pgRt t
    if !s.slotBusy t then s
    else
      let b := s.slotShadow t
      let a := s.slotActive t
      let copy := s.flag p Reg.ROUTER.SLOT_CTRL_COPY
      let slots := s.slots.filter (fun e => !(e.1 / 16384 == t && e.1 / 8192 % 2 == b))
      let descs := s.descs.filter (fun e => !(e.1 / 2048 == t && e.1 / 1024 % 2 == b))
      let s := { s with slots := slots, descs := descs }
      let s := if copy then
          let s := s.each (s.slots.filter (fun e => e.1 / 16384 == t && e.1 / 8192 % 2 == a)) fun s e =>
            { s with slots := SMap.put 7 s.slots (e.1 - a * 8192 + b * 8192) e.2 }
          s.each (s.descs.filter (fun e => e.1 / 2048 == t && e.1 / 1024 % 2 == a)) fun s e =>
            { s with descs := SMap.put 0 s.descs (e.1 - a * 1024 + b * 1024) e.2 }
        else s
      let s := (s.wr p Reg.ROUTER.SLOT_CTRL_COPY 0).wr p Reg.ROUTER.SLOT_CTRL_CLEAR 0
      ((s.slotProgress t 0 100 512).evt p 19).c1Update t

/-! ### Validation and swap (R240, R241, R261, R262, R269) -/

/-- The first refusal among the entries of a table: the reason and the entry, with the owned entries counted. -/
def Seg.valEntries (s : Seg) (t b pl o : Nat) : Option (Nat × Nat) × Nat :=
  let r := (List.range 512).foldl (fun (a : Option (Nat × Nat) × Nat × List (Nat × Nat)) k =>
    let (bad, n, tags) := a
    let e := s.slotEntry t b pl o k
    if bad.isSome || !slotOwned o e then a
    else
      let d := s.desc t b pl o (slotTag e)
      let i := SMap.get 7 tags (slotTag e)
      if descValid d = false ∨ descFlits d = 0 ∨ 5 < descFlits d then (some (2, k), n + 1, tags)
      else if i ≠ 7 ∧ i ≠ slotIn e then (some (3, k), n + 1, tags)
      else (none, n + 1, SMap.put 7 tags (slotTag e) (slotIn e))) (none, 0, [])
  (r.1, r.2.1)

/-- The second of two valid descriptors for one copy, if any. -/
def Seg.valDup (s : Seg) (t b pl o : Nat) : Option Nat :=
  (List.range 63).findSome? fun r =>
    let d := s.desc t b pl o r
    if descValid d then
      (List.range 64).find? fun q =>
        let f := s.desc t b pl o q
        decide (r < q) && descValid f && descFid f == descFid d && descPath f == descPath d
    else none

/-- The longest window of RTAG `r` (R235). -/
def Seg.longestWindow (s : Seg) (t b pl o r : Nat) : Nat :=
  let mine := fun k => let e := s.slotEntry t b pl o (k % 512); slotOwned o e && slotTag e == r
  min 512 ((List.range 1024).foldl (fun (a : Nat × Nat) k =>
    let c := if mine k then a.1 + 1 else 0
    (c, max a.2 c)) (0, 0)).2

/-- The descriptors of a table whose longest window is too short, and at an output into a bundle those of more than 2 flits:
the notes of R261 (R392). -/
def Seg.valNotes (s : Seg) (t b pl o : Nat) : List Nat :=
  let bundle := ((Port.all[o]?).bind (portBridge t)).isSome
  (List.range 64).filter fun r =>
    let d := s.desc t b pl o r
    descValid d && (decide (s.longestWindow t b pl o r < descFlits d) || (bundle && decide (2 < descFlits d)))

/-- The refusal of one table, in the order of R261. -/
def Seg.valTable (s : Seg) (t b pl o : Nat) : Option (Nat × Nat) :=
  let (bad, owned) := s.valEntries t b pl o
  match bad with
  | some r => some r
  | none => if 64 < owned then some (1, owned) else (s.valDup t b pl o).map fun q => (5, q)

/-- The tables of a router in the order of R261. -/
def tables (t : Nat) : List (Nat × Nat) :=
  [0, 1].flatMap fun pl => ((List.range 7).filter (hasTable t pl)).map fun o => (pl, o)

/-- VAL_STAT takes the outcome of a validation. -/
def Seg.valStat (s : Seg) (t reason rejects pl o detail : Nat) : Seg :=
  let p := pgRt t
  let s := (s.wr p Reg.ROUTER.VAL_STAT_REASON reason).wr p Reg.ROUTER.VAL_STAT_REJECTS (min 255 rejects)
  ((s.wr p Reg.ROUTER.VAL_STAT_PLANE pl).wr p Reg.ROUTER.VAL_STAT_OUT o).wr p Reg.ROUTER.VAL_STAT_DETAIL detail

/-- The tile runs at a C1 rate, its clock aligned to the slot tick, or is no C1 tile (R268, R269). -/
def Seg.c1Ready (s : Seg) (t : Nat) : Bool :=
  let cur := s.rd pgClk (Reg.CLK.CLK_TILE_CUR.at t)
  !s.c1Tile t || (s.isAligned t && (cur == 24 || cur == 48))

/-- SLOT_VALIDATION_DONE (R261, R262, R269): a refusal cancels the swap; noted descriptors are rejected and it goes ahead. A
COPY or CLEAR that was running at SWAP_REQ ends first (log 92). After a validation with neither, PLANE, OUT and DETAIL read 0
(DESIGN CHOICE, log 117). -/
def execSlotValidationDone (g : Fin 4) (tile : Fin 144) (s : State) : Result :=
  onSeg s g fun s =>
    let t := tile.val
    let p := pgRt t
    if !s.flag p Reg.ROUTER.SLOT_STAT_VALIDATING || s.slotBusy t || !s.c1Ready t then s
    else
      let b := s.slotShadow t
      let s := s.wr p Reg.ROUTER.SLOT_STAT_VALIDATING 0
      match (tables t).findSome? (fun (pl, o) => (s.valTable t b pl o).map fun r => (pl, o, r)) with
      | some (pl, o, reason, detail) =>
        let s := (s.wr p Reg.ROUTER.SLOT_CTRL_SWAP_REQ 0).wr p Reg.ROUTER.SLOT_STAT_SWAP_PEND 0
        ((s.valStat t reason 0 pl o detail).wr p Reg.ROUTER.VAL_STAT_REFUSED 1).evt p 20
      | none =>
        let notes := (tables t).flatMap fun (pl, o) => (s.valNotes t b pl o).map fun r => (pl, o, r)
        let s := s.each notes fun s (pl, o, r) => s.setDesc t b pl o r (s.desc t b pl o r ||| 0x40000000)
        let s := s.wr p Reg.ROUTER.SLOT_STAT_SWAP_PEND 1
        match notes with
        | [] => s.valStat t 0 0 0 0 0
        | (pl, o, r) :: _ => (s.valStat t 4 notes.length pl o r).evt p 21

/-- The swap of a bridge's 24 tables at a period boundary (R240, R392). -/
def Seg.brPeriod (s : Seg) (br : Nat) : Seg :=
  let p := pgBr br
  let period : BitVec 16 := (s.ftb >>> 9).truncate 16
  let at_ := BitVec.ofNat 16 (s.rd p Reg.BR.BSLOT_CTRL_SWAP_AT)
  if !s.flag p Reg.BR.BSLOT_STAT_SWAP_PEND then s
  else if s.flag p Reg.BR.BSLOT_CTRL_AT_EN && decide (32768 ≤ (period - at_).toNat) then s
  else if (List.range 24).any (fun b => (s.bun br b).begun && (s.bun br b).claim != 0) then
    s.wr p Reg.BR.BSLOT_STAT_DELAYS (min 255 (s.rd p Reg.BR.BSLOT_STAT_DELAYS + 1))
  else
    let s := (s.wr p Reg.BR.BSLOT_STAT_ACTIVE (1 - s.rd p Reg.BR.BSLOT_STAT_ACTIVE)).wr p Reg.BR.BSLOT_STAT_SWAP_PEND 0
    (s.wr p Reg.BR.BSLOT_CTRL_SWAP_REQ 0).wr p Reg.BR.BSLOT_STAT_DELAYS 0

/-- SLOT_PERIOD_BOUNDARY (R240, R241): a pending swap takes place, or a transfer that spans the boundary delays it. The
boundary at tile (11,0) is BR0's also, at (0,0) BR1's (R392). DESIGN CHOICE, log 20. -/
def execSlotPeriodBoundary (g : Fin 4) (tile : Fin 144) (s : State) : Result :=
  onSeg s g fun s =>
    let t := tile.val
    let s := if t = 11 then s.brPeriod 0 else if t = 0 then s.brPeriod 1 else s
    let p := pgRt t
    if !s.flag p Reg.ROUTER.SLOT_STAT_SWAP_PEND || !s.swapAt t (s.tftb t) then s
    else if s.slotTransfer t then
      let n := min 255 (s.rd p Reg.ROUTER.SLOT_STAT_DELAYS + 1)
      let s := (s.wr p Reg.ROUTER.SLOT_STAT_DELAYS n).countV p 4 0xB80 1
      if max 1 (s.rd p Reg.ROUTER.ARB_EXP_SWAP_FORCE_AFTER) ≤ n ∧ s.flag p Reg.ROUTER.SLOT_STAT_FORCING = false then
        (s.wr p Reg.ROUTER.SLOT_STAT_FORCING 1).evt p 17
      else s
    else
      let s := (s.wr p Reg.ROUTER.SLOT_STAT_ACTIVE (s.slotShadow t)).wr p Reg.ROUTER.SLOT_STAT_SWAP_PEND 0
      let s := (s.wr p Reg.ROUTER.SLOT_CTRL_SWAP_REQ 0).wr p Reg.ROUTER.SLOT_STAT_FORCING 0
      ((s.wr p Reg.ROUTER.SLOT_STAT_DELAYS 0).countV p 4 0xB88 1).evt p 16

/-! ### STARVE_N (R225, R244) -/

/-- STARVE_N as it acts. -/
def Seg.starveN (s : Seg) (t : Nat) : Nat := max 4 (min 64 (s.rd (pgRt t) Reg.ROUTER.ARB_CFG_STARVE_N))

/-- A write of STARVE_N resets every bg_n of the router. -/
def Seg.starveReset (s : Seg) (t : Nat) : Seg :=
  { s with outs := SMap.mapNorm {} (fun k x => if k / 32 = t then { x with bg := 0 } else x) s.outs }

/-! ### Demotion (R253, R266, R272) -/

/-- The word of entry `j` of the demotion list of site `n`. -/
def demOff (n j : Nat) : Nat := (if n % 2 = 0 then 0x260 else 0x2A0) + 4 * j

/-- ALL of the list of site `n`. -/
def demAll (n : Nat) : Field := if n % 2 = 0 then Reg.ROUTER.DEMOTE_CTRL_ALL_L0 else Reg.ROUTER.DEMOTE_CTRL_ALL_L1

/-- The entries in use of the list of site `n`, as words. -/
def Seg.demWords (s : Seg) (n : Nat) : List Nat :=
  ((List.range 16).map fun j => (s.word (pgRt (n / 2)) (demOff n j)).toNat).filter (fun w => decide (2 ^ 31 ≤ w))

/-- The flow is demoted on the plane (`rsp` tells RSP from REQ). -/
def Seg.demoted (s : Seg) (n : Nat) (fid : BitVec 20) (rsp : Bool) : Bool :=
  s.flag (pgRt (n / 2)) (demAll n) || (s.demWords n).any fun w => w % 2 ^ 21 == fid.toNat + 2 ^ 20 * b2n rsp

/-- A destination of a demoted flow of site `n` noted. -/
def Seg.noteDemDest (s : Seg) (n : Nat) (d : BitVec 12) (rsp : Bool) : Seg :=
  s.modNi n fun x => if x.demDests.contains (d, rsp) then x else { x with demDests := x.demDests ++ [(d, rsp)] }

/-- The flow enters the demotion list of site `n`, or ALL is set; the site sends it as C2 from now on. The destinations of
its packets not yet acknowledged, and on RSP of the CPLs it has sent, are noted for R266's other flows. -/
def Seg.demote (s : Seg) (n : Nat) (fid : BitVec 20) (rsp : Bool) (reason : Nat) : Seg :=
  let p := pgRt (n / 2)
  if s.demoted n fid rsp then s
  else
    let mine := (s.ep n).send.filter fun e =>
      e.1 % 4 == b2n rsp && e.2.unacked.any (fun u => u.pkt.hdr.cls == 1 && u.pkt.hdr.fid == fid)
    let s := s.each mine fun s e => s.noteDemDest n (BitVec.ofNat 12 (e.1 / 4)) rsp
    let s := s.each ((s.ni n).rspDests.filter (fun d => rsp && d.1 == fid)) fun s d => s.noteDemDest n d.2 true
    let s := match (List.range 16).find? (fun j => !(s.word p (demOff n j)).getLsbD 31) with
      | some j => s.setWord p (demOff n j) (BitVec.ofNat 32 (2 ^ 31 + reason * 2 ^ 24 + b2n rsp * 2 ^ 20 + fid.toNat))
      | none => s.wr p (demAll n) 1
    s.evt p 23

/-- CLEAR of the list of the L0 site (`l` 0) or the L1 site (`l` 1), and of the destinations noted with it. -/
def Seg.demoteClear (s : Seg) (t l : Nat) : Seg :=
  let s := (s.each (List.range 16) fun s j => s.setWord (pgRt t) (demOff l j) 0).wr (pgRt t) (demAll l) 0
  s.modNi (2 * t + l) fun x => { x with demDests := [] }

/-- The payload of a reject notice in the model's layout: FID, PATH, plane, and whether rejected. -/
def rejectBits (fid : BitVec 20) (path rsp rejected : Bool) : BitVec 64 :=
  BitVec.ofNat 64 (fid.toNat + b2n path * 2 ^ 20 + b2n rsp * 2 ^ 21 + b2n rejected * 2 ^ 22)

/-- A complete MGT packet that has reached unit `l`: its key, its flits, and what follows them. `fab` picks control
packets. -/
def Seg.mgtArrived (s : Seg) (l : Nat) (fab : Bool) : Option (Nat × List Flit × List Flit) :=
  (s.ep l).asm.findSome? fun (k, fs) =>
    match fs with
    | f :: _ =>
      let mine := match f.body with | .mgtHead h => h.fab == fab | _ => false
      match fs.findIdx? (·.tail) with
      | some i => if decide (192 ≤ k) && mine then some (k, fs.take (i + 1), fs.drop (i + 1)) else none
      | none => none
    | [] => none

/-- The packet taken out of the arrivals. -/
def Seg.mgtTaken (s : Seg) (l k : Nat) (rest : List Flit) : Seg :=
  s.modEp l fun e => { e with asm := SMap.put [] e.asm k rest }

/-- REJECT_NOTICE_RECEIVE (R253, R266). -/
def execRejectNoticeReceive (g : Fin 4) (site : Fin 288) (s : State) : Result :=
  onSeg s g fun s =>
    match s.mgtArrived site true with
    | none => s
    | some (k, fs, rest) =>
      let s := s.mgtTaken site k rest
      match wordsOf fs with
      | w :: _ =>
        s.demote site (w.truncate 20) (w.getLsbD 21) (if w.getLsbD 22 then 2 else 1)
      | [] => s

end Sys2Proof.Machine
end

