-- ==== Sys2Proof/Machine/Network.lean ====
section
/-!
DEFINITION. The routers: routing, arrival, the switch arbiters, slot cycles, truncation and the escape watchdog
(R183–R198, R205, R206, R212, R217–R237, R242).
-/
namespace Sys2Proof.Machine

/-! ### Heads (R190, R219) -/

/-- The router of tile `t` runs. -/
def Seg.rtRuns (s : Seg) (t : Nat) : Bool :=
  decide (s.stTile t ≤ 1) && !s.saggared (pgRt t) && !s.kilnIsolates (srcRt t)

/-- New headers wait: DRAIN is 1 or ENABLE 0 (R214). -/
def Seg.rtDraining (s : Seg) (t : Nat) : Bool :=
  s.flag (pgRt t) Reg.PAGE.PAGE_CTRL_DRAIN || !s.flag (pgRt t) Reg.PAGE.PAGE_CTRL_ENABLE

/-- The effective age of a header, worked out as it arrives (R224, R272). -/
def Seg.effAge (s : Seg) (t : Nat) (h : RHdr) : BitVec 16 :=
  ageOf (s.tftb t) - h.age + BitVec.ofNat 16 (s.rd (pgRt t) (Reg.ROUTER.CLASS_MAP_BONUS.at h.cls))

/-- A bundle is saggared or at its sleep boundary, so that its traffic uses the other one of the row (R186, R395, R399). -/
def Seg.bundleAway (s : Seg) (br b : Nat) : Bool :=
  let st := s.bunTx br b
  st == 5 || st == 4 || st == 1

/-- Bundle `b` holds an unacknowledged or waiting frame of a pair. -/
def Seg.holdsPair (s : Seg) (br b : Nat) (pr : BitVec 12 × BitVec 12) : Bool :=
  let x := s.bun br b
  let mine := fun (f : Flit) => match f.rhdr with | some h => (h.src, h.dest) == pr | none => false
  x.replay.any (fun f => mine f.flit) || x.txq.any (fun e => e.2.any (fun f => mine f.1))

/-- Which bundle of the row a header takes at an edge, `true` for the second; none while it is held (R186, R250, R399). -/
def Seg.bundleFor (s : Seg) (t br : Nat) (h : RHdr) : Option Bool :=
  let own := h.src.getLsbD 0 != h.dest.getLsbD 0
  let b := 2 * tileY t + b2n own
  let c := 2 * tileY t + b2n (!own)
  if h.c1 then some own
  else if s.bundleAway br b then some (if s.bunTx br c == 5 then own else !own)
  else
    let pr := (h.src, h.dest)
    let x := s.bun br c
    if x.pairs.contains pr then
      if !s.holdsPair br c pr then some own else if x.stay.contains pr then some (!own) else none
    else some own

/-- The flit at the head of an input VC as the arbiters see it. -/
structure Head where
  flit : Flit
  out : Nat
  vc : Nat
  second : Bool
  ring : Option RingWalk
  esc : Bool
  eff : BitVec 16
  epoch : BitVec 4
  header : Bool
  fab : Bool := false
  la : Nat := 7
  deriving DecidableEq, Repr

/-- The epoch a header counts under here: its own (R199, R201). Where a header of another segment, whose epochs are numbered
apart, carries one that is not live here, the router's current one (log 48). -/
def Seg.epochHere (s : Seg) (t : Nat) (h : RHdr) : BitVec 4 :=
  if eidSeg h.src = s.strap || (s.viewOf t h.epoch).isSome then h.epoch
  else BitVec.ofNat 4 (s.rd (pgRt t) Reg.ROUTER.RT_EPOCH_CUR)

/-- The ring state router `t` uses with a view: the one the view's map was sent under. An edge router takes a change with the
ring notice that follows the map (R203). -/
def Seg.ringAt (s : Seg) (t : Nat) (m : FenceMap) : Ring :=
  s.ringOf (if s.ctl.ringDue.contains (srcRt t) then (s.mapOf (s.ctl.epoch - 1)).ringVer else m.ringVer)

/-- The route of a header at the head of VC `v`, under the view of its epoch (R190, R199); none while that epoch is not
adopted, `some none` where there is no exit. -/
def Seg.headerRoute (s : Seg) (t pl v : Nat) (f : Flit) (h : RHdr) : Option (Option Route) :=
  (s.viewOf t (s.epochHere t h)).map fun m =>
    routeOf (s.ringAt t m) m s.strap (tileX t) (tileY t) (planeOf pl) h v f.esc f.ring (s.adaptOk t h)
      (fun p w => s.credits t pl p.code w)

/-- The head of an input VC, where it has an output. A draining router lets no header compete (R214); `granted` looks at one
that has its grant. -/
def Seg.headOf (s : Seg) (t pl i v : Nat) (granted : Bool := false) : Option Head :=
  match s.vcq t pl i v with
  | [] => none
  | f :: _ =>
    match s.thru t pl i v with
    | some r => some ⟨f, r.out, r.vc, r.second, f.ring, f.esc, r.eff, r.epoch, false, r.fab, r.la⟩
    | none =>
      match f.rhdr with
      | none => none
      | some h =>
        match s.headerRoute t pl v f h with
        | some (some r) =>
          if r.out.code = i || (s.rtDraining t && !granted) then none
          else
            let bun := match portBridge t r.out with | some br => s.bundleFor t br h | none => some false
            bun.map fun second => ⟨f, r.out.code, r.vc, second, r.ring, r.esc, f.eff, s.epochHere t h, true, h.fab, 7⟩
        | _ => none

/-- Downstream has room for the head (R219): a credit toward a neighbour whose link is up and awake, a credit of the
bundle, or an endpoint, which takes every flit. -/
def Seg.hasCredit (s : Seg) (t pl : Nat) (x : Head) : Bool :=
  match Port.all[x.out]? with
  | none => false
  | some p =>
    match portBridge t p with
    | some br =>
      let b := 2 * tileY t + b2n x.second
      let st := s.bunTx br b
      (st == 2 || st == 3) && decide (((s.bun br b).waiting pl x.vc).length < (s.bun br b).credit pl x.vc)
    | none =>
      match neighbour t p with
      | some nb => s.linkUp t p nb && !s.linkSleeps nb && decide (0 < s.credits t pl x.out x.vc)
      | none => true

/-- The head is ready (R219, R223). -/
def Seg.ready (s : Seg) (t pl i v : Nat) (x : Head) : Bool :=
  s.hasCredit t pl x &&
    (x.vc == 3 || (let w := s.vcOwner t pl x.out x.vc; if x.header then w == 0 else w == 1 + 8 * i + v))

/-- Output `a` has already decided in the router cycle in which output `o` decides. -/
def Seg.hasDecided (s : Seg) (t pl o a : Nat) : Bool :=
  let x := s.out t pl o
  let y := s.out t pl a
  a != o && y.at_.isSome && y.at_ == x.at_ && decide (x.phase ≤ y.phase)

/-- Another output has granted this input port's flit in the cycle in which output `o` decides: an input offers one flit in a
cycle (R219). -/
def Seg.inputBusy (s : Seg) (t pl o i : Nat) : Bool :=
  (List.range 7).any fun a => s.hasDecided t pl o a && match (s.out t pl a).next with
    | some (.bg b _) | some (.slot b _) => b == i
    | _ => false

/-- A grant has been decided for the head of this input VC and not yet used. -/
def Seg.granted (s : Seg) (t pl i v : Nat) : Bool :=
  (List.range 7).any fun o => match (s.out t pl o).next with | some g => g.isFor i v | none => false

/-! ### Slot cycles (R221, R222, R236, R237, R241) -/

/-- Decisions this output has made in the present tick, with the one at hand. -/
def Seg.phaseOf (s : Seg) (t pl o : Nat) : Nat :=
  let x := s.out t pl o
  if x.at_ = some (s.tftb t) then x.phase + 1 else 1

/-- The tick whose slot cycle is the cycle this output decides next (R221, R222): the last router cycle of a tick decides for
the next tick's, which at 1.2 GHz is every cycle and at 2.4 GHz every second one. One decision is one router cycle (log 90). -/
def Seg.slotDue (s : Seg) (t pl o : Nat) : Option (BitVec 64) :=
  let next := s.tftb t + 1
  let cycles := max 1 (s.rd pgClk (Reg.CLK.CLK_TILE_CUR.at t) / 24)
  if decide (pl ≤ 1) && SMap.get false s.synced t && decide (cycles ≤ s.phaseOf t pl o) && (s.out t pl o).tick != some next then
    some next
  else none

/-- Slot entry for a tick of the bank in use then. -/
def Seg.entryAt (s : Seg) (t pl o : Nat) (tick : BitVec 64) : Nat := s.slotEntry t (s.bankFor t tick) pl o (tick.toNat % 512)

/-- What the owner of a slot cycle does with it: it offers its flit, it holds a ready header back (R236, R241), it misses the
slot for want of the next flit of a started packet or of a credit (R237), or it has nothing to offer. -/
inductive SlotUse where
  | offers | defers | misses | nothing
  deriving DecidableEq, Repr

/-- The use the owner of entry `e` makes of the slot cycle of a tick (R222, R236, R237, R241). -/
def Seg.slotUse (s : Seg) (t pl o e : Nat) (tick : BitVec 64) : SlotUse :=
  let i := slotIn e
  let k := tick.toNat % 512
  let b := s.bankFor t tick
  match (s.out t pl o).runs.find? (fun r => r.inp == i && r.tag == slotTag e) with
  | some r =>
    match s.headOf t pl i 3 with
    | some x =>
      if x.flit.id == r.id && x.out == o && !x.header && x.flit.seen.getLsbD o && s.hasCredit t pl x then .offers else .misses
    | none => .misses
  | none =>
    match s.headOf t pl i 3 with
    | some x =>
      match x.flit.body with
      | .head h _ =>
        let mine := s.tagIn t b pl o h.fid h.path == .inl (slotTag e)
        if x.out ≠ o || !mine || !x.header || !x.flit.seen.getLsbD o || !s.hasCredit t pl x then .nothing
        else
          let n := flitCount h.type h.len.toNat
          let forced := s.flag (pgRt t) Reg.ROUTER.SLOT_STAT_FORCING && decide (512 < k + n)
          if s.ownedLeft t b pl o k < n || forced then .defers else .offers
      | _ => .nothing
    | none => .nothing

/-- The VC3 flit of input `i` goes ahead of its other flits: an output that has still to decide in the cycle of output `o`
does so for a slot cycle in which the input offers it that flit (R219). -/
def Seg.vc3First (s : Seg) (t pl o i : Nat) : Bool :=
  (List.range 7).any fun a => a != o && !s.hasDecided t pl o a &&
    match s.slotDue t pl a with
    | some tick =>
      let e := s.entryAt t pl a tick
      slotOwned a e && slotIn e == i && s.slotUse t pl a e tick == .offers
    | none => false

/-! ### Offers (R219, R224) -/

/-- The rank of a head at its output: its effective age, or on MGT whether its packet is a control packet and then its wait
(R224). -/
def Seg.rankOf (s : Seg) (t pl i v : Nat) (x : Head) : Nat :=
  if pl = 3 then (if x.fab then 2 ^ 64 else 0) + s.waitOf t pl i v x.out else x.eff.toNat

/-- The offer of an input port to the background in the cycle in which output `o` decides: of its ready heads other than VC3's
that came before this cycle and have no grant to use in it the one of highest rank, a tie to the lower VC; none where the
input has a grant in this cycle or a VC3 flit to offer (R219, R227). -/
def Seg.offer (s : Seg) (t pl o i : Nat) : Option (Nat × Head) :=
  if s.inputBusy t pl o i || s.vc3First t pl o i then none
  else (List.range 6).foldl (fun a v =>
    if v = 3 || s.granted t pl i v then a
    else match s.headOf t pl i v with
      | some x =>
        if x.flit.seen.getLsbD x.out && s.ready t pl i v x then
          match a with
          | some (w, y) => if s.rankOf t pl i w y < s.rankOf t pl i v x then some (v, x) else a
          | none => some (v, x)
        else a
      | none => a) none

/-- The inputs that offer a flit to output `o`. -/
def Seg.offers (s : Seg) (t pl o : Nat) : List (Nat × Nat × Head) :=
  ((List.range 7).filter (· != o)).filterMap fun i =>
    match s.offer t pl o i with
    | some (v, x) => if x.out = o then some (i, v, x) else none
    | none => none

/-! ### Counters (R242, R246) -/

/-- The offset of the counters of requester `i` at output `o`. -/
def reqOff (o i : Nat) : Nat := 0x800 + 0x90 * o + 0x18 * (if i < o then i else i - 1)

/-- One cycle of wait. -/
def Seg.waited (s : Seg) (t pl o i v : Nat) : Seg :=
  (s.setWait t pl i v o (s.waitOf t pl i v o + 1)).countV (pgRt t) pl (reqOff o i + 8) 1

/-- A grant: counted, and the wait it ends is held against the longest. -/
def Seg.noteGrant (s : Seg) (t pl o i v : Nat) : Seg :=
  let s := (s.countV (pgRt t) pl (reqOff o i) 1).countMax (pgRt t) pl (reqOff o i + 16) (s.waitOf t pl i v o)
  s.endWaits t pl i v

/-! ### Crossing (R113, R220, R223) -/

/-- A flit handed on beyond output `o`: to the next router's landing FIFO, the bundle's framer, or the endpoint, whose
packet is complete with its tail. `i` is the input it came from. -/
def Seg.launch (s : Seg) (t pl i : Nat) (p : Port) (second : Bool) (f : Flit) : Seg :=
  match portBridge t p with
  | some br =>
    let tick : BitVec 9 := if f.vc = 3 then (s.tftb t).truncate 9 else 0
    let s := s.modBun br (2 * tileY t + b2n second) fun x =>
      { x with txq := SMap.put [] x.txq (8 * pl + f.vc) (x.waiting pl f.vc ++ [(f, tick)]) }
    s
  | none =>
    match neighbour t p with
    | some nb => s.setLanding nb pl p.facing.code (s.landingOf nb pl p.facing.code ++ [f])
    | none =>
      let l := match p with
        | .l0 => 2 * t
        | .l1 => 2 * t + 1
        | _ => if pl = 3 ∧ attachTiles.contains t then 0x3F0 else 0x200 + (tileBank t).getD 0
      let k := 64 * pl + 8 * (if f.vc = 3 then i else 7) + f.vc + (if l = 0x3F0 then 1024 * (t + 1) else 0)
      let old := SMap.get [] (s.ep l).asm k
      let q := if f.tail && f.trunc && pl == 3 then old.take (old.length - (openEnd old).length) else old ++ [f]
      if f.tail && pl != 3 then
        let mine := fun g : Flit => g.id == f.id
        let left := q.filter (fun g => !mine g)
        let q := q.filter mine
        let s := (s.modEp l fun e => { e with asm := SMap.put [] e.asm k left }).when
          (decide (l < 0x120) && q.any (·.upset == 1)) fun s => s.count (pgNi l) 0x870
        match packetOf (planeOf pl) q with
        | some pk => s.pushIn l pl pk
        | none => s
      else s.modEp l fun e => { e with asm := SMap.put [] e.asm k q }

/-- The flit as it leaves: on its output VC, in the mode its route gave it. -/
def Head.flitOut (x : Head) : Flit := { x.flit with vc := x.vc, ring := x.ring, esc := x.esc, seen := 0 }

/-- LA of the flit `f` that leaves by head `x`: the output of its header at the next router, which every flit of the packet
carries on; none beyond a bundle or at an endpoint (R113). -/
def Seg.lookahead (s : Seg) (t pl : Nat) (x : Head) (f : Flit) : Nat :=
  if !x.header then x.la
  else match (Port.all[x.out]?).bind (neighbour t), f.rhdr with
    | some nb, some h => match s.headerRoute nb pl f.vc f h with | some (some r) => r.out.code | _ => 7
    | _, _ => 7

/-- A header that leaves this output next gets the injector's flipped bits (R446). -/
def Seg.injected (s : Seg) (t pl o : Nat) (x : Head) : Bool :=
  s.ctl.injFlit && x.header && s.rd pgColl Reg.COLL.INJ_SEL_INJ_SRC == srcRt t
    && s.rd pgColl Reg.COLL.INJ_SEL_PLANE == pl && s.rd pgColl Reg.COLL.INJ_SEL_PORT == o

/-- The pair of a header that goes by the row's other bundle is carried there, and leaves it when it goes by its own. -/
def Seg.notePair (s : Seg) (t : Nat) (p : Port) (x : Head) : Seg :=
  match portBridge t p, x.flit.rhdr with
  | some br, some h =>
    let own := h.src.getLsbD 0 != h.dest.getLsbD 0
    let pr := (h.src, h.dest)
    let part := 2 * tileY t + b2n (!own)
    if h.c1 then s
    else s.modBun br part fun y =>
      { y with stay := y.stay.erase pr
               pairs := if x.second = own then y.pairs.erase pr else if y.pairs.contains pr then y.pairs else pr :: y.pairs }
  | _, _ => s

/-- A slot-owned transfer starts with its header, and goes on to its tail (R236, R240). -/
def Seg.noteRun (s : Seg) (t pl i : Nat) (x : Head) : Seg :=
  let start := match x.header, x.flit.body with
    | true, .head h _ =>
      let tag := match s.tagIn t (s.bankFor t (s.tftb t)) pl x.out h.fid h.path with | .inl r => r | .inr _ => 0
      [{ inp := i, id := x.flit.id, tag := tag, left := flitCount h.type h.len.toNat : Run }]
    | _, _ => []
  let mine := fun r : Run => r.inp == i && r.id == x.flit.id
  s.modOut t pl x.out fun y =>
    { y with runs := if x.flit.tail then y.runs.filter (fun r => !mine r)
             else (y.runs ++ start).map fun r => if mine r then { r with left := r.left - 1 } else r }

/-- The head `x` of an input VC crosses the switch. -/
def Seg.crossFlit (s : Seg) (t pl i v : Nat) (x : Head) : Seg :=
  match Port.all[x.out]? with
  | none => s
  | some p =>
    let o := x.out
    let inj := s.injected t pl o x
    let f := if inj then
        { x.flitOut with upset := if s.flag pgColl Reg.COLL.INJ_SEL_DOUBLE then 2 else 1, inj := true }
      else x.flitOut
    let f := { f with la := s.lookahead t pl x f }
    let s := if inj then s.modCtl fun c => { c with injFlit := false } else s
    let s := s.popFlits t pl i v 1
    let s := if (neighbour t p).isSome then s.setCredits t pl o x.vc (s.credits t pl o x.vc - 1) else s
    let s := s.spend (hopEnergy pl i p (x.flit.seen == 0) (neighbour t p).isSome)
    let s := if x.header then s.notePair t p x else s
    let adaptive := x.header && !x.flit.esc && x.esc && (v == 1 || (v == 2 && decide (pl ≤ 1)))
    let s := s.when adaptive fun s => s.count (pgRt t) (0xC10 + 0x40 * pl)
    let s := s.when (x.header && x.ring.isSome && x.ring != x.flit.ring) fun s => s.count (pgRt t) (0xC18 + 0x40 * pl)
    let s := if f.tail then
        (s.endThru t pl i v f.id).when (x.vc != 3) fun s => s.setVcOwner t pl o x.vc 0
      else if x.header then
        (s.setThru t pl i v ⟨o, x.vc, x.second, x.eff, x.epoch, f.id, x.fab, f.la⟩).when (x.vc != 3) fun s =>
          s.setVcOwner t pl o x.vc (1 + 8 * i + v)
      else s
    let s := s.when (x.vc == 3) fun s => s.noteRun t pl i x
    ((s.count (pgRt t) (0xC00 + 0x40 * pl)).noteGrant t pl o i v).launch t pl i p x.second f

/-! ### Heads that cannot go on (R111, R195, R205, R253) -/

/-- A reject notice sent by router `t` under its own current epoch (R253): to a site of its own tile at once, else on MGT,
where it enters at the L0 input; one to a bank is discarded. -/
def Seg.rejectNotice (s : Seg) (t : Nat) (h : RHdr) (pl reason : Nat) : Seg :=
  let l := eidLocal h.src
  if 0x120 ≤ l then s
  else
    let m : MgtHdr := { dest := h.src, src := mkEid s.strap 0x3F0, type := tEvt, fab := true, len := 1,
                        epoch := BitVec.ofNat 4 (s.rd (pgRt t) Reg.ROUTER.RT_EPOCH_CUR) }
    let fs := mgtFlits m.glaze [rejectBits h.fid h.path (pl == 1) (reason == 2)] 0
    if eidSeg h.src = s.strap ∧ l / 2 = t then
      s.modEp l fun e => { e with asm := SMap.put [] e.asm 248 (SMap.get [] e.asm 248 ++ fs) }
    else s.setLanding t 3 4 (s.landingOf t 3 4 ++ fs)

/-- A C1 header on a path the current epoch blocks (R263): a pair it has still to cross is suspended or closed, or the bundle
it meets here is not at full width. -/
def Seg.c1Blocked (s : Seg) (t : Nat) (r : Route) (h : RHdr) : Bool :=
  let m := s.curView t
  let g := s.ringAt t m
  h.c1 && ((pairsAhead g h s.strap).any (fun p => m.susp.getLsbD p || g.pairClosed p) ||
    (match portBridge t r.out with
    | some br =>
      let st := s.bunTx br (2 * tileY t + b2n (h.src.getLsbD 0 != h.dest.getLsbD 0))
      st == 0 || st == 3 || st == 5
    | none => false))

/-- The header's target lies in the region that its way out of this tile meets first, so that this is the last healthy router
of its path (R192). -/
def Seg.targetFenced (s : Seg) (t : Nat) (h : RHdr) : Bool :=
  match s.viewOf t (s.epochHere t h) with
  | none => false
  | some m =>
    match target (s.ringAt t m) m s.strap h with
    | none => false
    | some (tx, ty, _) =>
      match (dimOrder (tileX t) (tileY t) tx ty true).bind (stepXY (tileX t) (tileY t)) with
      | some (a, b) => m.rects.any (fun q => q.has a b && q.has tx ty)
      | none => false

/-- Why the header at the head of an input VC is truncated here: 0 it is not, 1 no exit, 2 what lies beyond is gone,
3 no descriptor, 4 a rejected one. -/
def Seg.stuck (s : Seg) (t pl v : Nat) (f : Flit) (h : RHdr) : Nat :=
  match s.headerRoute t pl v f h with
  | none => 0
  | some none => 1
  | some (some r) =>
    let second := h.src.getLsbD 0 != h.dest.getLsbD 0
    if s.c1Blocked t r h || ((r.ring.isSome || !s.outHealthy t r.out second) && s.targetFenced t h) then 2
    else if !s.outHealthy t r.out second
        && !((portBridge t r.out).isSome && (s.outHealthy t r.out (!second) || s.bunTx ((portBridge t r.out).getD 0)
          (2 * tileY t + b2n second) == 0)) then 2
    else if v = 3 ∧ h.c1 = true ∧ pl ≤ 1 then
      match s.tagFor t pl r.out.code h.fid h.path with
      | .inl _ => 0
      | .inr n => 2 + n
    else 0

/-- Headers at the head of an input VC that cannot go on are truncated, one after another. -/
def Seg.scrubHead (s : Seg) (t pl i v : Nat) : Nat → Seg
  | 0 => s
  | fuel + 1 =>
    match s.vcq t pl i v, s.thru t pl i v with
    | f :: _, none =>
      match f.rhdr with
      | none => Seg.scrubHead (s.popFlits t pl i v 1) t pl i v fuel
      | some h =>
        match s.stuck t pl v f h with
        | 0 => s
        | why =>
          let s := if why = 1 then (s.count (pgRt t) (0xC38 + 0x40 * pl)).evt (pgRt t) 11 (rtSynd i pl v) else s
          let s := if 3 ≤ why then (s.evt (pgRt t) 22 (rtSynd i pl v)).rejectNotice t h pl (why - 2) else s
          Seg.scrubHead (s.truncate t pl i v) t pl i v fuel
    | _, _ => s

/-- The pair that joins this segment to the one before it in the ring router `t` knows. -/
def Seg.pairBefore (s : Seg) (t : Nat) : Nat :=
  let ms := (s.ringAt t (s.curView t)).members
  ms.getD ((ms.idxOf s.strap + ms.length - 1) % ms.length) s.strap

/-- Packets in transfer toward an output that no longer leads anywhere, and C1 copies in transfer to a suspended pair, are
truncated (R205, R263). -/
def Seg.scrubThru (s : Seg) (t pl : Nat) : Seg :=
  let mine := s.inFlow.filter fun e => e.1 / 64 == 4 * t + pl
  s.each mine fun s e =>
    let p := (Port.all[e.2.out]?).getD .k
    let pair := match portBridge t p with | some 0 => [s.strap] | some _ => [s.pairBefore t] | none => []
    let suspended := e.2.vc == 3 && pair.any (fun q => (s.curView t).susp.getLsbD q)
    if !suspended && (s.outHealthy t p e.2.second || ((portBridge t p).isSome && e.2.vc != 3
        && s.bunTx ((portBridge t p).getD 0) (2 * tileY t + b2n e.2.second) == 0)) then s
    else s.truncateId t pl (e.1 / 8 % 8) (e.1 % 8) e.2.id

/-- Everything of plane `pl` at router `t` that the drain engines have to truncate now. -/
def Seg.scrub (s : Seg) (t pl : Nat) : Seg :=
  let s := s.scrubThru t pl
  s.each (List.range 7) fun s i => s.each (List.range 6) fun s v => s.scrubHead t pl i v ((s.vcq t pl i v).length)

/-! ### Arrival (R111, R112, R219, R227) -/

/-- The next flit of an input: from its landing FIFO, or at an edge from a receive buffer of the row's bundles; the answer
is the flit and the state without it. `ok` tells which VCs have room. -/
def Seg.nextFlit (s : Seg) (t pl i : Nat) (ok : Nat → Bool) : Option (Flit × Seg) :=
  match s.landingOf t pl i with
  | f :: q => if ok f.vc then some (f, s.setLanding t pl i q) else none
  | [] =>
    match (Port.all[i]?).bind (portBridge t) with
    | none => none
    | some br =>
      let try_ := fun (b v : Nat) =>
        let x := s.bun br b
        let other := s.bun br (4 * tileY t + 1 - b)
        match x.got pl v with
        | (f, _) :: q =>
          if v = 3 || !ok v || (SMap.get false other.mid (8 * pl + v) && !SMap.get false x.mid (8 * pl + v)) then none
          else
            let x := { x with
              rxbuf := SMap.put [] x.rxbuf (8 * pl + v) q
              freed := SMap.put 0 x.freed (8 * pl + v) ((SMap.get 0 x.freed (8 * pl + v) + 1) % 256)
              mid := SMap.put false x.mid (8 * pl + v) (!f.tail) }
            some (f, s.setBun br b x)
        | [] => none
      (List.range 6).findSome? fun v => (try_ (2 * tileY t) v).or (try_ (2 * tileY t + 1) v)

/-- The coming cycle is a slot cycle of this output whose entry names another input than `i` (R227). -/
def Seg.slotElse (s : Seg) (t pl o i : Nat) : Bool :=
  match (s.out t pl o).slot with
  | some tick => let e := s.entryAt t pl o tick; slotOwned o e && slotIn e != i
  | none => false

/-- The background grant of an output: every STARVE_N-th is a longest-wait grant (R221, R225). -/
def Seg.bgGrant (s : Seg) (t pl o : Nat) : Seg × Bool :=
  let n := (s.out t pl o).bg + 1
  if s.starveN t ≤ n then
    ((s.modOut t pl o fun x => { x with bg := 0 }).countV (pgRt t) 4 (0xB90 + 8 * o) 1, true)
  else (s.modOut t pl o fun x => { x with bg := n }, false)

/-- A flit that has just been written to an empty input crosses at once where R227 lets it. -/
def Seg.bypass (s : Seg) (t pl i v : Nat) : Seg :=
  let alone := (List.range 6).all fun w => (s.vcq t pl i w).length == b2n (w == v)
  match s.headOf t pl i v with
  | some x =>
    if alone && v != 3 && x.vc != 3 && s.flag (pgRt t) Reg.ROUTER.ARB_EXP_BYPASS_EN && (s.out t pl x.out).next.isNone
        && !(s.out t pl x.out).used && !s.slotElse t pl x.out i && s.ready t pl i v x then
      let s := (s.bgGrant t pl x.out).1.modOut t pl x.out fun y => { y with lastWin := i, used := true }
      (s.count (pgRt t) (0xC08 + 0x40 * pl)).crossFlit t pl i v x
    else s
  | none => s

/-- A header passes its glaze check (R111). -/
def Flit.glazeOk (f : Flit) : Bool :=
  match f.body with
  | .head h _ => h.routerOk
  | .mgtHead h => h.glazeOk
  | _ => true

/-- A header flit. -/
def Flit.isHead (f : Flit) : Bool := f.rhdr.isSome

/-- The packet of the flit that has just come to the end of an input VC is truncated: the one in transfer, or one that waits
behind others (R205). -/
def Seg.truncateLast (s : Seg) (t pl i v : Nat) (f : Flit) : Seg :=
  let q := s.vcq t pl i v
  let before := q.dropLast
  let start := if v = 3 then [] else before.take (before.length - (openEnd before).length)
  if v = 3 || start = [] then s.truncateId t pl i v f.id f.inj
  else
    let s := (s.setVcq t pl i v start).freeSlots t pl i v (q.length - start.length)
    (s.when (!f.tail) fun s => s.addDrop t pl i v f.id 0).noteTrunc t pl i v f.inj

/-- A flit taken into an input VC of router `t` with the bit errors `u` (R111–R113, R205): a header whose check fails, or any
flit whose control parity does, has its packet truncated. -/
def Seg.takeFlit (s : Seg) (t pl i : Nat) (f : Flit) (u : Nat) : Seg :=
  let v := f.vc
  match (s.drops t pl i v).find? (fun d => d.1 == f.id && !f.isHead) with
  | some d =>
    let s := s.when (d.2 != 0) fun s => s.modOut t pl (d.2 - 1) fun x => { x with drain := x.drain ++ [none] }
    (s.freeSlots t pl i v 1).when f.tail fun s => s.endDrop t pl i v f.id
  | none =>
    let s := s.endDrop t pl i v f.id
    let s := if u = 1 then
        (s.count (pgRt t) (0xC30 + 0x40 * pl)).when f.isHead fun s => s.evt (pgRt t) 15 (rtSynd i pl v) f.inj
      else s
    if u == 3 || (f.isHead && (u == 2 || !f.glazeOk)) then
      let s := (s.count (pgRt t) (0xC28 + 0x40 * pl)).evt (pgRt t) 8 (rtSynd i pl v) f.inj
      if f.isHead then ((s.freeSlots t pl i v 1).when (!f.tail) fun s => s.addDrop t pl i v f.id 0).noteTrunc t pl i v f.inj
      else
        let s := s.setVcq t pl i v (s.vcq t pl i v ++ [{ f with upset := 0 }])
        s.truncateLast t pl i v f
    else
      let eff := match f.rhdr with | some h => s.effAge t h | none => 0
      let f := { f with upset := 0, inj := false, poison := f.poison || u == 2, eff := eff, seen := 0 }
      let s := s.setVcq t pl i v (s.vcq t pl i v ++ [f])
      (s.scrub t pl).bypass t pl i v

/-- An EVT the collector has queued is put on the MGT plane at the attachment tile (R434). -/
def Seg.sendEvt (s : Seg) (t : Nat) : Seg :=
  match s.ctl.evts with
  | [] => s
  | e :: rest =>
    let m := s.map
    if m.attach ≠ t then s
    else
      let h : MgtHdr := { dest := e.target, src := mkEid s.strap 0x3F1, type := tEvt, len := 2, epoch := s.ctl.epoch }
      (s.modCtl fun c => { c with evts := rest }).setLanding t 3 6 (mgtFlits h.glaze [e.flit0, e.flit1] 0)

/-- FLIT_ARRIVAL (R111, R112, R201, R219, R227, R354, R355): the next flit of an input is taken into its VC buffer, with bit
errors and the phase margin of `look`. -/
def execFlitArrival (g : Fin 4) (tile : Fin 144) (plane : Plane) (port : Port) (look : FlitLook) (s : State) : Result :=
  if !portOk tile plane port then .fault .absentUnit
  else onSeg s g fun s =>
    let t := tile.val
    let pl := plane.code
    let i := port.code
    let s := if port = .k ∧ pl = 3 ∧ (s.landingOf t 3 6).isEmpty = true then s.sendEvt t else s
    if !s.rtRuns t then s
    else
      match s.nextFlit t pl i fun v => decide ((s.vcq t pl i v).length < vcDepth plane v) with
      | some (f, s) =>
        let s := (s.when (s.stTile t == 1) fun s => s.tileWakeReq t 0x828).samplePath t pl i look.margin.toNat
        s.takeFlit t pl i f (max f.upset look.upset.val)
      | none => s

/-! ### Arbitration (R221–R226, R229, R230, R236, R237, R241) -/

/-- A ready VC3 header held back, counted once for each window, which the tick it begins at names (R236). -/
def Seg.slotDefer (s : Seg) (t pl o : Nat) (tick : BitVec 64) : Seg :=
  let w := tick.toNat - s.ownedBefore t pl o (tick.toNat % 512)
  if (s.out t pl o).deferred = some w then s
  else (s.modOut t pl o fun x => { x with deferred := some w }).countV (pgRt t) 4 (0x800 + 0x80 * o + 0x20 * pl) 1

/-- An owned slot cycle lost (R230, R237). -/
def Seg.slotMiss (s : Seg) (t pl o : Nat) : Seg := s.countV (pgRt t) 4 (0x808 + 0x80 * o + 0x20 * pl) 1

/-- The slot step of R221 for the slot cycle of a tick: the input that owns it and offers, with what is counted. -/
def Seg.slotStep (s : Seg) (t pl o : Nat) (tick : BitVec 64) : Seg × Option Nat :=
  let e := s.entryAt t pl o tick
  if slotOwned o e then
    match s.slotUse t pl o e tick with
    | .offers => (s, some (slotIn e))
    | .defers => (s.slotDefer t pl o tick, none)
    | .misses => (s.slotMiss t pl o, none)
    | .nothing => (s, none)
  else (s, none)

/-- Round robin from the input after `last`: the first of the best. -/
def pickBest (last : Nat) (better : Nat × Nat × Head → Nat × Nat × Head → Bool) (l : List (Nat × Nat × Head)) :
    Option (Nat × Nat × Head) :=
  let order := (List.range 7).filterMap fun d => l.find? (fun c => c.1 == (last + 1 + d) % 7)
  order.foldl (fun a c => match a with | some b => if better b c then some c else some b | none => some c) none

/-- The background winner (R224, R225). -/
def Seg.bgWinner (s : Seg) (t pl o : Nat) (longest : Bool) (l : List (Nat × Nat × Head)) : Option (Nat × Nat × Head) :=
  let w := fun (c : Nat × Nat × Head) => s.waitOf t pl c.1 c.2.1 o
  let rank := fun (c : Nat × Nat × Head) => s.rankOf t pl c.1 c.2.1 c.2.2
  pickBest (s.out t pl o).lastWin (fun a b => if longest then decide (w a < w b) else decide (rank a < rank b)) l

/-- A forced tail (R205), on VC3 of the copy it ends. -/
def forcedTail (pl v id : Nat) : Flit :=
  { body := if pl = 3 then .mgtData 0 else .data 0, vc := v, tail := true, trunc := true, id := id }

/-- The drain engine's cycle (R205, R230): a forced tail crosses, which frees its output VC, or the cycle of a discarded flit
passes. -/
def Seg.drainCross (s : Seg) (t pl : Nat) (p : Port) : Seg :=
  let o := p.code
  match (s.out t pl o).drain with
  | [] => s
  | none :: rest => s.modOut t pl o fun x => { x with drain := rest }
  | some (iv, second, id) :: rest =>
    let v := iv % 8
    let s := s.modOut t pl o fun x => { x with drain := rest }
    let s := s.when (v != 3) fun s => s.setVcOwner t pl o v 0
    let s := s.when (neighbour t p).isSome fun s => s.setCredits t pl o v (s.credits t pl o v - 1)
    s.launch t pl (iv / 8) p second (forcedTail pl v id)

/-- The granted head of an input VC crosses, where it can still go; one that cannot is withdrawn. -/
def Seg.crossHead (s : Seg) (t pl o i v : Nat) : Seg :=
  match s.headOf t pl i v true with
  | some x =>
    if x.out = o && s.ready t pl i v x then s.crossFlit t pl i v x
    else s.countV (pgRt t) 4 (0x818 + 0x80 * o + 0x20 * pl) 1
  | none => s.countV (pgRt t) 4 (0x818 + 0x80 * o + 0x20 * pl) 1

/-- The cycle that has come: what was decided for it crosses. A VC3 flit crosses only in the slot cycle of its tick, while the
active table's entry still names its input (R222); a grant that can no longer be used counts in CNT_SLOT_MISS (DESIGN CHOICE,
log 115). -/
def Seg.crossGrant (s : Seg) (t pl : Nat) (p : Port) : Seg :=
  let o := p.code
  let g := (s.out t pl o).next
  let s := s.modOut t pl o fun x => { x with next := none, used := false, slot := none }
  match g with
  | none | some .empty => s
  | some .drain => s.drainCross t pl p
  | some (.bg i v) => s.crossHead t pl o i v
  | some (.slot i tick) =>
    let e := s.entryAt t pl o tick
    if s.tftb t = tick && slotOwned o e && slotIn e == i then s.crossHead t pl o i 3 else s.slotMiss t pl o

/-- The drain engine takes the next cycle (R229, R230, R242, R245): what it takes it from is counted, an owned slot cycle as
missed. -/
def Seg.drainGrant (s : Seg) (t pl o : Nat) (due : Option (BitVec 64)) : Seg :=
  let e := match due with | some tick => s.entryAt t pl o tick | none => 7
  let owned := slotOwned o e
  let offering := match due with | some tick => owned && s.slotUse t pl o e tick == .offers | none => false
  let l := s.offers t pl o
  let s := s.when owned fun s => (s.slotMiss t pl o).evt (pgRt t) 18 (rtSynd o pl 3)
  let s := s.when offering fun s => s.waited t pl o (slotIn e) 3
  let s := s.when (offering || !l.isEmpty) fun s => s.countV (pgRt t) 4 (0x810 + 0x80 * o + 0x20 * pl) 1
  let s := s.each l fun s c => s.waited t pl o c.1 c.2.1
  s.modOut t pl o fun x => { x with next := some .drain }

/-- The decision of an output for its next cycle (R221): the drain engine, the owner of its slot cycle, or the background.
Every flit offered to it and not granted waits (R225). -/
def Seg.arbitrate (s : Seg) (t pl : Nat) (p : Port) : Seg :=
  let o := p.code
  let due := s.slotDue t pl o
  let phase := s.phaseOf t pl o
  let s := s.modOut t pl o fun x =>
    { x with at_ := some (s.tftb t), phase := phase, slot := due, tick := due.or x.tick }
  if !(s.out t pl o).drain.isEmpty then s.drainGrant t pl o due
  else
    let (s, owner) := match due with | some tick => s.slotStep t pl o tick | none => (s, none)
    match owner, due with
    | some i, some tick =>
      let s := s.modOut t pl o fun x => { x with next := some (.slot i tick) }
      s.each (s.offers t pl o) fun s c => s.waited t pl o c.1 c.2.1
    | _, _ =>
      let l := s.offers t pl o
      if l = [] then s
      else
        let (s, longest) := s.bgGrant t pl o
        match s.bgWinner t pl o longest l with
        | none => s
        | some (i, v, _) =>
          let s := s.each (l.filter (fun c => c.1 != i)) fun s c => s.waited t pl o c.1 c.2.1
          s.modOut t pl o fun x => { x with next := some (.bg i v), lastWin := i }

/-- Output `o` has decided a cycle: every flit that waits in the router's buffers of the plane has been there in it (R227). -/
def Seg.noteSeen (s : Seg) (t pl o : Nat) : Seg :=
  { s with vcbuf := s.vcbuf.map fun e =>
      if e.1 / 64 = 4 * t + pl then (e.1, e.2.map fun f => { f with seen := f.seen ||| BitVec.ofNat 7 (2 ^ o) }) else e }

/-- The slot cycle of a decided grant has not begun: its tick has not come. -/
def Seg.slotAhead (s : Seg) (t pl o : Nat) : Bool :=
  match (s.out t pl o).next with
  | some (.slot _ tick) => s.tftb t + 1 == tick
  | _ => false

/-- A flit that waits for a sleeping neighbour wakes it (R368). -/
def Seg.wakeNeighbour (s : Seg) (t pl : Nat) (p : Port) : Seg :=
  match neighbour t p with
  | none => s
  | some nb =>
    let waiting := (List.range 7).any fun i => (List.range 6).any fun v =>
      match s.headOf t pl i v with | some x => x.out == p.code | none => false
    if s.linkSleeps nb && waiting then s.tileWakeReq nb 0x828 else s

/-- OUTPUT_ARBITRATION (R205, R221–R225, R230, R236, R237, R360): one router cycle of an output. What was decided for it crosses,
and the next cycle is decided; a cycle that waits for its slot tick has not begun. -/
def execOutputArbitration (g : Fin 4) (tile : Fin 144) (plane : Plane) (look : OutputLook) (s : State) : Result :=
  if !portOk tile plane look.out then .fault .absentUnit
  else onSeg s g fun s =>
    let t := tile.val
    let pl := plane.code
    let out := look.out
    if !s.rtRuns t then s
    else
      let s := ((s.acceptCredits t pl out look.lost).scrub t pl).wakeNeighbour t pl out
      if s.slotAhead t pl out.code then s else ((s.crossGrant t pl out).arbitrate t pl out).noteSeen t pl out.code

/-- The VC a header would take in the escape mode has room at its output (R189): a credit toward a neighbour or a bundle;
an endpoint always has. Where the dimension-order output is fenced, that is the ring VC it would enter (DESIGN CHOICE,
log 91). -/
def Seg.escapeRoom (s : Seg) (t pl : Nat) (h : RHdr) (r : Route) : Bool :=
  match portBridge t r.out with
  | some br =>
    let b := 2 * tileY t + b2n ((s.bundleFor t br h).getD false)
    decide (((s.bun br b).waiting pl r.vc).length < (s.bun br b).credit pl r.vc)
  | none => (neighbour t r.out).isNone || decide (0 < s.credits t pl r.out.code r.vc)

/-- ESCAPE_SWITCH (R189): an adaptive header that has waited long enough escapes where VC0 of its dimension-order output
has room. -/
def execEscapeSwitch (g : Fin 4) (tile : Fin 144) (plane : Plane) (port : Port) (vc : Fin 6) (s : State) : Result :=
  if !portOk tile plane port then .fault .absentUnit
  else onSeg s g fun s =>
    let t := tile.val
    let pl := plane.code
    let i := port.code
    match s.vcq t pl i vc, s.thru t pl i vc with
    | f :: q, none =>
      match f.rhdr with
      | some h =>
        let f' := { f with esc := true }
        match s.headerRoute t pl vc f' h with
        | some (some r) =>
          if s.rtRuns t && !f.esc && s.adaptOk t h && !h.c1 && !s.granted t pl i vc && s.escapeRoom t pl h r then
            (s.setVcq t pl i vc (f' :: q)).count (pgRt t) (0xC10 + 0x40 * pl)
          else s
        | _ => s
      | none => s
    | _, _ => s

/-- Every packet of an input VC truncated. -/
def Seg.truncateAll (s : Seg) (t pl i v : Nat) : Nat → Seg
  | 0 => s
  | fuel + 1 =>
    if (s.vcq t pl i v).isEmpty && (s.thru t pl i v).isNone then s
    else Seg.truncateAll (s.truncate t pl i v) t pl i v fuel

/-- What stands before the agent of site `n` on a plane, and the packet concerned: the arrivals its NI has not taken, or the
beats its agent has not. -/
def Seg.ejectWaits (s : Seg) (n : Nat) (plane : Plane) : Option (BitVec 12) :=
  let x := s.ni n
  let ofBeat := fun l : List Beat => (l.findSome? (fun b => b.deliv.map (·.1))).or (l.head?.map (fun _ => s.eid n))
  match plane with
  | .mgt => ((s.mgtArrived n false).bind (fun (_, fs, _) => (fs.head?.bind Flit.rhdr).map (·.src))).or
      (x.mgOut.head?.map fun _ => s.eid n)
  | .snp => ((SMap.get [] (s.ep n).inq 2).head?.map (·.hdr.src)).or (ofBeat x.sn)
  | p => ((SMap.get [] (s.ep n).inq p.code).head?.map (·.hdr.src)).or (ofBeat x.rs)

/-- The watchdog of an NI's ejection port trips (R212, R416, R421): EJECT_STALL at the NI's source, with the plane, the
port and the other EID of the packet concerned. -/
def Seg.ejectStall (s : Seg) (n : Nat) (plane : Plane) : Seg :=
  match s.ejectWaits n plane with
  | some e => if s.niRuns n then
      s.raise (srcNi n) 0x83 (BitVec.ofNat 32 (e.toNat + plane.code * 2 ^ 12 + n % 2 * 2 ^ 14))
    else s
  | none => s

/-- ESCAPE_WATCHDOG (R212): the packets of a VC0, VC4 or VC5 that has not moved for 100 µs are truncated; with `spot.ni` the
ejection port of the NI behind L0 or L1 has made no progress for as long, and its trip is reported. -/
def execEscapeWatchdog (g : Fin 4) (tile : Fin 144) (plane : Plane) (port : Port) (spot : Watched) (s : State) : Result :=
  if !portOk tile plane port then .fault .absentUnit
  else onSeg s g fun s =>
    let t := tile.val
    let pl := plane.code
    let i := port.code
    let vc := spot.vc
    let q := s.vcq t pl i vc
    if spot.ni then (if port = .l0 ∨ port = .l1 then s.ejectStall (2 * t + (i - 4)) plane else s)
    else if q = [] ∨ (vc ≠ 0 ∧ vc ≠ 4 ∧ vc ≠ 5) ∨ s.rtRuns t = false then s
    else (((s.truncateAll t pl i vc (q.length + 1)).count (pgRt t) 0xD00).evt (pgRt t) 10 (rtSynd i pl vc)).scrub t pl

end Sys2Proof.Machine
end

