-- ==== Sys2Proof/Machine/Transactions.lean ====
section
/-!
DEFINITION. Injection, arrival at an endpoint, completions, timers and fences of the NIs (R136–R142, R149, R154–R168,
R177, R192, R208, R254, R263–R267, R318).
-/
namespace Sys2Proof.Machine

/-! ### What keeps a packet back (R136, R208, R263–R267) -/

/-- The plane an entry is sent on (R107). -/
def Entry.plane (e : Entry) : Plane :=
  if e.hdr.type == tCpl then .rsp
  else if e.hdr.type == tSnoop || e.hdr.type == tBackInval || e.hdr.type == tSnpRsp then .snp else .req

/-- The send state an entry's packet belongs to. -/
def Seg.sendFor (s : Seg) (n : Nat) (e : Entry) : Send := (s.ep n).sendOf e.hdr.dest e.plane.code

/-- A C1 flow of the site to this destination and plane is demoted: this one, or another that R266 treats the same way. -/
def Seg.flowDemoted (s : Seg) (n : Nat) (e : Entry) : Bool :=
  let rsp := e.plane == .rsp
  s.demoted n e.hdr.fid rsp || (s.ni n).demDests.contains (e.hdr.dest, rsp)
    || (!rsp && (s.ni n).bind.any (fun b =>
        b.2.getLsbD 0 && bindClassOf b.2 == 1 && bindDest b.2 == e.hdr.dest && s.demoted n (bindFid b.2) false))
    || (rsp && (s.ni n).store.any (fun f =>
        f.answer && f.bindClass == 1 && f.hdr.dest == e.hdr.dest && s.demoted n f.hdr.fid true))

/-- The tiles a C1 copy meets in this segment after its source tile. -/
def c1Tiles (r : Ring) (m : FenceMap) (g : Nat) (h : RHdr) (t : Nat) : Nat → List Nat
  | 0 => []
  | fuel + 1 =>
    match target r m g h with
    | none => []
    | some (tx, ty, _) =>
      if tileX t = tx ∧ tileY t = ty then []
      else match (c1Port h g (tileX t) (tileY t) tx ty).bind (neighbour t) with
        | some u => u :: c1Tiles r m g h u fuel
        | none => []

/-- The endpoint a packet of entry `e` goes to now: after failover ALT (R145). -/
def Seg.goesTo (s : Seg) (n : Nat) (e : Entry) : BitVec 12 := if e.altEn && s.homeFenced n e.hdr.dest then e.alt else e.hdr.dest

/-- The routing view of a C1 copy of entry `e`. -/
def Seg.c1View (s : Seg) (n : Nat) (e : Entry) (path : Bool) : RHdr :=
  ⟨s.goesTo n e, s.eid n, e.hdr.type, s.unitEpoch n, true, path, 1, 0, e.hdr.fid, false, false⟩

/-- A copy is blocked (R263): its path meets a region, or on a pair it crosses its bundle is not at full width or C1 is
suspended. -/
def Seg.copyBlocked (s : Seg) (n : Nat) (e : Entry) (path : Bool) : Bool :=
  let m := s.mapOf (s.unitEpoch n)
  let r := s.niRing n
  let h := s.c1View n e path
  let inside := (c1Tiles r m s.strap h (n / 2) 32).any m.tile
  let a := s.strap
  let b := eidSeg (s.goesTo n e)
  if a = b then inside
  else match bridgeFor r h a with
    | none => true
    | some d =>
      let pairs := if d = 0 then cwPairs r a b else ccwPairs r a b
      let row := bridgeRow r m.rows0 m.rows1 h d
      let bun := 2 * row + b2n (h.src.getLsbD 0 != h.dest.getLsbD 0)
      let beyond := (pathOf r a b d).any fun g =>
        let f := r.regionMap g
        let t := tileOf (if d = 0 then 0 else 11) row
        (t :: c1Tiles r f g h t 32).any f.tile
      inside || beyond || pairs.any (fun p => m.susp.getLsbD p || r.pairClosed p || !r.full.getLsbD (48 * p + 2 * bun + d))

/-- Entry `e` is sent as two C1 copies now (R138, R264, R266, R318). -/
def Seg.goesC1 (s : Seg) (n : Nat) (e : Entry) : Bool :=
  e.hdr.cls == 1 && e.plane != .snp && !(eidSeg e.hdr.dest == s.strap && directPair n (eidLocal e.hdr.dest))
    && !s.flowDemoted n e && !(s.copyBlocked n e false && s.copyBlocked n e true)

/-- The sequence toward the destination lets one more packet go: R267, R136, and the window of R134. -/
def Seg.seqReady (s : Seg) (n : Nat) (e : Entry) : Bool :=
  (s.sendFor n e).ready (s.goesC1 n e) (s.unitEpoch n)

/-- Response slots of 128 B in use (R208). -/
def Ni.slotsUsed (x : Ni) : Nat := (x.store.filter (fun e => !e.dead)).foldl (fun a e => a + e.slots) 0

/-- Neither `e` nor an earlier eligible request lacks response space. -/
def Ni.hasSpace (x : Ni) (e : Entry) : Bool :=
  let mine := x.before e ++ [e]
  mine.all fun f => !(f.access && f.phase == .eligible) || decide (x.slotsUsed + rspSlots f.hdr.type f.hdr.len.toNat ≤ 256)

/-- Space for the response of a snoop: 64 slots of 32 B, two for each SNOOP. -/
def Ni.snoopSpace (x : Ni) (e : Entry) : Bool :=
  e.hdr.type != tSnoop || decide ((x.store.filter (fun f => f.hdr.type == tSnoop && f.injected && !f.dead)).length < 32)

/-- Entry `e` may be injected, or forwarded, now (R156, R158, R159, R165, R208). -/
def Seg.canInject (s : Seg) (n : Nat) (pl : Plane) (e : Entry) : Bool :=
  let x := s.ni n
  let gone := fun f : Entry => f.injected || f.phase == .copies
  e.phase == .eligible && e.plane == pl && s.seqReady n e && x.snoopSpace e
    && (!e.access || (!x.hold && s.mayGo n gone e && s.pastFences n e && x.hasSpace e
      && (!s.overlapWaits n e || (s.forwardFrom n e).isSome)))

/-- The effective age of an eligible packet at its NI (R224): since it became eligible, with its class's bonus. -/
def Seg.waitAge (s : Seg) (n : Nat) (e : Entry) : Nat :=
  (ageOf (s.unitTime n - e.since) + BitVec.ofNat 16 (s.rd (pgRt (n / 2)) (Reg.ROUTER.CLASS_MAP_BONUS.at e.hdr.cls.toNat))).toNat

/-- The packet that goes next on a plane: C1 ahead, then the highest effective age, a tie to the older. -/
def Seg.nextEntry (s : Seg) (n : Nat) (pl : Plane) : Option Entry :=
  let rank := fun e : Entry => (if e.hdr.cls = 1 then 65536 else 0) + s.waitAge n e
  ((s.ni n).store.filter (s.canInject n pl)).foldl (fun a e => match a with
    | some f => if rank f < rank e then some e else some f
    | none => some e) none

/-! ### Sending one entry -/

/-- A request to a target that is fenced, dormant or across a split, without a way through a twin (R192). -/
def Seg.refuseTarget (s : Seg) (n : Nat) (e : Entry) : Seg :=
  if e.plane = .snp then
    ((s.modNi n fun x => (x.landed e.bind).drop e.id).count (pgNi n) 0x850).snpAnswer n e.hdr.tag cDecerr
  else if isPosted e.hdr.type then
    (((s.count (pgNi n) 0x818).noteLost n e.hdr).completePosted n e cRetrylost).evt (pgNi n) 9
      (BitVec.ofNat 32 e.hdr.dest.toNat)
  else s.complete n e cDecerr

/-- The reservation record of the site replaced or cleared (R168). -/
def Seg.setRecord (s : Seg) (n : Nat) (r : Option (BitVec 12 × BitVec 64)) : Seg :=
  let p := pgNi n
  match r with
  | some (d, a) =>
    ((s.wr p Reg.NI.NI_RES_STAT_VALID 1).wr p Reg.NI.NI_RES_STAT_DEST d.toNat).setWord64 p 0x20C (a &&& ~~~63)
  | none => s.wr p Reg.NI.NI_RES_STAT_VALID 0

/-- The record matches an STCOND: the same endpoint as the LDRES named, home or twin, exactly (DESIGN CHOICE, log 113), and the
granule. -/
def Seg.recordMatches (s : Seg) (n : Nat) (h : Hdr) : Bool :=
  let p := pgNi n
  s.flag p Reg.NI.NI_RES_STAT_VALID && s.rd p Reg.NI.NI_RES_STAT_DEST == h.dest.toNat
    && (s.word64 p 0x20C).toNat / 64 == h.addr.toNat / 64

/-- The ALT of an entry. -/
def Entry.altDest (e : Entry) : Option (BitVec 12) := if e.altEn then some e.alt else none

/-- The packet of an entry numbered and injected, or where it is C1 made ready for the release of its copies (R132, R138,
R145, R254, R264). -/
def Seg.sendEntry (s : Seg) (n : Nat) (e : Entry) : Seg :=
  let c1 := s.goesC1 n e
  let fell := e.hdr.cls == 1 && !c1
  let e := if fell then { e with hdr := { e.hdr with cls := 2 } } else e
  let fresh := (s.sendFor n e).c1 != some false
  let direct := eidSeg e.hdr.dest == s.strap && directPair n (eidLocal e.hdr.dest)
  let s := s.when (fell && fresh && !direct) fun s => s.evt (pgRt (n / 2)) 23
  let (s, q) := s.number n e.hdr.dest (e.packet e.plane) (some e.id) e.altDest
  let s := s.count (pgNi n) 0x800
  let s := s.when (fell && s.demoted n e.hdr.fid (e.plane == .rsp)) fun s => s.noteDemDest n e.hdr.dest (e.plane == .rsp)
  let s := s.when (c1 && e.plane == .rsp) fun s => s.modNi n fun x =>
    { x with rspDests := x.rspDests.filter (· != (e.hdr.fid, e.hdr.dest)) ++ [(e.hdr.fid, e.hdr.dest)] }
  let s := s.when (e.access && s.relaxed n e) fun s => s.count (pgNi n) 0xA08
  let s := if e.hdr.type = tLdres then (s.setRecord n (some (e.hdr.dest, e.hdr.addr))).count (pgNi n) 0xA30 else s
  let s := s.modEntry n e.id fun f =>
    { f with hdr := { f.hdr with cls := e.hdr.cls }, phase := if c1 then .copies else .sent, path0 := false, path1 := false
             slots := rspSlots f.hdr.type f.hdr.len.toNat, since := s.unitTime n }
  if c1 then s else s.injectPkt n (s.injectVc n q.plane q.hdr) q

/-- The destination of an entry is out of reach and no twin serves instead. -/
def Seg.noTarget (s : Seg) (n : Nat) (e : Entry) : Bool :=
  !e.answer && s.fencedFor n e.hdr.dest && !(e.altEn && s.homeFenced n e.hdr.dest && !s.fencedFor n e.alt)

/-- One entry's turn: forwarding, the check of an STCOND, a fenced target, or the injection. -/
def Seg.takeTurn (s : Seg) (n : Nat) (e : Entry) : Seg :=
  if e.access && s.overlapWaits n e then
    match s.forwardFrom n e with
    | some f => s.forward n e f
    | none => s
  else
    let fits := e.hdr.type != tStcond || s.recordMatches n e.hdr
    let s := if e.hdr.type = tStcond then s.setRecord n none else s
    if !fits then ((s.complete n e cStfail).count (pgNi n) 0xA40).count (pgNi n) 0xA48
    else if s.noTarget n e then s.refuseTarget n e
    else s.sendEntry n e

/-- REQUEST_INJECT (R136, R156–R159, R165, R168, R192, R208, R264, R266, R267, R318): the next packet of a plane goes. -/
def execRequestInject (g : Fin 4) (site : Fin 288) (plane : Plane) (s : State) : Result :=
  onSeg s g fun s =>
    let n := site.val
    if !s.niRuns n then s
    else
      let s := s.noteWaits n
      match s.nextEntry n plane with
      | some e => s.takeTurn n e
      | none => s

/-! ### C1 copies (R138, R254, R263, R264) -/

/-- The packet of an entry of which a copy has still to go: unacknowledged, or kept for its second copy. -/
def Seg.sentAs (s : Seg) (n : Nat) (e : Entry) : Option Packet :=
  (((s.sendFor n e).unacked.find? (fun u => u.entry == some e.id)).map (·.pkt)).or
    (((s.ni n).late.find? (fun l => l.1.id == e.id)).map (·.2))

/-- The output of the site's own router that a copy takes first. -/
def Seg.firstHop (s : Seg) (n : Nat) (e : Entry) (path : Bool) : Option Nat :=
  let m := s.mapOf (s.unitEpoch n)
  let t := n / 2
  (routeOf (s.niRing n) m s.strap (tileX t) (tileY t) e.plane (s.c1View n e path) 3 false none false (fun _ _ => 0)).map
    (fun r => r.out.code)

/-- Ticks to the first window of RTAG `tag` that begins from now on and covers `len` flits; 512 where none does. -/
def Seg.startIn (s : Seg) (t pl o tag len : Nat) : Nat :=
  let now := (s.tftb t).toNat % 512
  ((List.range 512).find? fun d =>
    let k := (now + d) % 512
    let e := s.slotEntry t (s.slotActive t) pl o k
    slotOwned o e && slotTag e == tag && s.ownedBefore t pl o k == 0 && decide (len ≤ s.ownedLeft t (s.slotActive t) pl o k)).getD 512

/-- When the copy of `e` on a path can start: its ticks; 0 where it needs no window because it is not injected. -/
def Seg.copyStart (s : Seg) (n : Nat) (e : Entry) (path : Bool) : Nat :=
  match s.firstHop n e path with
  | none => 0
  | some o =>
    match s.tagFor (n / 2) e.plane.code o e.hdr.fid path with
    | .inl tag => if s.copyBlocked n e path then 0
        else s.startIn (n / 2) e.plane.code o tag (flitCount e.hdr.type e.hdr.len.toNat)
    | .inr _ => 0

/-- The copy of `e` on a path is done with. -/
def Seg.copyDone (s : Seg) (n : Nat) (e : Entry) (path : Bool) : Seg :=
  (s.modNi n fun x => { x with late := x.late.filter (fun l => l.1.id != e.id) }).modEntry n e.id fun f =>
    if f.phase != .copies then f
    else
      let f := if path then { f with path1 := true } else { f with path0 := true }
      if f.path0 && f.path1 then { f with phase := .sent } else f

/-- A C1 packet none of whose copies has gone is sent once, as C2 (R264, R266), after every earlier one is acknowledged
(R267). -/
def Seg.copyAsC2 (s : Seg) (n : Nat) (e : Entry) (p : Packet) : Seg :=
  let st := s.sendFor n e
  if st.unacked.head?.map (·.entry) != some (some e.id) then s
  else
    let q := { p with hdr := { p.hdr with cls := 2, path := false } }
    let s := s.modEp n fun x => x.setSend e.hdr.dest e.plane.code
      { st with c1 := some false, unacked := st.unacked.map fun u => if u.entry = some e.id then { u with pkt := q } else u }
    let s := s.modEntry n e.id fun f => { f with phase := .sent, hdr := { f.hdr with cls := 2 } }
    (s.evt (pgRt (n / 2)) 23).injectPkt n (s.injectVc n q.plane q.hdr) q

/-- The turn of a C1 packet has come: a copy of it has gone, no change of class stands before it, or every earlier packet
is acknowledged (R267). -/
def Seg.copyTurn (s : Seg) (n : Nat) (e : Entry) : Bool :=
  let st := s.sendFor n e
  e.path0 || e.path1 || (s.goesC1 n e && st.c1 != some false) || st.unacked.head?.map (·.entry) == some (some e.id)

/-- The copy on a path that starts first among those whose turn has come, with its ticks to the start (R254). -/
def Seg.firstCopy (s : Seg) (n : Nat) (path : Bool) : Option (Nat × Entry) :=
  let wait := ((s.ni n).store ++ (s.ni n).late.map (·.1)).filter fun e =>
    e.phase == .copies && !(if path then e.path1 else e.path0) && s.copyTurn n e
  wait.foldl (fun (a : Option (Nat × Entry)) e =>
    let k := s.copyStart n e path
    match a with
    | some (j, f) => if k < j then some (k, e) else some (j, f)
    | none => some (k, e)) none

/-- C1_COPY_RELEASE (R138, R253, R254, R263, R264, R266, R267): the copy that starts first goes into VC3, while none on the
other path starts earlier. -/
def execC1CopyRelease (g : Fin 4) (site : Fin 288) (path : Bool) (s : State) : Result :=
  onSeg s g fun s =>
    let n := site.val
    let other := match s.firstCopy n (!path) with | some (j, _) => j | none => 512
    match s.firstCopy n path with
    | none => s
    | some (k, e) =>
      match s.sentAs n e with
      | none => s
      | some p =>
        if !s.niRuns n || k == 512 || decide (other < k) then s
        else if !e.path0 && !e.path1 && !s.goesC1 n e then s.copyAsC2 n e p
        else if s.copyBlocked n e path then s.copyDone n e path
        else match s.firstHop n e path with
          | none => s.copyDone n e path
          | some o =>
            match s.tagFor (n / 2) e.plane.code o e.hdr.fid path with
            | .inr reason => (s.demote n e.hdr.fid (e.plane == .rsp) reason).when (e.path0 || e.path1) fun s => s.copyDone n e path
            | .inl _ =>
              let s := s.when ((s.ni n).store.any (fun f => f.id == e.id)) fun s =>
                s.modEp n fun x => x.setSend e.hdr.dest e.plane.code { s.sendFor n e with c1 := some true }
              (s.injectPkt n 3 { p with hdr := { p.hdr with path := path } }).copyDone n e path

/-! ### Fences (R165, R166) -/

/-- FENCE_CPL_SEND: every earlier access is complete, so the fence is answered, while UP is 1 (R73); what its CPL reports stays
with it until it is sent. -/
def execFenceCplSend (g : Fin 4) (site : Fin 288) (s : State) : Result :=
  onSeg s g fun s =>
    let n := site.val
    let x := s.ni n
    match x.store.find? (fun e => e.phase == .fence) with
    | none => s
    | some e =>
      if x.resetting || !x.up || (s.earlier n e).any Entry.access then s
      else
        let code := if x.fenceLost then cRetrylost else if x.fenceRefused then cDenied else cOk
        let b := { cplBeat (s.eid n) (s.eid n) e.hdr.tag code with lost := x.fenceLost, refused := x.fenceRefused }
        let s := s.modNi n fun x => { x.drop e.id with fenceLost := false, fenceRefused := false, rs := x.rs ++ [b] }
        let s := (s.when (code == cDenied) fun s => s.count (pgNi n) 0x858).count (pgNi n) 0xA20
        if code = cOk then s else (s.count (pgNi n) 0xA28).evt (pgNi n) 18

/-! ### Arrival (R111, R137, R139, R210, R535) -/

/-- The first packet of a plane that waits at a unit and satisfies `f`, taken out of its queue. -/
def Seg.popIn (s : Seg) (l pl : Nat) (f : Packet → Bool) : Option (Packet × Seg) :=
  let q := SMap.get [] (s.ep l).inq pl
  (q.find? f).map fun p => (p, s.modEp l fun e => { e with inq := SMap.put [] e.inq pl (q.erase p) })

/-- An MGT message that has reached site `n` (R69, R111–R114, R142, R210): it goes to the MG output, its POISON set where a
payload flit has two wrong bits; a CPL that answers nothing is only counted. A REGACC that an agent has addressed
to a site goes nowhere, and completes at its requester under R142 (R18). -/
def Seg.takeMgt (s : Seg) (n : Nat) (fs : List Flit) (double : List (Fin 8)) (cpar : Bool) : Seg :=
  match fs with
  | { body := .mgtHead h, upset := u, inj := i, .. } :: rest =>
    let bad := u == 2 || double.contains 0 || cpar || fs.any (·.upset == 3)
    let spoilt := rest.any (·.poison) || double.any (fun d => 0 < d.val && d.val ≤ rest.length)
    let h := { h with poison := h.poison || spoilt }
    let out := fun (s : Seg) => s.modNi n fun x => { x with mgOut := x.mgOut ++ mgBeats h (wordsOf fs) }
    if bad ∨ h.glazeOk = false then (s.count (pgNi n) 0x868).evt (pgNi n) 11 (BitVec.ofNat 32 (h.src.toNat + 4096 * 3)) i
    else if h.type = tCpl then
      if (s.ni n).regacc = some h.tag then out (s.modNi n fun x => { x with regacc := none })
      else s.count (pgNi n) 0x828
    else if h.type = tRegacc then s
    else out s
  | _ => s

/-- The single-bit errors the ECC of an NI corrects in a packet of `n` flits, counted (R112). -/
def Seg.noteSingle (s : Seg) (l n : Nat) (single : List (Fin 8)) : Seg :=
  let k := (single.eraseDups.filter (fun i => decide (i.val < n))).length
  s.when (decide (l < 0x120) && 0 < k) fun s => s.countBy (pgNi l) 0x870 k

/-- PACKET_ARRIVAL_EGRESS: the next packet, not an acknowledgement, that waits at endpoint `ep` on a plane is decided, with
the bit errors its flits show there (R112, R113). On MGT the controller's own arrivals other than REGACC end here: only a
target register of the collector that names no site can have sent one there (R434). -/
def execPacketArrivalEgress (g : Fin 4) (ep : Fin 1024) (look : EgressLook) (s : State) : Result :=
  if !localOk ep then .fault .absentUnit
  else onSeg s g fun s =>
    let l := ep.val
    let plane := look.plane
    if plane = .mgt then
      match s.mgtArrived l false with
      | none => s
      | some (k, fs, rest) =>
        if l < 0x120 then if s.niRuns l then ((s.mgtTaken l k rest).noteSingle l fs.length look.single).takeMgt l fs look.double look.cpar
          else s
        else if l = 0x3F0 ∧ (fs.head?.bind Flit.rhdr).map (·.type) = some tRegacc then s
        else s.mgtTaken l k rest
    else if !epOk l || !s.epRuns l then s
    else match s.popIn l plane.code (fun p => !p.hdr.ack) with
      | some (p, s) => (s.noteSingle l (1 + p.data.length) look.single).arrive l (p.upset look.double look.cpar)
      | none => s

/-- ACK_DELAY_EXPIRY (R133, R134). -/
def execAckDelayExpiry (g : Fin 4) (ep : Fin 1024) (src : BitVec 12) (plane : Plane) (s : State) : Result :=
  if !epOk ep then .fault .absentUnit
  else onSeg s g fun s =>
    let l := ep.val
    if !s.epRuns l then s
    else s.each [plane.code, plane.code + twinKey] fun s k =>
      if 0 < ((s.ep l).recvOf src k).owed then s.ackNow l src k else s

/-- ACK_RECEIVE (R111–R113, R133, R140, R536): the first acknowledgement that has arrived is taken, with the bit errors its
one flit shows there. -/
def execAckReceive (g : Fin 4) (look : AckLook) (s : State) : Result :=
  if !epOk look.ep then .fault .absentUnit
  else onSeg s g fun s =>
    let l := look.ep.val
    if !s.epRuns l then s
    else
      let got := (s.popIn l 1 (fun p => p.hdr.ack)).or (s.popIn l 2 (fun p => p.hdr.ack))
      match got with
      | some (p, s) =>
        let p := { p with hdrErr := p.hdrErr || decide (2 ≤ look.upset.val) }
        let s := s.when (look.upset == 1 && decide (l < 0x120)) fun s => s.count (pgNi l) 0x870
        if p.hdrErr || !p.hdr.glazeOk then s.arrive l p else s.takeAck l p.hdr
      | none => s

/-- RETRY_TIMEOUT (R140, R141). -/
def execRetryTimeout (g : Fin 4) (ep : Fin 1024) (dest : BitVec 12) (plane : Plane) (s : State) : Result :=
  if !epOk ep then .fault .absentUnit
  else onSeg s g fun s => if s.epRuns ep then s.retryTrigger ep dest plane.code else s

/-- SOURCE_GRANT_RELEASE (R135). -/
def execSourceGrantRelease (g : Fin 4) (ep : Fin 1024) (dest : BitVec 12) (plane : Plane) (s : State) : Result :=
  if !epOk ep then .fault .absentUnit
  else onSeg s g fun s =>
    (s.modEp ep fun e => e.setSend dest plane.code { e.sendOf dest plane.code with grant := false }).sendReady ep

/-- EGRESS_GRANT_RECLAIM (R135). -/
def execEgressGrantReclaim (g : Fin 4) (ep : Fin 1024) (src : BitVec 12) (plane : Plane) (s : State) : Result :=
  if !epOk ep then .fault .absentUnit
  else onSeg s g fun s => s.each [plane.code, plane.code + twinKey] fun s k =>
    s.modEp ep fun e => e.setRecv src k { e.recvOf src k with grant := false }

/-! ### Completions (R142, R154) -/

/-- The outstanding non-posted request a tag names. -/
def Ni.outstanding (x : Ni) (tag : BitVec 12) : Option Entry :=
  x.store.find? fun e => !e.answer && !e.dead && !isPosted e.hdr.type && e.hdr.tag == tag
    && (e.phase == .sent || e.phase == .bound || e.phase == .copies)

/-- CPL_RECEIVE (R142, R154, R168): a CPL goes to RS and completes its request; one that answers nothing is acknowledged
and counted. -/
def execCplReceive (g : Fin 4) (site : Fin 288) (s : State) : Result :=
  onSeg s g fun s =>
    let n := site.val
    match (s.ni n).cplIn with
    | [] => s
    | p :: rest =>
      if !s.niRuns n then s
      else
        let s := s.modNi n fun x => { x with cplIn := rest }
        let key := s.recvKey n p
        let late := fun (s : Seg) => (s.count (pgNi n) 0x828).deliveredPkt n p (p.hdr.cls == 1)
        match (s.ni n).outstanding p.hdr.tag with
        | none => late s
        | some e =>
          if e.plane = .snp ∨ (e.hdr.dest ≠ p.hdr.src ∧ ¬ (e.altEn = true ∧ e.alt = p.hdr.src)) then late s
          else
            let s := s.when (p.hdr.code == cStfail) fun s => s.count (pgNi n) 0xA40
            let s := s.when (p.hdr.aux != 0) fun s => s.evt (pgNi n) 19
            let s := match s.sentAs n e with | some q => s.noteLate n e q | none => s
            let e := if e.phase = .copies then { e with phase := .sent } else e
            let s := (s.modEntry n e.id fun _ => e).retire n e
            let q := { p with hdr := { p.hdr with aux := 0 } }
            s.modNi n fun x => { x with rs := x.rs ++ rsBeats q key true true (e.hdr.type == tLdres) }

/-- CPL_TIMEOUT (R142): an acknowledged request without its response, of the agent or the flow engine, or an outstanding
REGACC, completes RETRYLOST. -/
def execCplTimeout (g : Fin 4) (site : Fin 288) (tag : BitVec 12) (s : State) : Result :=
  onSeg s g fun s =>
    let n := site.val
    match (s.ni n).outstanding tag with
    | some e =>
      if e.phase ≠ .bound then s
      else
        let s := s.count (pgNi n) 0x820
        if e.plane = .snp then (s.retire n e).snpAnswer n e.hdr.tag cRetrylost else s.complete n e cRetrylost
    | none =>
      if (s.ni n).regacc = some (tag.truncate 8) then
        (s.count (pgNi n) 0x820).regaccCpl n (tag.truncate 8) (s.ni n).regaccRd cRetrylost
      else if SMap.get (2 ^ 20) (s.ni n).feTags tag.toNat = 2 ^ 20 ∨ (s.ni n).feIn.any (·.hdr.tag == tag) = true
          ∨ (s.ep n).send.any (fun d => d.2.unacked.any fun u => u.entry.isNone && u.pkt.plane == .req && u.pkt.hdr.tag == tag)
            = true then s
      else (s.count (pgNi n) 0x820).feFails n tag cRetrylost

/-! ### Drain and reset (R149, R177) -/

/-- NI_DRAIN_RELEASE (R149): delivered inbound requests whose answers have not come are released. -/
def execNiDrainRelease (g : Fin 4) (site : Fin 288) (s : State) : Result :=
  onSeg s g fun s => if s.niDraining site then s.modNi site fun x => { x with inb := [] } else s

/-- NI_RESET_COMPLETE (R177): RESET clears itself; a fence's completion that was not taken is left unanswered. -/
def execNiResetComplete (g : Fin 4) (site : Fin 288) (s : State) : Result :=
  onSeg s g fun s =>
    let n := site.val
    let x := s.ni n
    if !x.resetting then s
    else
      (s.setNi n { x with
        resetting := false, rs := [], sn := [], mgOut := [], fenceLost := x.fenceLost || x.rs.any (·.lost)
        fenceRefused := x.fenceRefused || x.rs.any (·.refused), up := false }).wr (pgNi n) Reg.NI.NI_RST_RESET 0

end Sys2Proof.Machine
end

