-- ==== Sys2Proof/Machine/Fence.lean ====
section
/-!
DEFINITION. Fence maps and epochs: growth, broadcast, adoption, drain and retirement (R145, R194–R207, R265).
-/
namespace Sys2Proof.Machine

/-- The ring state the adopted maps of this segment were sent under has been overtaken by a newer one (R402). -/
def Seg.ringNewer (s : Seg) : Bool := s.map.ringVer != s.ctl.ring.ver || s.map.susp != s.ctl.ring.susp

/-- The map that R194 and R196 give now, with the ring state it is sent under. -/
def Seg.newMap (s : Seg) : FenceMap :=
  let c := s.ctl
  let rects := growRegions (c.sagTiles ++ c.dormant.filter (fun t => !c.sagTiles.contains t))
  { rects := rects, dormant := c.dormant, saggared := c.sagTiles, attach := (attachOf rects).getD 65, susp := c.ring.susp,
    ringVer := c.ring.ver, rows0 := c.ring.br0Rows, rows1 := c.ring.br1Rows }

/-- The units that take the broadcast: the routers and NIs of the tiles that are not OFF. -/
def Seg.mapUnits (s : Seg) : List Nat :=
  ((List.range 144).filter (fun t => s.stTile t != 4)).flatMap fun t => [srcRt t, srcNi (2 * t), srcNi (2 * t + 1)]

/-- SPLIT for one region (R195, R421): its columns and rows in the syndrome. -/
def splitSynd (r : Rect) : Word := BitVec.ofNat 32 (r.x0 + 16 * r.x1 + 256 * r.y0 + 4096 * r.y1)

/-- The map is abandoned (R196): the saggars it would have fenced are withdrawn, their sherd entries say so, and the segment
enters SOAK. -/
def Seg.abandonMap (s : Seg) : Seg :=
  let late := s.ctl.sagTiles.filter (fun t => !s.map.saggared.contains t)
  let s := s.each late fun s t => s.wr (pgRt t) Reg.PAGE.PAGE_STAT_SAGGARED 0
  let s := s.each (List.range 32) fun s i =>
    let o := 0x20C + 16 * i
    let src := (s.word pgColl o).toNat % 1024
    if s.rd pgColl ⟨o, 22, 20⟩ = 3 ∧ late.any (fun t => srcRt t == src) = true then s.wr pgColl ⟨o, 22, 20⟩ 7 else s
  (s.modCtl fun c => { c with sagTiles := c.sagTiles.filter (fun t => !late.contains t), wantMap := false }).enterSoak 0xFFE 0

/-- FENCE_MAP_CHANGE (R185, R194–R197, R199–R203, R443, R464): with no previous epoch live, the new map is grown and broadcast
under the next epoch, from its own attachment tile. In SOAK only a ring state is adopted, under the regions as they are. -/
def execFenceMapChange (g : Fin 4) (s : State) : Result :=
  onSeg s g fun s =>
    let c := s.ctl
    if c.prevLive || !c.mapped || !((c.wantMap && !s.soak) || s.ringNewer) then s
    else
      let aon := decide (144 ≤ c.dormant.length)
      let m := if s.soak then
          { s.map with susp := c.ring.susp, ringVer := c.ring.ver, rows0 := c.ring.br0Rows, rows1 := c.ring.br1Rows }
        else s.newMap
      if !s.soak && !aon && (attachOf m.rects).isNone then s.abandonMap
      else
        let e := c.epoch + 1
        let moved := m.ringVer != s.map.ringVer
        let s := s.modCtl fun c => { c with
          maps := SMap.put {} c.maps e.toNat m, epoch := e, prevLive := true, wantMap := c.wantMap && s.soak
          rings := SMap.put {} c.rings c.ring.ver.toNat c.ring
          adoptDue := s.mapUnits, reportDue := (List.range 144).filter (fun t => s.stTile t != 4 && !m.tile t)
          mapFab := mapPayload m e, ringFab := if moved then ringPayload c.ring e else [], fabAt := [m.attach]
          ringDue := if moved then s.mapUnits.filter (fun u => 0x200 ≤ u || tileX (u - 0x40) == 0 || tileX (u - 0x40) == 11) else [] }
        let s := ((s.noteRows 0).noteRows 1).reportRing
        if aon || s.soak then s else s.each (m.rects.filter Rect.splits) fun s r => s.raise 0 0x80 (splitSynd r)

/-- The sources of site `n` that fail over under its new epoch go back to their oldest unacknowledged packet, and every
source toward a fenced home is in deterministic mode (R145). One whose home is in service again has not failed over. -/
def Seg.failOver (s : Seg) (n : Nat) : Seg :=
  s.each (s.ep n).send fun s d =>
    let home := BitVec.ofNat 12 (d.1 / 4)
    let pl := d.1 % 4
    let fenced := s.homeFenced n home
    let goes := fenced && d.2.unacked.any (fun u => !u.pkt.hdr.viaTwin && (s.altOf n u.entry).isSome)
    let s := s.when (goes && !d.2.failedOver) fun s =>
      (s.count (pgNi n) 0x880).evt (pgNi n) 13 (BitVec.ofNat 32 (home.toNat + 4096 * pl))
    let s := s.modEp n fun e => e.setSend home pl
      { e.sendOf home pl with grant := d.2.grant && !fenced, failedOver := fenced && (d.2.failedOver || goes) }
    s.when goes fun s => s.goBack n home pl

/-- The flow engine's requests of site `n` to banks its new epoch fences complete with DECERR (R192, R299). -/
def Seg.fetchesFenced (s : Seg) (n : Nat) : Seg :=
  let gone := (s.ni n).feTags.filter fun t => t.2 != 2 ^ 20 && s.fencedFor n (s.eid (0x200 + s.feBank (t.2 / 2 / 8192)))
  s.each gone fun s t => s.feFails n (BitVec.ofNat 12 t.1) cDecerr

/-- The header word of a fabric control packet (R202, R203): its epoch. -/
def fabEpoch (flits : List (BitVec 64)) : BitVec 4 := (flits.getD 0 0).extractLsb' 0 4

/-- The flits of the broadcast: the map's packet, and the ring notice's where one follows. -/
def Seg.fabFlits (s : Seg) : Nat := 1 + s.ctl.mapFab.length + (if s.ctl.ringFab = [] then 0 else 1 + s.ctl.ringFab.length)

/-- The MGT router of tile `t` forwards the broadcast along its row and its column, to each neighbour it has not reached yet
(R201): what it takes of their buffers and credits is left out (DESIGN CHOICE, log 128). -/
def Seg.forwardMap (s : Seg) (t : Nat) : Seg :=
  s.each [Port.n, .e, .s, .w] fun s p =>
    match neighbour t p with
    | some nb =>
      if s.ctl.fabAt.contains nb || !s.ctl.adoptDue.contains (srcRt nb) then s
      else
        let s := s.modCtl fun c => { c with fabAt := nb :: c.fabAt }
        (s.countBy (pgRt t) 0xCC0 s.fabFlits).spend (s.fabFlits * hopEnergy 3 6 p false true)
    | none => s

/-- The broadcast has reached unit `u` of tile `t`: a router by its links, an NI by its router. -/
def Seg.fabHere (s : Seg) (u t : Nat) : Bool :=
  if u < 0x200 then s.ctl.fabAt.contains t else !s.ctl.adoptDue.contains (srcRt t)

/-- A router or NI takes the map of the broadcast: a router keeps the previous view beside it and truncates what the
new one fences, an NI injects under it (R145, R199, R201, R205, R215, R263, R265). -/
def Seg.adoptMap (s : Seg) (u : Nat) : Seg :=
  let e := fabEpoch s.ctl.mapFab
  let susp := ((s.ctl.mapFab.getD 0 0).extractLsb' 4 4).toNat
  let s := s.modCtl fun c => { c with adoptDue := c.adoptDue.filter (· != u) }
  if u < 0x200 then
    let t := u - 0x40
    let p := pgRt t
    let old := s.rd p Reg.ROUTER.RT_EPOCH_CUR
    let s := (s.wr p Reg.ROUTER.RT_EPOCH_PREV old).wr p Reg.ROUTER.RT_EPOCH_PREV_LIVE 1
    let s := (s.wr p Reg.ROUTER.RT_EPOCH_CUR e.toNat).wr p Reg.ROUTER.C1_STAT_BR_SUSP susp
    let s := (s.count p 0xD08).evt p 12
    (s.each (List.range 4) fun s pl => s.scrub t pl).forwardMap t
  else
    let n := u - 0x200
    ((s.modNi n fun x => { x with epoch := e }).failOver n).fetchesFenced n

/-- FENCE_MAP_ADOPT (R196, R201, R361): the broadcast spreads from the attachment tile from router to router. A sleeping tile
is woken by the broadcast first (R368); a broadcast one of whose flits fails its reads is sent again. -/
def execFenceMapAdopt (g : Fin 4) (read : MapRead) (s : State) : Result :=
  if !srcOk read.unit || decide (read.unit.val < 0x40) || (0x100 ≤ read.unit.val && read.unit.val < 0x200) then .fault .absentUnit
  else onSeg s g fun s =>
    let u := read.unit.val
    let reads := read.reads
    let t := if u < 0x200 then u - 0x40 else (u - 0x200) / 2
    if !s.ctl.adoptDue.contains u || !s.fabHere u t || s.stTile t == 4 || s.kilnIsolates u then s
    else if 1 < s.stTile t then s.tileWakeReq t 0x828
    else if (readTwice reads).2 then s.readBroadcast t reads
    else (s.readBroadcast t reads).adoptMap u

/-- RING_NOTICE_RECEIVE (R203): an NI or edge router that has adopted the map takes the ring notice that follows it. -/
def execRingNoticeReceive (g : Fin 4) (unit : Fin 1024) (s : State) : Result :=
  if !srcOk unit || decide (unit.val < 0x40) || (0x100 ≤ unit.val && unit.val < 0x200) then .fault .absentUnit
  else onSeg s g fun s =>
    let u := unit.val
    if !s.ctl.ringDue.contains u || s.ctl.adoptDue.contains u then s
    else
      let s := s.modCtl fun c => { c with ringDue := c.ringDue.filter (· != u) }
      if u < 0x200 then s
      else s.modNi (u - 0x200) fun x => { x with ringVer := (s.mapOf (fabEpoch s.ctl.ringFab)).ringVer }

/-- Router `t` holds a flit of epoch `e`: in a buffer, on its way in, or in transfer. -/
def Seg.holdsEpoch (s : Seg) (t : Nat) (e : Nat) : Bool :=
  let mine := fun f : Flit => match f.rhdr with | some h => h.epoch.toNat == e | none => false
  s.vcbuf.any (fun b => b.1 / 256 == t && b.2.any mine) || s.landing.any (fun b => b.1 / 32 == t && b.2.any mine)
    || s.inFlow.any (fun b => b.1 / 256 == t && b.2.epoch.toNat == e)

/-- EPOCH_DRAIN_REPORT (R201): a router that has adopted the map and holds no flit of the previous epoch reports; one that
cannot run holds none that counts. -/
def execEpochDrainReport (g : Fin 4) (tile : Fin 144) (s : State) : Result :=
  onSeg s g fun s =>
    let t := tile.val
    let idle := s.stTile t == 4 || s.saggared (pgRt t) || s.kilnIsolates (srcRt t)
    let clean := !s.ctl.adoptDue.contains (srcRt t) && !s.holdsEpoch t (s.rd (pgRt t) Reg.ROUTER.RT_EPOCH_PREV)
    if s.ctl.prevLive && (idle || clean) then s.modCtl fun c => { c with reportDue := c.reportDue.filter (· != t) } else s

/-- EPOCH_RETIRE (R201, R460): every router has reported; the new epoch is the only live one, and tiles that wait to be
switched off are. -/
def execEpochRetire (g : Fin 4) (s : State) : Result :=
  onSeg s g fun s =>
    if !s.ctl.prevLive || !s.ctl.reportDue.isEmpty then s
    else
      let s := s.each (List.range 144) fun s t => s.wr (pgRt t) Reg.ROUTER.RT_EPOCH_PREV_LIVE 0
      (s.modCtl fun c => { c with prevLive := false }).tileOffRetired

/-- The packets of epoch `e` that wait in an input VC behind its first are dropped; `n` counts them. -/
def dropEpoch (e : Nat) : Nat → List Flit → List Flit × Nat
  | 0, q => (q, 0)
  | fuel + 1, q =>
    match q with
    | [] => ([], 0)
    | f :: _ =>
      let k := match q.findIdx? (·.tail) with | some i => i + 1 | none => q.length
      let (rest, n) := dropEpoch e fuel (q.drop k)
      match f.rhdr with
      | some h => if h.epoch.toNat = e then (rest, n + 1) else (q.take k ++ rest, n)
      | none => (q.take k ++ rest, n)

/-- What one input VC holds of epoch `e` is truncated (R201, R205): the packet in transfer, and those that wait. -/
def Seg.drainVc (s : Seg) (t pl i v e : Nat) : Seg :=
  let mine := s.inFlow.filter fun x => x.1 == kVc t pl i v && x.2.epoch.toNat == e
  let s := s.each mine fun s x => (s.truncateId t pl i v x.2.id).count (pgRt t) 0xD10
  let q := s.vcq t pl i v
  let (rest, n) := dropEpoch e (q.length + 1) q
  if n = 0 then s
  else
    let open_ := (openEnd q).filter (fun f => f.isHead && !rest.contains f)
    let s := ((s.withdraw t pl i v).endWaits t pl i v).setVcq t pl i v rest
    let s := (s.freeSlots t pl i v (q.length - rest.length)).each open_ fun s f => s.addDrop t pl i v f.id 0
    let s := (s.countBy (pgRt t) 0xD10 n).countBy (pgRt t) (0xC20 + 0x40 * pl) n
    s.evt (pgRt t) 9 (rtSynd i pl v)

/-- DRAIN_TO_EXPIRY (R201): a router that still holds flits of the previous epoch truncates their packets. -/
def execDrainToExpiry (g : Fin 4) (tile : Fin 144) (s : State) : Result :=
  onSeg s g fun s =>
    let t := tile.val
    let p := pgRt t
    let e := s.rd p Reg.ROUTER.RT_EPOCH_PREV
    if !s.flag p Reg.ROUTER.RT_EPOCH_PREV_LIVE || !s.holdsEpoch t e then s
    else
      let s := s.evt p 13
      s.each (List.range 4) fun s pl => s.each (List.range 7) fun s i => s.each (List.range 6) fun s v => s.drainVc t pl i v e

end Sys2Proof.Machine
end

