-- ==== Sys2Proof/Machine/Banks.lean ====
section
/-!
DEFINITION. The scratchpad banks (R169–R172, R314–R345): bursts, outcomes, poison, reservations, handover, scrub and repair.
-/
namespace Sys2Proof.Machine

/-! ### Words and granules (R168, R314, R315) -/

/-- The words that hold bytes `a` to `a + len − 1`. -/
def wordsOfRange (a len : Nat) : List Nat :=
  if len = 0 then [] else (List.range ((a + len - 1) / 8 - a / 8 + 1)).map (fun i => a / 8 + i)

/-- The lines a burst touches, in order; line `k` lies in subarray `k % 8`. -/
def linesOfRange (a len : Nat) : List Nat :=
  if len = 0 then [] else (List.range ((a + len - 1) / 64 - a / 64 + 1)).map (fun i => a / 64 + i)

/-- Word `w` lies wholly within the bytes `a` to `a + len − 1`. -/
def wholeWord (a len w : Nat) : Bool := decide (a ≤ 8 * w) && decide (8 * w + 8 ≤ a + len)

/-- The granule of a word, and of an address. -/
def granOfWord (w : Nat) : Nat := w / 8
def granOf (h : Hdr) : BitVec 58 := BitVec.ofNat 58 (h.addr.toNat / 64)

/-! ### Errors (R332) -/

/-- A word found uncorrectable takes the poison mark: recorded, with its event. -/
def Seg.poisonWord (s : Seg) (b w : Nat) : Seg :=
  let p := pgBank b
  let s := ((s.setBBytes b (8 * w) 0 8).setMark b w true)
  let s := if s.flag p Reg.BANK.POISON_LAST_VALID then s
    else (s.wr p Reg.BANK.POISON_LAST_VALID 1).wr p Reg.BANK.POISON_LAST_OFFSET w
  s.evt p 9

/-- Every reservation entry for a granule cleared (R171). -/
def Seg.clearGran (s : Seg) (b g : Nat) : Seg :=
  s.modBank b fun x => { x with res := x.res.filter (fun r => r.gran.toNat != g) }

/-- A corrected word: its row's write-back is urgent (R332, R334). -/
def Seg.writeCorrected (s : Seg) (b w : Nat) : Seg :=
  s.modBank b fun x => if x.urgent.contains (granOfWord w) then x else { x with urgent := x.urgent ++ [granOfWord w] }

/-- What a read of the words `ws` finds (R332). -/
def Seg.readWords (s : Seg) (b : Nat) (ws : List Nat) (errs : ArrayErrs) : Seg :=
  s.each ws fun s w =>
    if errs.uncorr.contains w && !s.marked b w then (s.count (pgBank b) 0x888).poisonWord b w
    else if errs.corr.contains w && !s.marked b w then (s.count (pgBank b) 0x880).writeCorrected b w
    else s

/-! ### Completions (R248, R323, R325) -/

/-- A completion of bank `b` with `len` bytes; `bad` tells whether byte `i` of it is poisoned. A C1 request is answered in
C2. `full` tells the requester's NI that all reservation entries were protected (R181). -/
def Seg.bankCpl (s : Seg) (b : Nat) (q : Packet) (code : BitVec 3) (len v : Nat) (bad : Nat → Bool) (full : Bool := false) :
    Seg :=
  let h := answerHdr q.hdr tCpl code (BitVec.ofNat 10 len)
  let h := { h with cls := if q.hdr.cls = 1 then 2 else q.hdr.cls, aux := if full then 1 else 0,
                    poison := decide (len ≤ 96) && (List.range len).any bad }
  let data := (payloadData len v false).zipIdx.map fun (d, k) =>
    { d with poison := (List.range (min 128 (len - 128 * k))).any (fun i => bad (128 * k + i)) }
  s.sendOwn (0x200 + b) { plane := .rsp, hdr := h, imm := payloadImm len v, data := data }

/-- The packet counts as accepted: it is bound, and its acknowledgement follows (R133, R154, R323). -/
def Seg.bankAccepted (s : Seg) (b : Nat) (q : Packet) : Seg :=
  s.deliveredPkt (0x200 + b) q (q.hdr.cls == 1)

/-! ### Outcomes (R292, R324) -/

/-- A flow-engine packet (R292). -/
def isFePacket (h : Hdr) : Bool := h.fid.toNat % 2 ^ 18 == 0x3FFFF && h.cls == 0 && decide (eidLocal h.src < 0x120)

/-- The source is the owner of the bank or its pair (R153, R324). -/
def Seg.ownerOrPair (s : Seg) (b : Nat) (h : Hdr) : Bool :=
  let own := BitVec.ofNat 12 (s.rd (pgBank b) Reg.BANK.BANK_OWN_EID)
  let p := pgNi (eidLocal own)
  let local_ := eidSeg own == s.strap && decide (eidLocal own < 0x120)
    && (s.flag p Reg.NI.NI_CFG_DUAL || s.flag p Reg.NI.NI_CFG_TWIN)
  h.src == own || (local_ && s.rd p Reg.NI.NI_ID_PAIR_EID == h.src.toNat) || (h.reissue && h.aux.truncate 12 == own)

/-- The code R324 refuses a packet with; none where it is performed. -/
def Seg.bankRefusal (s : Seg) (b : Nat) (h : Hdr) : Option (BitVec 3) :=
  let p := pgBank b
  let mode := s.rd p Reg.BANK.BANK_OWN_MODE
  let ok := h.type == tRead || h.type == tWrite || h.type == tPosted || h.type == tAdd || h.type == tSwap
    || h.type == tLdres || h.type == tStcond
  if s.saggared p || !s.enabled p || !(mode == 1 || mode == 2) || s.stBank b == 4 then some cDecerr
  else if decide (2 ^ 17 ≤ h.addr.toNat) || !ok then some cDecerr
  else if mode == 2 && !isFePacket h then some cDenied
  else if mode == 1 && isFePacket h then some cDenied
  else if mode == 1 && s.flag p Reg.BANK.BANK_OWN_ACCESS && !s.ownerOrPair b h then some cDenied
  else if s.flag p Reg.PAGE.PAGE_STAT_RETENTION_LOST then some cPoison
  else none

/-- A refused packet: completed with the code, or if posted acknowledged as refused. A response that reaches a bank is
refused as a posted packet is. -/
def Seg.bankRefuse (s : Seg) (b : Nat) (q : Packet) (code : BitVec 3) : Seg :=
  let h := q.hdr
  let oneWay := isPosted h.type || h.type == tCpl || h.type == tSnpRsp
  let s := s.when (code != cPoison || oneWay) fun s => s.count (pgBank b) 0x8B0
  if oneWay then s.refusePosted (0x200 + b) q
  else if q.plane = .snp then
    let a := answerHdr h tSnpRsp code 0
    (s.bankAccepted b q).sendOwn (0x200 + b) { plane := .snp, hdr := { a with cls := if a.cls = 1 then 2 else a.cls } }
  else (s.bankAccepted b q).bankCpl b q code 0 0 (fun _ => false)

/-! ### Beats (R315–R317, R325) -/

/-- The words of a burst's range that lie in line `l`, and its bytes there: the first, and how many. -/
def beatWords (h : Hdr) (l : Nat) : List Nat := (wordsOfRange h.addr.toNat h.len.toNat).filter (fun w => w / 8 == l)
def beatLo (h : Hdr) (l : Nat) : Nat := max h.addr.toNat (64 * l)
def beatLen (h : Hdr) (l : Nat) : Nat := min (h.addr.toNat + h.len.toNat) (64 * l + 64) - beatLo h l

/-- A read beat (R316, R325, R332): the bytes of one line as they stand, an uncorrectable word's with them, and whether a word
it reads carries the mark. -/
def Seg.readBeat (s : Seg) (b : Nat) (x : Burst) (l : Nat) (errs : ArrayErrs) : Seg × Burst :=
  let h := x.pkt.hdr
  let ws := beatWords h l
  let v := s.bBytes b (beatLo h l) (beatLen h l)
  let s := s.readWords b ws errs
  let mark := ws.any (s.marked b)
  (s, { x with data := x.data + v * 2 ^ (8 * (beatLo h l - h.addr.toNat)), bad := x.bad || mark,
               marks := if mark then l :: x.marks else x.marks })

/-- The payload byte range of word `w` of a write lies in a poisoned flit, or the header is poisoned (R325). -/
def poisonedWord (q : Packet) (w : Nat) : Bool :=
  let a := q.hdr.addr.toNat
  q.hdr.poison || q.data.zipIdx.any (fun (d, k) =>
    d.poison && decide (8 * w < a + 128 * (k + 1)) && decide (a + 128 * k < 8 * w + 8))

/-- One word of a write: the mark, a merge, or the word whole; whether the write completes with POISON, and whether a byte is
stored. -/
def Seg.writeWord (s : Seg) (b : Nat) (q : Packet) (v w : Nat) (errs : ArrayErrs) : Seg × Bool × Bool :=
  let a := q.hdr.addr.toNat
  let len := q.hdr.len.toNat
  let lo := max a (8 * w)
  let hi := min (a + len) (8 * w + 8)
  let store := fun (s : Seg) => s.setBBytes b lo (v / 2 ^ (8 * (lo - a))) (hi - lo)
  if poisonedWord q w then (((s.setBBytes b (8 * w) 0 8).setMark b w true), true, true)
  else if wholeWord a len w then ((store s).setMark b w false, false, true)
  else if s.marked b w then (s, true, false)
  else if errs.uncorr.contains w then ((s.count (pgBank b) 0x888).poisonWord b w, true, false)
  else
    let s := if errs.corr.contains w then (s.count (pgBank b) 0x880).writeCorrected b w else s
    (store s, false, true)

/-- A write beat: the words of one line, whose reservations go where it stores a byte (R171, R317, R325). -/
def Seg.writeBeat (s : Seg) (b : Nat) (x : Burst) (l : Nat) (errs : ArrayErrs) : Seg × Burst :=
  let v := payload x.pkt
  let (s, bad, stored) := (beatWords x.pkt.hdr l).foldl (fun (r : Seg × Bool × Bool) w =>
    let (s, p, t) := r.1.writeWord b x.pkt v w errs
    (s, r.2.1 || p, r.2.2 || t)) (s, false, false)
  (s.when stored fun s => s.clearGran b l, { x with bad := x.bad || bad })

/-- An ATOMIC_ADD or ATOMIC_SWAP (R329): a poisoned word or request changes nothing. A bank keeps no completion record and
performs a REISSUE again (DESIGN CHOICE, log 126). -/
def Seg.bankAtomic (s : Seg) (b : Nat) (q : Packet) (errs : ArrayErrs) : Seg :=
  let a := q.hdr.addr.toNat
  let size := if q.hdr.at64 then 8 else 4
  let old := s.bBytes b a size
  let s := s.readWords b [a / 8] errs
  if s.marked b (a / 8) || q.hdr.poison then s.bankCpl b q cPoison size old (fun _ => true)
  else
    let x := payload q % 2 ^ (8 * size)
    let new := if q.hdr.type = tAdd then (old + x) % 2 ^ (8 * size) else x
    let s := ((s.setBBytes b a new size).count (pgBank b) 0x858).clearGran b (a / 64)
    s.bankCpl b q cOk size old (fun _ => false)

/-! ### Reservations (R169–R172) -/

/-- An entry of another source protects the granule; of an access from port B, any entry (R172). -/
def Bank.protects (x : Bank) (src : BitVec 12) (g : BitVec 58) (portB : Bool := false) : Bool :=
  x.res.any (fun r => r.prot && r.gran == g && (r.src != src || portB))

/-- The table with an entry for an LDRES, and whether all 8 entries were protected. -/
def Bank.reserve (x : Bank) (src : BitVec 12) (g : BitVec 58) (now : BitVec 64) : Bank × Bool :=
  let rest := x.res.filter (fun r => r.src != src)
  let prot := x.protQ.head? == some (src, g)
  let e : ResEntry := ⟨src, g, prot, now⟩
  let put := fun (l : List ResEntry) => { x with res := l ++ [e], protQ := if prot then x.protQ.drop 1 else x.protQ }
  if rest.length < 8 then (put rest, false)
  else match rest.find? (fun r => !r.prot) with
    | some old => (put (rest.erase old), false)
    | none => ({ x with res := rest }, true)

/-- The entry of an LDRES, recorded with its first beat (R330). -/
def Seg.bankReserve (s : Seg) (b : Nat) (x : Burst) : Seg × Burst :=
  let h := x.pkt.hdr
  let (y, full) := (s.bank b).reserve h.src (granOf h) (s.unitTime (0x200 + b))
  ((s.setBank b y).count (pgBank b) 0x860, { x with full := full })

/-- An STCOND decided by the table; one that succeeds writes like a WRITE of one beat (R169–R172, R330). -/
def Seg.bankStcond (s : Seg) (b : Nat) (q : Packet) (errs : ArrayErrs) : Seg :=
  let x := s.bank b
  let src := q.hdr.src
  let g := granOf q.hdr
  let win := x.res.any (fun r => r.src == src && r.gran == g) && !x.protects src g
  let full := decide (8 ≤ (x.res.filter (·.prot)).length)
  let x := { x with res := x.res.filter (fun r => r.src != src) }
  if win then
    let (s, y) := (s.setBank b x).writeBeat b { pkt := q, lines := [] } g.toNat errs
    (s.count (pgBank b) 0x868).bankCpl b q (if y.bad then cPoison else cOk) 0 0 (fun _ => false) full
  else
    let queue := !x.protQ.any (fun e => e.1 == src) && decide (x.protQ.length < 8)
    let x := if queue then { x with protQ := x.protQ ++ [(src, g)] } else x
    ((s.setBank b x).count (pgBank b) 0x870).bankCpl b q cStfail 0 0 (fun _ => false) full

/-- A write-back decided by its OTAG (R294, R331, R332). -/
def Seg.bankWriteback (s : Seg) (b : Nat) (q : Packet) (errs : ArrayErrs) : Seg :=
  let a := q.hdr.addr.toNat / 16 * 16
  let s := s.readWords b [a / 8 + 1] errs
  let held := BitVec.ofNat 64 (s.bBytes b (a + 8) 8)
  let got := BitVec.ofNat 64 (payload q / 2 ^ 64)
  if cfgOtag held = cfgOtag got ∧ s.marked b (a / 8 + 1) = false then
    let s := (s.setBBytes b a (payload q) 16).setMark b (a / 8) false
    (s.count (pgBank b) 0x868).bankCpl b q cOk 0 0 (fun _ => false)
  else ((s.count (pgBank b) 0x870).count pgFlow 0x820).bankCpl b q cStfail 0 0 (fun _ => false)

/-- A beat among `lines` of the access writes a granule that another source's entry protects (R172). -/
def Bank.mustDefer (x : Bank) (portB : Bool) (h : Hdr) (lines : List Nat) : Bool :=
  (h.type == tWrite || h.type == tPosted || h.type == tAdd || h.type == tSwap)
    && lines.any (fun k => x.protects h.src (BitVec.ofNat 58 k) portB)

/-- BANK_STAT.DEFER_FULL follows the deferral buffer; filling it raises its event (R172, R344). -/
def Seg.noteDefer (s : Seg) (b : Nat) : Seg :=
  let full := decide (16 ≤ (s.bank b).defer.length)
  let was := s.flag (pgBank b) Reg.BANK.BANK_STAT_DEFER_FULL
  let s := s.wr (pgBank b) Reg.BANK.BANK_STAT_DEFER_FULL (b2n full)
  if full && !was then s.evt (pgBank b) 14 else s

/-! ### What a port takes up (R157, R162, R172, R324) -/

/-- The ports by name. -/
def Bank.port (x : Bank) (portB : Bool) : BankPort := if portB then x.pb else x.pa
def Bank.modPort (x : Bank) (portB : Bool) (f : BankPort → BankPort) : Bank :=
  if portB then { x with pb := f x.pb } else { x with pa := f x.pa }

/-- Byte ranges that share a byte. -/
def rangesMeet (p q : Hdr) : Bool :=
  decide (p.addr.toNat < q.addr.toNat + q.len.toNat) && decide (q.addr.toNat < p.addr.toNat + p.len.toNat)
    && p.len != 0 && q.len != 0

/-- A plain load, and a plain store (R152). -/
def isRead (h : Hdr) : Bool := isLoad h.type && !isStore h.type
def isWrite (h : Hdr) : Bool := isStore h.type && !isLoad h.type

/-- Access `q` must wait for the earlier access `p` of the bank (R157, R162). -/
def staysBehind (p q : Hdr) : Bool := p.src == q.src && !(isWrite p && isRead q && !rangesMeet p q)

/-- The bank holds arriving packets: a handover, a zeroing, or a drain (R324, R326, R343). -/
def Seg.bankHolds (s : Seg) (b : Nat) : Bool :=
  let p := pgBank b
  let x := s.bank b
  x.hand.isSome || x.zeroing || s.flag p Reg.PAGE.PAGE_CTRL_DRAIN
    || (!s.flag p Reg.PAGE.PAGE_CTRL_ENABLE && s.flag p Reg.PAGE.PAGE_STAT_ENABLED)

/-- A fetch of a context that an INIT has still to write waits at its bank (R305). -/
def Seg.fetchWaits (s : Seg) (b : Nat) (q : Packet) : Bool :=
  q.hdr.type == tRead && isFePacket q.hdr && (match (List.range 32).find? (fun n => s.feBank n == b) with
    | some n => s.initHolds (8192 * n + q.hdr.addr.toNat / 16)
    | none => false)

/-- The first packet of a queue that does not wait of itself and stays behind none of those before it and no deferred access:
`held` are these. -/
def nextPacket (waits : Packet → Bool) : List Packet → List Packet → Option Packet
  | _, [] => none
  | held, q :: rest =>
    if waits q || held.any (fun p => staysBehind p.hdr q.hdr) then nextPacket waits (held ++ [q]) rest else some q

/-- The packet a port would take up next. -/
def Seg.portNext (s : Seg) (b : Nat) (portB : Bool) : Option Packet :=
  let x := s.bank b
  if s.bankHolds b then none else nextPacket (s.fetchWaits b) (x.defer.map (·.2.pkt)) (if portB then x.pb.q else x.pa.q)

/-- The deferred access port `portB` may perform: the first, in arrival order, that no entry covers and that meets no earlier
one (R172). -/
def Bank.released (x : Bank) (portB : Bool) : Option Burst :=
  (x.defer.zipIdx.find? fun (d, i) =>
    d.1 == portB && !x.mustDefer portB d.2.pkt.hdr d.2.lines
      && !(x.defer.take i).any fun e => rangesMeet e.2.pkt.hdr d.2.pkt.hdr).map (·.1.2)

/-- The beats of a packet's burst: an atomic and an STCOND are one beat (R315, R329, R330). -/
def burstOf (q : Packet) (released : Bool) : Burst :=
  let ls := linesOfRange q.hdr.addr.toNat q.hdr.len.toNat
  { pkt := q, released := released,
    lines := if q.hdr.type == tStcond || q.hdr.type == tAdd || q.hdr.type == tSwap then [q.hdr.addr.toNat / 64] else ls }

/-- The next beat of the burst writes a granule that is protected against it (R330). -/
def Bank.beatProtected (x : Bank) (portB : Bool) (y : Burst) : Bool := x.mustDefer portB y.pkt.hdr (y.lines.take 1)

/-- An access, or what is left of its burst, goes into the deferral buffer (R172, R330). -/
def Seg.deferBurst (s : Seg) (b : Nat) (portB : Bool) (y : Burst) : Seg :=
  ((s.modBank b fun x => { x with defer := x.defer ++ [(portB, { y with released := true })] }).count (pgBank b) 0x878).noteDefer b

/-- A port without a burst takes up its next access: a deferred one that is released, or a packet, which it refuses, defers
or begins (R172, R324). A burst whose next beat has come to be protected against it is deferred where there is room (R330). -/
def Seg.portTake (s : Seg) (b : Nat) (portB : Bool) : Seg :=
  let x := s.bank b
  match (x.port portB).burst with
  | some y =>
    if x.beatProtected portB y && decide (x.defer.length < 16) then
      (s.modBank b fun x => x.modPort portB fun o => { o with burst := none }).deferBurst b portB y
    else s
  | none => match x.released portB with
    | some y =>
      (s.modBank b fun x => { x with defer := x.defer.erase (portB, y) }.modPort portB fun o =>
        { o with burst := some y }).noteDefer b
    | none =>
      match s.portNext b portB with
      | none => s
      | some q =>
        let s' := s.modBank b fun x => x.modPort portB fun o => { o with q := o.q.erase q }
        match s.bankRefusal b q.hdr with
        | some code => s'.bankRefuse b q code
        | none =>
          if x.mustDefer portB q.hdr (burstOf q false).lines then
            if 16 ≤ x.defer.length then s else s'.deferBurst b portB (burstOf q false)
          else s'.modBank b fun x => x.modPort portB fun o => { o with burst := some (burstOf q false) }

/-! ### The beats of one tile cycle (R231, R316, R320–R323, R329) -/

/-- What a beat does to its subarray in its first cycle: reads, writes. A partial word does both; an atomic reads. -/
def beatKinds (h : Hdr) (line : Nat) : Bool × Bool :=
  let part := (beatWords h line).any (fun w => !wholeWord h.addr.toNat h.len.toNat w)
  let atom := h.type == tAdd || h.type == tSwap
  if isRead h || atom then (true, false) else (part, true)

/-- What a beat still does in its second cycle (R320, R329). -/
def secondCycle (h : Hdr) (line : Nat) (portB : Bool) : List Busy :=
  if h.type == tAdd || h.type == tSwap then [⟨line, false, true, portB, some (h.addr.toNat / 8)⟩]
  else if (beatKinds h line).1 && !isRead h then [⟨line, true, true, portB, none⟩]
  else []

/-- Two uses of subarrays conflict (R320). -/
def clash (l m : Nat) (a c : Bool × Bool) : Bool := l % 8 == m % 8 && ((a.1 && c.1) || (a.2 && c.2))

/-- The line of a burst's next beat; none of a burst the bank holds, nor of one that stalls before a protected granule
(R330). -/
def Seg.beatOf (s : Seg) (b : Nat) (portB : Bool) : Option (Hdr × Nat) :=
  match ((s.bank b).port portB).burst with
  | some x =>
    if (s.bankHolds b && !x.released) || (s.bank b).beatProtected portB x then none else some (x.pkt.hdr, x.lines.headD 0)
  | none => none

/-- The beat a port has next: of its burst, else of the access it would take up. -/
def Seg.portAsks (s : Seg) (b : Nat) (portB : Bool) : Option (Hdr × Nat) :=
  if ((s.bank b).port portB).burst.isSome then s.beatOf b portB
  else match (s.bank b).released portB with
    | some y => some (y.pkt.hdr, y.lines.headD 0)
    | none => (s.portNext b portB).map fun q => (q.hdr, q.hdr.addr.toNat / 64)

/-- The completion of a burst whose beats are done (R323, R325). -/
def Seg.burstEnd (s : Seg) (b : Nat) (x : Burst) : Seg :=
  let q := x.pkt
  let code := if x.bad then cPoison else cOk
  if isRead q.hdr then
    s.bankCpl b q code q.hdr.len.toNat x.data (fun i => x.marks.contains ((q.hdr.addr.toNat + i) / 64)) x.full
  else if q.hdr.type = tPosted then s
  else s.bankCpl b q code 0 0 (fun _ => false)

/-- The next beat of a port's burst. The access is accepted with its last beat, and its completion follows (R323). -/
def Seg.beat (s : Seg) (b : Nat) (portB : Bool) (x : Burst) (errs : ArrayErrs) : Seg :=
  let q := x.pkt
  let t := q.hdr.type
  let free := fun s : Seg => (s.modBank b fun x => x.modPort portB fun o => { o with burst := none }).bankAccepted b q
  if t = tStcond then
    if s.rd (pgBank b) Reg.BANK.BANK_OWN_MODE = 2 then (free s).bankWriteback b q errs else (free s).bankStcond b q errs
  else if t = tAdd ∨ t = tSwap then (free s).bankAtomic b q errs
  else
    let s := if x.lines.length ≤ 1 then free s else s
    let first := decide (x.lines.length = (linesOfRange q.hdr.addr.toNat q.hdr.len.toNat).length)
    let (s, x) := if t = tLdres && first then s.bankReserve b x else (s, x)
    match x.lines with
    | [] => s.burstEnd b x
    | l :: rest =>
      let (s, y) := if isRead q.hdr then s.readBeat b x l errs else s.writeBeat b x l errs
      if rest = [] then s.burstEnd b y
      else s.modBank b fun z => z.modPort portB fun o => { o with burst := some { y with lines := rest } }

/-- The port that gets the priority grant where none holds it: by wait, equal waits round robin (R231, R321). At a bank the
rank is the wait, so a STARVE_N of 16 changes nothing. -/
def Bank.winner (x : Bank) : Bool := if x.pa.wait = x.pb.wait then !x.lastB else decide (x.pa.wait < x.pb.wait)

/-- A new priority grant (R321). -/
def Seg.bankGrant (s : Seg) (b : Nat) (portB : Bool) : Seg :=
  (s.modBank b fun x => { x with grant := some portB, lastB := portB }).count (pgBank b) (if portB then 0x818 else 0x800)

/-- A port's beat goes: its wait ends (R345). -/
def Seg.bankWaited (s : Seg) (b : Nat) (portB : Bool) : Seg :=
  (s.countMax (pgBank b) 0 (if portB then 0x828 else 0x810) ((s.bank b).port portB).wait).modBank b fun x =>
    x.modPort portB fun o => { o with wait := 0 }

/-- A port waits a cycle, by a conflict where `by_` says so (R321, R345). -/
def Seg.bankStalls (s : Seg) (b : Nat) (portB by_ : Bool) : Seg :=
  let p := pgBank b
  let s := s.when by_ fun s => s.count p (if portB then 0x840 else 0x838)
  (s.count p (if portB then 0x820 else 0x808)).modBank b fun x => x.modPort portB fun o => { o with wait := o.wait + 1 }

/-- The second cycles under way with which a beat conflicts (R320). -/
def Bank.blocking (x : Bank) (o : Option (Hdr × Nat)) : List Busy :=
  match o with
  | some (h, l) => x.busy.filter fun u : Busy => clash l u.line (beatKinds h l) (u.rd, u.wr)
  | none => []

/-- The beats of the two ports conflict (R320). -/
def beatsClash (a c : Option (Hdr × Nat)) : Bool :=
  match a, c with
  | some (h, l), some (k, m) => clash l m (beatKinds h l) (beatKinds k m)
  | _, _ => false

/-- Two beats of one cycle, one a store and one not, share a word (R322). -/
def sameWord (a c : Option (Hdr × Nat)) : Bool :=
  match a, c with
  | some (h, l), some (k, m) =>
    (beatKinds h l).2 != (beatKinds k m).2 && (beatWords h l).any (fun w => (beatWords k m).contains w)
  | _, _ => false

/-- A read beat of the word an atomic writes in this cycle (R329). -/
def Bank.readsAtomic (x : Bank) (o : Option (Hdr × Nat)) : Bool :=
  match o with
  | some (h, l) => isRead h && x.busy.any fun u : Busy => u.word.any fun w => (beatWords h l).contains w
  | none => false

/-- The second cycles that a beat begins. -/
def laterCycle (o : Option (Hdr × Nat)) (portB : Bool) : List Busy :=
  match o with | some (h, l) => secondCycle h l portB | none => []

/-- The beats that go in a cycle, of those the ports offer: a store comes before a load of its word (R316, R322). -/
def Seg.runBeats (s : Seg) (b : Nat) (a c : Option (Hdr × Nat)) (errs : ArrayErrs) : Seg :=
  let run := fun (o : Option (Hdr × Nat)) (portB : Bool) (s : Seg) =>
    match (if o.isSome then ((s.bank b).port portB).burst else none) with
    | some x => (s.bankWaited b portB).beat b portB x errs
    | none => s
  match a with
  | some (h, l) => if (beatKinds h l).2 then run c true (run a false s) else run a false (run c true s)
  | none => run c true s

/-- The priority grant where none holds it (R321). -/
def Seg.takeGrant (s : Seg) (b : Nat) (a c : Option (Hdr × Nat)) : Seg :=
  if (s.bank b).grant.isSome then s
  else match a, c with
    | some _, some _ => s.bankGrant b (s.bank b).winner
    | some _, none => s.bankGrant b false
    | none, some _ => s.bankGrant b true
    | none, none => s

/-- One cycle of the ports, no emergency grant in force (R231, R320–R322): of two beats that conflict, the port without the
grant stalls; a beat stalls too where its subarray is in the second cycle of another. -/
def Seg.portCycle (s : Seg) (b : Nat) (errs : ArrayErrs) : Seg :=
  let a := s.beatOf b false
  let c := s.beatOf b true
  let s := s.takeGrant b a c
  let x := s.bank b
  let busyA := x.blocking a
  let busyC := x.blocking c
  let pair := beatsClash a c && busyA.isEmpty && busyC.isEmpty
  let goA := if busyA.isEmpty && !(pair && x.grant == some true) then a else none
  let goC := if busyC.isEmpty && !(pair && x.grant == some false) then c else none
  let s := if a.isSome && goA.isNone then s.bankStalls b false (pair || busyA.any (·.portB)) else s
  let s := if c.isSome && goC.isNone then s.bankStalls b true (pair || busyC.any (!·.portB)) else s
  let s := s.countBy (pgBank b) 0x850 (b2n (sameWord goA goC) + b2n (x.readsAtomic goA) + b2n (x.readsAtomic goC))
  let s := s.runBeats b goA goC errs
  s.modBank b fun x => { x with
    busy := laterCycle goA false ++ laterCycle goC true
    noIdle := if goA.isSome || goC.isSome then min 64 (x.noIdle + 1) else 0
    grant := x.grant.filter fun p => (x.port p).burst.isSome }

/-- A cycle an emergency grant takes: the bursts are suspended, and a port that has a beat waits (R229, R231, R345). -/
def Seg.suspendedCycle (s : Seg) (b : Nat) : Seg :=
  let asksA := (s.portAsks b false).isSome
  let asksB := (s.portAsks b true).isSome
  let s := if asksA then s.bankStalls b false false else s
  let s := if asksB then s.bankStalls b true false else s
  s.modBank b fun x => { x with busy := [], noIdle := min 64 (x.noIdle + 1) }

/-- An emergency grant, counted; the first of its 2 cycles is this one (R231, R334). -/
def Seg.emergency (s : Seg) (b : Nat) : Seg :=
  (s.modBank b fun x => { x with since := 0, engine := true }).count (pgBank b) 0x830

/-- Row `pos` of all 8 subarrays written with 0, which PROGRESS shows (R326, R343). -/
def Seg.zeroRow (s : Seg) (b : Nat) : Seg :=
  let r := (s.bank b).zeroPos
  if 256 ≤ r then s
  else
    let s := (s.setBBytes b (512 * r) 0 512).each (List.range 64) fun s j => s.setMark b (64 * r + j) false
    (s.modBank b fun x => { x with zeroPos := r + 1 }).bankProgress b

/-- What the bank has accepted is performed: no deferred store is left, and no released one is under way. -/
def Seg.bankPerformed (s : Seg) (b : Nat) : Bool :=
  let x := s.bank b
  x.defer.isEmpty && !x.pa.burst.any (·.released) && !x.pb.burst.any (·.released)

/-- Every access the bank has accepted is performed, and its completion or acknowledgement has left (R326 step 3). -/
def Seg.bankDone (s : Seg) (b : Nat) : Bool :=
  let e := s.ep (0x200 + b)
  s.bankPerformed b && e.own.isEmpty && e.recv.all (fun r => r.2.owed == 0)

/-- A zeroing may write its rows: steps 2 and, in a handover, 3 are done (R326). -/
def Seg.zeroMay (s : Seg) (b : Nat) : Bool := if (s.bank b).hand.isSome then s.bankDone b else s.bankPerformed b

/-- A bank's port has something to take. -/
def Bank.asked (x : Bank) : Bool := !x.pa.q.isEmpty || !x.pb.q.isEmpty

/-- BANK_PACKET_ACCEPT (R172, R217, R231, R315–R332, R455): one tile cycle of the bank. The scrub and retention engine's
urgent write-back comes first; else each port takes up its next packet, which it refuses, defers or begins, and the beats
that do not conflict go. A zeroing writes its next row. A packet for a sleeping bank wakes it first. One command is one
cycle (DESIGN CHOICE, log 55). -/
def execBankPacketAccept (g : Fin 4) (bank : Fin 72) (corr uncorr : List Nat) (s : State) : Result :=
  onSeg s g fun s =>
    let b := bank.val
    let errs : ArrayErrs := { corr := corr, uncorr := uncorr }
    let x := s.bank b
    if !s.bankClocked b then s
    else if 1 < s.stBank b ∧ s.stBank b ≠ 4 then (if x.asked then s.bankWakeReq b else s)
    else
      let s := if s.stBank b = 1 ∧ x.asked then s.bankWakeReq b else s
      let s := s.modBank b fun x => { x with since := min 64 (x.since + 1) }
      if x.engine then (s.modBank b fun x => { x with engine := false }).suspendedCycle b
      else match x.urgent with
        | l :: rest =>
          if 64 ≤ x.since then (((s.suspendedCycle b).modBank b fun x => { x with urgent := rest }).clearGran b l).emergency b
          else ((s.portTake b false).portTake b true).portCycle b errs
        | [] =>
          let s := ((s.portTake b false).portTake b true).portCycle b errs
          s.when (x.zeroing && s.zeroMay b) fun s => s.zeroRow b

/-- RESERVATION_EXPIRY (R169, R171): an unprotected entry ends after 16 µs. -/
def execReservationExpiry (g : Fin 4) (bank : Fin 72) (src : BitVec 12) (s : State) : Result :=
  onSeg s g fun s =>
    s.modBank bank fun x => { x with res := x.res.filter (fun r => !(r.src == src && !r.prot)) }

/-- PROTECTED_ENTRY_EXPIRY (R172): a protected entry ends after 4 µs, and what it deferred is released to the ports. -/
def execProtectedEntryExpiry (g : Fin 4) (bank : Fin 72) (src : BitVec 12) (s : State) : Result :=
  onSeg s g fun s =>
    s.modBank bank fun x => { x with res := x.res.filter (fun r => !(r.src == src && r.prot)) }

/-! ### Ownership and zeroing (R319, R326–R328, R339) -/

/-- A BANK_OWN commit is ignored with LOCK_HIT: a handover or zeroing runs, a bank without a port is given to the flow
engine, FE_MAP holds the bank, or it would pass from an EID to the flow engine unzeroed (R319, R326, R327). -/
def Seg.bankOwnLocked (s : Seg) (b : Nat) (w : Word) : Bool :=
  let fe := Reg.BANK.BANK_OWN_MODE.get w == 2
  let x := s.bank b
  x.hand.isSome || x.zeroing || (fe && (b == 0x20 || b == 0x27 || b == 0x36 || b == 0x41)) || s.feHeld b
    || (fe && Reg.BANK.BANK_OWN_ZERO.get w != 1 && s.rd (pgBank b) Reg.BANK.BANK_OWN_MODE == 1)

/-- A BANK_OWN commit (R319, R326, R327). -/
def Seg.bankOwn (s : Seg) (b : Nat) (w : Word) : Seg :=
  let p := pgBank b
  let zero := Reg.BANK.BANK_OWN_ZERO.get w == 1
  let keep := w &&& 0x00032FFF
  if s.bankOwnLocked b w then s.lockHit p
  else
    let s := s.heal p 0x100
    if keep != (s.word p 0x100 &&& 0x00032FFF) then
      let s := (s.modBank b fun x => { x.clearRes with hand := some keep }).wr p Reg.BANK.BANK_STAT_HANDOVER 1
      s.when zero fun s => s.startZeroing b false
    else if zero then s.startZeroing b false
    else s

/-- HANDOVER_COMPLETE (R326 step 5): what was accepted has left, a zeroing it asked for is done, and the new owner takes
effect. -/
def execHandoverComplete (g : Fin 4) (bank : Fin 72) (s : State) : Result :=
  onSeg s g fun s =>
    let b := bank.val
    let p := pgBank b
    match (s.bank b).hand with
    | none => s
    | some w =>
      if (s.bank b).zeroing || !s.bankDone b then s
      else
        let s := ((s.modBank b fun x => { x with hand := none }).setWord p 0x100 w).wr p Reg.BANK.BANK_STAT_HANDOVER 0
        (s.count p 0x8A8).evt p 10

/-- A write of 1 to ZERO_CMD (R326, R339). -/
def Seg.zeroCommand (s : Seg) (b : Nat) : Seg :=
  let x := s.bank b
  if x.hand.isSome || x.zeroing then s.lockHit (pgBank b)
  else
    (s.wr (pgBank b) Reg.BANK.ZERO_CMD 1).startZeroing b true

/-- ZEROING_COMPLETE (R326 step 4, R339, R344): what the zeroing released is performed, and every row is written. -/
def execZeroingComplete (g : Fin 4) (bank : Fin 72) (s : State) : Result :=
  onSeg s g fun s =>
    let b := bank.val
    let p := pgBank b
    if !(s.bank b).zeroing || !s.zeroMay b then s
    else
      let s := (s.zeroed b).modBank b fun x => { x with zeroing := false, zeroCmd := false }
      let s := (s.wr p Reg.BANK.BANK_STAT_ZEROING 0).wr p Reg.BANK.ZERO_CMD 0
      (s.bankProgress b).evt p 11

/-! ### Scrub (R333, R334, R337) -/

/-- The words of scrub row `i`: subarray `i / 256`, row `i % 256`. -/
def scrubWords (i : Nat) : List Nat := (List.range 8).map (fun j => i % 256 * 64 + i / 256 * 8 + j)

/-- A port's next beat, or the second cycle of one, reads the subarray of scrub row `i` (R320, R321). -/
def Seg.scrubYields (s : Seg) (b i : Nat) : Bool :=
  (s.bank b).busy.any (fun u => u.rd && u.line % 8 == i / 256) || [false, true].any fun portB =>
    match s.portAsks b portB with
    | some (h, l) => l % 8 == i / 256 && (beatKinds h l).1
    | none => false

/-- SCRUB_STEP (R332–R334): one row of one subarray. -/
def execScrubStep (g : Fin 4) (bank : Fin 72) (errs : ArrayErrs) (s : State) : Result :=
  onSeg s g fun s =>
    let b := bank.val
    let p := pgBank b
    let i := (s.bank b).scrubRow
    if !s.flag p Reg.BANK.SCRUB_CFG_SCRUB_EN || !s.bankRuns b || (s.bank b).zeroing then s
    else if s.scrubYields b i then s.count p 0x848
    else
      let s := s.each (scrubWords i) fun s w =>
        if s.marked b w then s
        else if errs.uncorr.contains w then s.poisonWord b w
        else if errs.corr.contains w then (s.count p 0x898).writeCorrected b w
        else s
      let last := i + 1 == 2048
      let s := s.modBank b fun x => { x with scrubRow := if last then 0 else i + 1 }
      (s.wr p Reg.BANK.SCRUB_STAT_ROW (if last then 0 else i + 1)).when last fun s => s.count p 0x890

/-- WAKE_SCRUB_ROW (R334, R337): a row that conflicts with a port's beat yields, unless it has found no idle cycle for 64 and
takes the bank from the ports; an uncorrectable word condemns the bank. -/
def execWakeScrubRow (g : Fin 4) (bank : Fin 72) (errs : ArrayErrs) (s : State) : Result :=
  onSeg s g fun s =>
    let b := bank.val
    let p := pgBank b
    match (s.bank b).wakeRow with
    | none => s
    | some i =>
      let x := s.bank b
      let yields := s.scrubYields b i
      let urgent := yields && decide (64 ≤ x.noIdle) && decide (64 ≤ x.since) && !x.engine
      if 2048 ≤ i ∨ s.bankRuns b = false then s
      else if yields && !urgent then s.count p 0x848
      else
        let s := s.when urgent fun s => (s.suspendedCycle b).emergency b
        let s := s.each (scrubWords i) fun s w =>
          if s.marked b w then s
          else if errs.uncorr.contains w then s.retentionLost b 2 0 w
          else if errs.corr.contains w then (s.count p 0x898).writeCorrected b w
          else s
        (s.modBank b fun x => { x with wakeRow := some (i + 1), noIdle := 0 }).bankProgress b

/-- WAKE_SCRUB_COMPLETE (R337, R344). -/
def execWakeScrubComplete (g : Fin 4) (bank : Fin 72) (s : State) : Result :=
  onSeg s g fun s =>
    let b := bank.val
    if (s.bank b).wakeRow = some 2048 then
      let s := (s.modBank b fun x => { x with wakeRow := none }).wr (pgBank b) Reg.BANK.BANK_STAT_WAKE_SCRUB 0
      (s.bankProgress b).evt (pgBank b) 15
    else s

/-! ### Column repair (R340, R342) -/

/-- The column a half of a REPAIR word replaces. -/
def repairCols (w : Word) : List Nat :=
  (if Reg.BANK.REPAIR_VALID0.get w = 1 then [Reg.BANK.REPAIR_COL0.get w] else [])
    ++ (if Reg.BANK.REPAIR_VALID1.get w = 1 then [Reg.BANK.REPAIR_COL1.get w] else [])

/-- Every bit of column `col` of a subarray is undefined; the check bits are not kept apart from the data. -/
def Seg.columnUndefined (s : Seg) (b sub col : Nat) : Seg :=
  if 64 ≤ col % 72 ∨ 576 ≤ col then s
  else
    let f := s.free
    let s := s.each (List.range 256) fun s r =>
      let a := r * 512 + sub * 64 + col / 72 * 8 + col % 72 / 8
      let bit := col % 8
      let old := (s.bByte b a).toNat
      let v := old - old / 2 ^ bit % 2 * 2 ^ bit + b2n (Config.undefinedBit f (b * 0x20000 + a)) * 2 ^ bit
      s.setBByte b a (BitVec.ofNat 8 v)
    s.tick1

/-- A REPAIR word changed (R342): the contents of each column whose replacement begins or ends are undefined. -/
def Seg.repairChanged (s : Seg) (b sub : Nat) (old new : Word) : Seg :=
  let cols := (repairCols old).filter (fun c => !(repairCols new).contains c)
    ++ (repairCols new).filter (fun c => !(repairCols old).contains c)
  s.each cols fun s c => s.columnUndefined b sub c

end Sys2Proof.Machine
end

