-- ==== Sys2Proof/Machine/Bridges.lean ====
section
/-!
DEFINITION. The bridges: frames, replay, credits, lanes, training, sleep, bundle slots and pairs (R232, R377–R401, R411,
R412).
-/
namespace Sys2Proof.Machine

/-! ### Counters, syndromes, widths -/

/-- A per-bundle counter of a bridge page counts `n` (R413). -/
def Seg.bunCount (s : Seg) (br b off n : Nat) : Seg := s.countV (pgBr br) b off n

/-- The syndrome of a bridge event (R421). -/
def brSynd (b : Nat) (rx : Bool) (lane : Nat := 0) : Word := BitVec.ofNat 32 (b + 32 * b2n rx + 64 * lane)

/-- The row's other bundle. -/
def rowMate (b : Nat) : Nat := if b % 2 = 0 then b + 1 else b - 1

/-- A half that carries a stream. -/
def running (st : Nat) : Bool := st == 2 || st == 3

/-- A bundle saggared with its event (R396). -/
def Seg.bundleLost (s : Seg) (br b : Nat) (rx : Bool) (inj : Bool := false) : Seg :=
  if s.bunTx br b = 5 then s
  else ((s.bundleSaggar br b).evt (pgBr br) 11 (brSynd b rx) inj).noteBridge br

/-! ### The pins of a bundle (R85, R398)

TXRDY, RXLOCK, RXEI and RXV are inputs of the PMA: a training or a wake goes on with a command once they hold (R394), and a
fall of RXLOCK is the command LANE_FAIL. -/

/-- A half drives or takes the line: it trains or carries a stream. -/
def lineActive (st : Nat) : Bool := st == 1 || running st

/-- BXbb_TXEI: every lane idle but while the transmit half is active. A half that is down or saggared is idle as after
reset (log 87). -/
def Seg.txEi (s : Seg) (br b : Nat) : BitVec 17 := if lineActive (s.bunTx br b) then 0 else BitVec.allOnes 17

/-- BXbb_TXSLEEP and BXbb_RXSLEEP: 1 from a half's sleep to its next training, and before the first. -/
def Seg.txSleep (s : Seg) (br b : Nat) : Bool := !lineActive (s.bunTx br b)
def Seg.rxSleep (s : Seg) (br b : Nat) : Bool := !lineActive (s.bunRx br b)

/-! ### Training (R394, R395) -/

/-- What a transmit half holds is gone (log 61); the NAK, LANE and ACK it owes for the reverse direction stay. -/
def Bundle.noTx (x : Bundle) : Bundle :=
  { x with txq := [], replay := [], resend := [], cred := [], seen := [], fsn := 0, resyncDue := false, replays := 0
           claim := 0, startAt := none, begun := false, cur := none, left := 0, waits := [], timeDue := false
           keepTx := false }

/-- What a receive half holds is gone (log 61). -/
def Bundle.noRx (x : Bundle) : Bundle :=
  { x with rxbuf := [], mid := [], rxMsg := false, freed := [], rxFsn := 0, discard := false, resynced := false
           nakDue := false, ackOwed := false, laneNext := none, keepRx := false }

/-- The transmit half trains anew: where it ran, its sleep entry with DROWSE and its wake come first (R395). -/
def Seg.trainTx (s : Seg) (br b : Nat) : Seg :=
  let ran := running (s.bunTx br b)
  let half := s.bunTx br b == 3
  let s := (s.modBun br b fun x =>
    let x := x.noTx
    (if ran then { x with out := { kind := .drowse } }.onLine half else x).newTraining s.ftb).cutTo br b
  let s := s.setBunTx br b 1
  if ran then (s.bunCount br b 0x8C0 1).bunCount br b 0x8B8 1 else s

/-- The receive half trains anew. -/
def Seg.trainRx (s : Seg) (br b : Nat) : Seg :=
  let mid := (s.bun br b).mid
  ((s.modBun br b Bundle.noRx).cutFrom br b mid).setBunRx br b 1

/-- Training of both directions starts: FSN and credits start anew. -/
def Seg.trainStart (s : Seg) (br b : Nat) : Seg := ((s.trainTx br b).trainRx br b).noteBridge br

/-- The bundle may train: not while the bypass is closed, and not out of the saggared state (R396). -/
def Seg.mayTrain (s : Seg) (br b : Nat) : Bool := s.pins.bypOpen && s.bunTx br b != 5

/-- A retrain of both directions of a bundle. -/
def Seg.retrain (s : Seg) (br b : Nat) : Seg := if s.mayTrain br b then s.trainStart br b else s

/-- A retrain of the transmit direction (R388). -/
def Seg.retrainTx (s : Seg) (br b : Nat) : Seg := if s.mayTrain br b then (s.trainTx br b).noteBridge br else s

/-- BUNDLE_TRAIN_START (R394): a direction starts training at join or retrain; a wake starts its own. -/
def execBundleTrainStart (g : Fin 4) (br : Fin 2) (bundle : Fin 24) (s : State) : Result :=
  onBridge s g fun s =>
    if s.bunTx br bundle = 1 ∨ s.bunRx br bundle = 1 then s
    else
      let s := s.when (s.pins.bypOpen && s.rd (pgBr 0) Reg.BR.RING_STAT_JOIN_STATE == 1) fun s =>
        s.wr (pgBr 0) Reg.BR.RING_STAT_JOIN_STATE 2
      s.retrain br bundle

/-- Lanes of the receive half that are newly failed: marked, counted, and their events. -/
def Seg.failLanes (s : Seg) (br b : Nat) (good : BitVec 17) (inj : Bool := false) : Seg :=
  let p := pgBr br
  let bad := (List.range 17).filter fun l => !good.getLsbD l && !s.bit p (0x144 + 8 * b) l
  let s := s.each bad fun s l => (s.bunCount br b 0x880 1).evt p 8 (brSynd b true l) inj
  s.wr p (Reg.BR.BUNDLE_LANE_LANE_BAD.at8 b) (131071 - good.toNat)

/-- The receive half takes the lane map of `good`: width, spare, and what changes with them. -/
def Seg.rxWidth (s : Seg) (br b : Nat) (good : BitVec 17) (inj : Bool := false) : Seg :=
  let p := pgBr br
  let was := s.bunRx br b
  let w := widthOf good
  let spare := spareFor good
  let old := s.rd p (Reg.BR.BUNDLE_SPARE_FOR.at8 b)
  let s := (s.failLanes br b good inj).modBun br b fun x => { x with rxMap := good, laneNext := none }
  let s := s.wr p (Reg.BR.BUNDLE_SPARE_FOR.at8 b) spare
  let s := s.when (spare != 31 && spare != old) fun s => (s.bunCount br b 0x888 1).evt p 9 (brSynd b true spare) inj
  let s := s.when (w == 3 && was != 3) fun s => (s.bunCount br b 0x890 1).evt p 10 (brSynd b true) inj
  if w = 5 then s.bundleLost br b true inj else s.setBunRx br b w

/-- The receive half adopts the lane map it asked for, at the RESYNC that begins it (R396). -/
def Seg.laneAdopt (s : Seg) (br b : Nat) : Seg :=
  match (s.bun br b).laneNext with
  | some (good, inj) => (s.rxWidth br b good inj).noteBridge br
  | none => s

/-- HELLO of this segment (R404). -/
def Seg.hello (s : Seg) : Hello :=
  { segNum := Fin.ofNat 4 s.strap, joined := s.flag pgSeg Reg.SEG.SEG_ID_JOINED,
    anchorValid := s.ctl.ring.anchorValid, anchor := s.ctl.ring.anchor,
    version := (s.word pgSeg 0x104).truncate 24,
    nonce := s.ctl.nonce, digest := s.word64 pgSeg 0x148, ftb := s.ftb, epoch := s.ctl.epoch,
    ringVer := s.ctl.ring.ver, joinedSet := s.ctl.ring.joined }

/-- A pair is trained once it has a time bundle (R401, R405): it is up, and HELLO goes out. -/
def Seg.pairTrained (s : Seg) (br : Nat) : Seg :=
  if (s.br br).up || (s.timeBundle br).isNone then s
  else
    let s := s.setBr br { s.br br with up := true, retrain := false }
    ((s.evt (pgBr br) 15).count (pgBr br) 0x8E8).ringMsg br s.hello.flits

/-- The lanes that pass: those named, but for one whose IDLE bits disagree with its scrambler (R380, R394). -/
def TrainLook.passed (r : TrainLook) : BitVec 17 :=
  (r.idle.filter fun e => !idleChecks e.2).foldl (fun m e => m &&& ~~~(BitVec.ofNat 17 (2 ^ e.1.val))) r.lanes

/-- The LANE frame of a receive half with lanes `good`: the lowest failed lane, 31 for none (R386, R394). -/
def laneSays (good : BitVec 17) : Nat × Bool × BitVec 17 :=
  (((List.range 17).find? (fun l => !good.getLsbD l)).getD 31, widthOf good != 2, good)

/-- BUNDLE_TRAIN_COMPLETE (R377, R378, R394–R396): each half in training takes the width its lanes allow; a training that
did not follow a wake resets FSN and credits, and sends LANE. -/
def execBundleTrainComplete (g : Fin 4) (br : Fin 2) (bundle : Fin 24) (look : TrainLook) (txLanes : BitVec 17) (s : State) :
    Result :=
  onBridge s g fun s =>
    let b := bundle.val
    let rx := decide (s.bunRx br b = 1)
    let tx := decide (s.bunTx br b = 1)
    if !rx && !tx then s
    else
      let x := s.bun br b
      let good := if x.keepRx then x.rxMap &&& look.passed else look.passed
      let s := s.when rx fun s =>
        (s.modBun br b fun x => if x.keepRx then { x with keepRx := false, discard := false }
          else { x with rxFsn := 0, discard := false, freed := [], laneDue := some (laneSays good) }).rxWidth br b good
      let mask := if x.keepTx then x.txMap &&& txLanes else txLanes
      let s := s.when (tx && s.bunTx br b == 1) fun s =>
        let s := s.modBun br b fun x => if x.keepTx then { x with keepTx := false, txMap := mask }
          else { x with fsn := 0, cred := [], seen := [], txMap := mask }
        if widthOf mask = 5 then s.bundleLost br b false else s.setBunTx br b (widthOf mask)
      (s.noteBridge br).pairTrained br |>.noteBridge br

/-! ### Replay and frames (R385–R389) -/

/-- A replay starts at the next block boundary (R388): RESYNC, then every unacknowledged frame. After 16 in a row that did
not advance ACK the direction retrains in its place. -/
def Seg.startReplay (s : Seg) (br b : Nat) : Seg :=
  if 16 ≤ (s.bun br b).replays then s.retrainTx br b
  else
    (s.modBun br b fun x => { x with resend := x.replay, resyncDue := true, replays := x.replays + 1 }).bunCount br b 0x868 1

/-- ACK: frames before `ack` leave the replay buffer, within a window of 128 (R387). -/
def Bundle.acked (x : Bundle) (ack : BitVec 8) : Bundle :=
  let gone := fun f : TxFrame => decide (1 ≤ (ack - f.fsn).toNat ∧ (ack - f.fsn).toNat ≤ 128)
  { x with replay := x.replay.filter (fun f => !gone f), resend := x.resend.filter (fun f => !gone f),
           replays := if x.replay.any gone then 0 else x.replays }

/-- CIDX and CCNT: the difference from the count accepted last is added to the credits (R389). -/
def Bundle.credited (x : Bundle) (cidx : Nat) (ccnt : BitVec 8) : Bundle :=
  match creditKeys[cidx]? with
  | none => x
  | some k =>
    let d := (ccnt.toNat + 256 - SMap.get 0 x.seen k) % 256
    let depth := bunDepth (planeOf (k / 8)) (k % 8)
    { x with seen := SMap.put 0 x.seen k ccnt.toNat
             cred := SMap.put depth x.cred k (min depth (SMap.get depth x.cred k + d)) }

/-- A flit of the ring's own control packets, which end at the bridge (R386). -/
def ringHead (f : Flit) : Bool :=
  match f.body with | .mgtHead h => h.fab && eidLocal h.dest == 0x3F0 | _ => false

/-- A flit put into its receive buffer, or taken by the bridge with its slot freed. -/
def Bundle.store (x : Bundle) (pl : Nat) (f : Flit) (tick : BitVec 9) : Bundle :=
  let k := 8 * pl + f.vc
  if pl = 3 ∧ f.vc = 0 ∧ (ringHead f || x.rxMsg) = true then
    { x with rxMsg := !f.tail, freed := SMap.put 0 x.freed k ((SMap.get 0 x.freed k + 1) % 256) }
  else { x with rxbuf := SMap.put [] x.rxbuf k (x.got pl f.vc ++ [(f, tick)]) }

/-- The receive half discards until RESYNC, and owes one NAK (R387). -/
def Bundle.refuse (x : Bundle) : Bundle := { x with discard := true, resynced := false, nakDue := true }

/-- FRAME_RECEIVE (R379, R381, R382, R384–R387, R389). -/
def execFrameReceive (g : Fin 4) (br : Fin 2) (bundle : Fin 24) (f : RxFrame) (s : State) : Result :=
  onBridge s g fun s =>
    let b := bundle.val
    if !running (s.bunRx br b) then s
    else
      let s := ((s.bunCount br b 0x878 f.corrected).bunCount br b 0x898 f.stuffed).bunCount br b 0x8A0 f.slips
      let s := s.when f.resync fun s => (s.modBun br b fun x => { x with discard := false, resynced := true }).laneAdopt br b
      let x := s.bun br b
      let depth := bunDepth f.plane f.vc
      if !running (s.bunRx br b) then s
      else if !f.good then
        (s.bunCount br b 0x860 1).modBun br b fun x => if x.discard then x else x.refuse
      else if x.discard then s
      else if !f.known then s.modBun br b Bundle.refuse
      else match f.flit with
        | none => s.modBun br b fun x => (x.acked f.ack).credited f.cidx f.ccnt
        | some fl =>
          if depth = 0 then s.modBun br b Bundle.refuse
          else if f.fsn = x.rxFsn then
            (s.modBun br b fun x =>
              { ((x.acked f.ack).credited f.cidx f.ccnt).store f.plane.code { fl with vc := f.vc } f.tick with
                rxFsn := x.rxFsn + 1, resynced := false, ackOwed := true }).bunCount br b 0x8B0 1
          else if x.resynced && decide (1 ≤ (x.rxFsn - f.fsn).toNat ∧ (x.rxFsn - f.fsn).toNat ≤ 128) then s
          else s.modBun br b Bundle.refuse

/-- NAK_RECEIVE (R229, R232, R388): FSN expected acknowledges what lies before it; a replay starts. -/
def execNakReceive (g : Fin 4) (br : Fin 2) (bundle : Fin 24) (fsn : Byte) (s : State) : Result :=
  onBridge s g fun s =>
    if running (s.bunTx br bundle) then (s.modBun br bundle fun x => x.acked fsn).startReplay br bundle else s

/-- REPLAY_TIMEOUT (R232, R388). -/
def execReplayTimeout (g : Fin 4) (br : Fin 2) (bundle : Fin 24) (s : State) : Result :=
  onBridge s g fun s =>
    if running (s.bunTx br bundle) && !(s.bun br bundle).replay.isEmpty then s.startReplay br bundle else s

/-- BRIDGE_RETRAIN_TIMEOUT (R388, R395): ACK has not moved for 16 replays or 10 µs. -/
def execBridgeRetrainTimeout (g : Fin 4) (br : Fin 2) (bundle : Fin 24) (s : State) : Result :=
  onBridge s g fun s =>
    if running (s.bunTx br bundle) && !(s.bun br bundle).replay.isEmpty then s.retrainTx br bundle else s

/-! ### Lane failure (R396) -/

/-- A lane of the receive half fails: LANE goes out on the reverse direction, and frames are discarded to the RESYNC at which
the map changes. With too few lanes left the bundle is saggared at once, LANE its last frame. -/
def Seg.laneFail (s : Seg) (br b lane : Nat) (inj : Bool := false) : Seg :=
  let x := s.bun br b
  let have_ := (x.laneNext.map (·.1)).getD x.rxMap
  if !running (s.bunRx br b) || !have_.getLsbD lane then s
  else
    let good := have_ &&& ~~~(BitVec.ofNat 17 (2 ^ lane))
    if widthOf good = 5 then (s.rxWidth br b good inj).modBun br b fun x =>
      let e : Sent := { frame := .lane lane true good }
      { x with out := { kind := .data, frames := [e], units := e.words } }
    else (s.failLanes br b good inj).modBun br b fun x =>
      { x with laneDue := some (lane, widthOf good != 2, good), laneNext := some (good, inj), discard := true, resynced := false,
               nakDue := false }

/-- LANE_FAIL (R377, R396): lock loss, bad blocks or a failed SLIP check. -/
def execLaneFail (g : Fin 4) (br : Fin 2) (bundle : Fin 24) (lane : Fin 17) (s : State) : Result :=
  onBridge s g fun s => s.laneFail br bundle lane

/-- LANE_FRAME_RECEIVE (R378, R394–R396): the transmit half takes the new lane map and replays; LANE 31 names no failed lane.
While the receive half trains it is step 6, which a wake leaves out: the half trains anew. -/
def execLaneFrameReceive (g : Fin 4) (br : Fin 2) (bundle : Fin 24) (lane : Fin 32) (half : Bool) (mask : BitVec 17)
    (s : State) : Result :=
  onBridge s g fun s =>
    let b := bundle.val
    let map := mask &&& ~~~(BitVec.ofNat 17 (2 ^ lane.val))
    let st := if half then 3 else widthOf mask
    if s.bunRx br b = 1 then (if (s.bun br b).keepRx then s.trainRx br b else s)
    else if !running (s.bunTx br b) then s
    else if widthOf mask = 5 then s.bundleLost br b false
    else if map = (s.bun br b).txMap ∧ st = s.bunTx br b then s
    else (((s.modBun br b fun x => { x with txMap := map }).setBunTx br b st).startReplay br b).noteBridge br

/-! ### Sleep (R397–R399) -/

/-- The active bundle slot table holds an owned start. -/
def Seg.ownedStart (s : Seg) (br b : Nat) : Bool :=
  let bk := s.rd (pgBr br) Reg.BR.BSLOT_STAT_ACTIVE
  s.bslots.any fun e => e.1 / 512 == (br * 2 + bk) * 24 + b && (e.2 == 1 || e.2 == 2)

/-- SLEEP_EN as it acts: 0 while BR_CTRL is mismatched (R430). -/
def Seg.sleepEn (s : Seg) (br : Nat) : Bool := s.flag (pgBr br) Reg.BR.BR_CTRL_SLEEP_EN && !s.mismatched (pgBr br) 0x100

/-- BUNDLE_SLEEP_ENTRY (R397): IDLE_TO has passed with the transmit half idle. -/
def execBundleSleepEntry (g : Fin 4) (br : Fin 2) (bundle : Fin 24) (s : State) : Result :=
  onSeg s g fun s =>
    let b := bundle.val
    let x := s.bun br b
    let quiet := x.txq.isEmpty && x.replay.isEmpty && x.cred.isEmpty && x.rxbuf.isEmpty && !x.ackOwed && !x.nakDue
      && x.laneDue.isNone && x.after.isNone && !x.resyncDue && x.claim == 0 && (x.left == 0 || x.cur.all (fun e => e.frame == .idle))
    if running (s.bunTx br b) && s.sleepEn br && s.timeBundle br != some b
        && !s.ownedStart br b && running (s.bunTx br (rowMate b)) && quiet then
      let half := s.bunTx br b == 3
      ((s.modBun br b fun x => { x with out := { kind := .drowse }, cur := none, left := 0 }.onLine half).setBunTx br b
        4).bunCount br b 0x8C0 1
    else s

/-- DROWSE_RECEIVE (R397): DROWSE has come on the lanes of `look`; nine mapped ones of them put the half to sleep. -/
def execDrowseReceive (g : Fin 4) (br : Fin 2) (look : DrowseLook) (s : State) : Result :=
  onSeg s g fun s =>
    let bundle := look.bundle
    let st := s.bunRx br bundle
    let mapped := (laneMap (s.bun br bundle).rxMap (st == 3)).filter fun l => look.lanes.getLsbD l
    if running st && decide (9 ≤ mapped.length) then s.setBunRx br bundle 4 else s

/-- At segment level AON a bridge direction is one of the domains whose wake ends the level (R464). -/
def Seg.bundleEndsLevel (s : Seg) : Seg := if s.rd pgPwr Reg.PWR.PWR_SEG_STAT_LEVEL = 3 then s.levelEnds else s

/-- A sleeping transmit half wakes: it trains, keeping its map, FSN and credits. -/
def Seg.bundleWake (s : Seg) (br b : Nat) : Seg :=
  if s.bunTx br b = 4 then
    let s := s.modBun br b fun x => { x with keepTx := true, out := {} }.newTraining s.ftb
    ((s.setBunTx br b 1).bunCount br b 0x8B8 1).bundleEndsLevel
  else s

/-- BUNDLE_WAKE (R398). -/
def execBundleWake (g : Fin 4) (br : Fin 2) (bundle : Fin 24) (s : State) : Result :=
  onSeg s g fun s => s.bundleWake br bundle

/-- RXEI_FALL_WAKE (R398, R469): the receive half, the edge tile and a halted AON controller wake. -/
def execRxeiFallWake (g : Fin 4) (br : Fin 2) (bundle : Fin 24) (s : State) : Result :=
  onSeg s g fun s =>
    let b := bundle.val
    let t := edgeTile br b
    let asleep := decide (s.bunRx br b = 4)
    let tile := decide (1 ≤ s.stTile t ∧ s.stTile t ≤ 3) || s.stTile t == 5
    let s := s.when asleep fun s =>
      ((s.modBun br b fun x => { x with keepRx := true }).setBunRx br b 1).bundleEndsLevel
    if tile then s.tileWakeReq t 0x838
    else if asleep && !s.ctl.halted then s.count pgPwr 0x838 else s.aonWake 0x838

/-- PAIR_RETURN_HOLD_EXPIRY (R399): the partner still holds frames of the pair after 2 µs, and the pair stays there. -/
def execPairReturnHoldExpiry (g : Fin 4) (br : Fin 2) (bundle : Fin 24) (src dest : BitVec 12) (s : State) : Result :=
  onSeg s g fun s =>
    let c := rowMate bundle.val
    let pr := (src, dest)
    let x := s.bun br c
    if x.pairs.contains pr && s.holdsPair br c pr && !x.stay.contains pr then
      s.modBun br c fun x => { x with stay := pr :: x.stay }
    else s

/-! ### Bundle slots (R391–R393, R411) -/

/-- Bundle slot entry `i` of a physical bank. -/
def Seg.bslot (s : Seg) (br bk b i : Nat) : Nat := SMap.get 0 s.bslots (kBslot br bk b i)

/-- Ticks an entry claims: 3 × SPAN. -/
def spanOf (e : Nat) : Nat := if e % 4 = 3 then 0 else e % 4

/-- A swap is pending or the shadow is under validation. -/
def Seg.bswapBusy (s : Seg) (br : Nat) : Bool :=
  s.flag (pgBr br) Reg.BR.BSLOT_STAT_SWAP_PEND || s.flag (pgBr br) Reg.BR.BSLOT_STAT_VALIDATING

/-- A write of BSLOT_DATA (R238, R411): eight shadow entries, or LOCK_HIT. -/
def Seg.bslotDataWrite (s : Seg) (br : Nat) (w : Word) : Seg :=
  let p := pgBr br
  let b := s.rd p Reg.BR.BSLOT_ADDR_BUNDLE
  let i := s.rd p Reg.BR.BSLOT_ADDR_INDEX / 8 * 8
  if s.flag p Reg.BR.BSLOT_ADDR_BANK || decide (24 ≤ b) || s.bswapBusy br then s.lockHit p
  else
    let bk := 1 - s.rd p Reg.BR.BSLOT_STAT_ACTIVE
    let s := s.each (List.range 8) fun s n =>
      { s with bslots := SMap.put 0 s.bslots (kBslot br bk b (i + n)) (w.toNat / 16 ^ n % 4) }
    s.wr p Reg.BR.BSLOT_ADDR_INDEX (i + 8)

/-- BSLOT_DATA as it reads. -/
def Seg.bslotDataRead (s : Seg) (br : Nat) : Word :=
  let p := pgBr br
  let a := s.rd p Reg.BR.BSLOT_STAT_ACTIVE
  let bk := if s.flag p Reg.BR.BSLOT_ADDR_BANK then a else 1 - a
  let i := s.rd p Reg.BR.BSLOT_ADDR_INDEX / 8 * 8
  BitVec.ofNat 32 ((List.range 8).foldl (fun v n =>
    v + s.bslot br bk (s.rd p Reg.BR.BSLOT_ADDR_BUNDLE) (i + n) * 16 ^ n) 0)

/-- How many ticks of a bundle's table are claimed, and whether two claims meet. -/
def Seg.bslotClaims (s : Seg) (br bk b : Nat) : Nat × Bool :=
  let starts := (List.range 512).filterMap fun i =>
    let n := spanOf (s.bslot br bk b i)
    if n = 0 then none else some (i, 3 * n)
  let total := starts.foldl (fun a e => a + e.2) 0
  let meets := starts.any fun a => starts.any fun c => a.1 != c.1 && decide ((c.1 + 512 - a.1) % 512 < a.2)
  (total, meets)

/-- The first refusal among the 24 tables (R392): the reason and the bundle. -/
def Seg.bslotRefusal (s : Seg) (br : Nat) : Option (Nat × Nat) :=
  let bk := 1 - s.rd (pgBr br) Reg.BR.BSLOT_STAT_ACTIVE
  (List.range 24).findSome? fun b =>
    let (total, meets) := s.bslotClaims br bk b
    if meets then some (2, b) else if 192 < total then some (1, b) else none

/-- The bits of BSLOT_CTRL that start something (R392, R411): CLEAR before COPY, which end at once, and a swap request,
which is validated at once. DESIGN CHOICE, log 20. -/
def Seg.bslotCtrl (s : Seg) (br : Nat) (w : Word) : Seg :=
  let p := pgBr br
  let copy := Reg.BR.BSLOT_CTRL_COPY.get w == 1
  let clear := Reg.BR.BSLOT_CTRL_CLEAR.get w == 1
  let a := s.rd p Reg.BR.BSLOT_STAT_ACTIVE
  let s := if !(copy || clear) then s
    else if s.bswapBusy br then s.lockHit p
    else
      let mine := fun (bk k : Nat) => k / 512 / 24 == br * 2 + bk
      let old := s.bslots.filter (fun e => !mine (1 - a) e.1)
      if clear then { s with bslots := old }
      else (old.filter (fun e => mine a e.1)).foldl (fun s e =>
        { s with bslots := SMap.put 0 s.bslots (e.1 - a * 12288 + (1 - a) * 12288) e.2 }) { s with bslots := old }
  if Reg.BR.BSLOT_CTRL_SWAP_REQ.get w = 1 ∧ s.bswapBusy br = false then
    match s.bslotRefusal br with
    | some (reason, b) =>
      let s := (s.wr p Reg.BR.BSLOT_STAT_REASON reason).wr p Reg.BR.BSLOT_STAT_FAIL_BUNDLE b
      (s.wr p Reg.BR.BSLOT_STAT_REFUSED 1).evt p 19 (brSynd b false)
    | none =>
      let s := (s.wr p Reg.BR.BSLOT_CTRL_SWAP_REQ 1).wr p Reg.BR.BSLOT_STAT_SWAP_PEND 1
      ((s.wr p Reg.BR.BSLOT_STAT_REASON 0).wr p Reg.BR.BSLOT_STAT_FAIL_BUNDLE 0).wr p Reg.BR.BSLOT_STAT_DELAYS 0
  else s

/-- LANE_CMD with OP 0b01 (R395): the named bundle retrains; BUSY until it is trained. -/
def Seg.laneCmd (s : Seg) (br : Nat) (w : Word) : Seg :=
  let b := Reg.BR.LANE_CMD_BUNDLE.get w
  if Reg.BR.LANE_CMD_OP.get w = 1 ∧ b < 24 then
    (s.setBr br { s.br br with laneRun := some b }).retrain br b |>.noteBridge br
  else s

/-- A VC3 flit waits in a transmit half, with a credit for it: its plane. -/
def Bundle.vc3Waiting (x : Bundle) : Option Nat :=
  [0, 1].find? fun pl => !(x.waiting pl 3).isEmpty && decide (0 < x.credit pl 3)

/-- BUNDLE_START_LAPSE (R393): no VC3 flit has come 1.6 ns after the owned start's tick. -/
def execBundleStartLapse (g : Fin 4) (br : Fin 2) (bundle : Fin 24) (s : State) : Result :=
  onSeg s g fun s =>
    s.modBun br bundle fun x => if x.vc3Waiting.isNone then { x with claim := 0 } else x

/-- BRIDGE_C1_RELEASE (R393): the first VC3 flit of a plane goes to the edge router at its release tick, or late. -/
def execBridgeC1Release (g : Fin 4) (br : Fin 2) (bundle : Fin 24) (plane : Plane) (s : State) : Result :=
  onSeg s g fun s =>
    let b := bundle.val
    let pl := plane.code
    let t := edgeTile br b
    match (s.bun br b).got pl 3 with
    | [] => s
    | (f, tick) :: q =>
      let now := (s.tftb t).toNat % 512
      let past := (now + 1024 - (tick.toNat + 23)) % 512
      if 256 ≤ past then s
      else
        let k := 8 * pl + 3
        let s := s.modBun br b fun x =>
          { x with rxbuf := SMap.put [] x.rxbuf k q, freed := SMap.put 0 x.freed k ((SMap.get 0 x.freed k + 1) % 256) }
        let s := s.setLanding t pl (edgePort br).code (s.landingOf t pl (edgePort br).code ++ [f])
        if past = 0 then s else (s.bunCount br b 0x8C8 1).evt (pgBr br) 21 (brSynd b true)

/-! ### The framer (R232, R379, R382, R383, R385, R387–R389, R391, R393) -/

/-- The time of unit `at_` of a block slot, from the slot's start, in 1/9600 µs: a tick is 8000 ÷ 9600 ns, a unit at full
width 990 ÷ 9600 ns. -/
def Seg.unitAt (s : Seg) (br b at_ : Nat) : Nat := 990 * (if s.bunTx br b = 3 then 2 else 1) * at_

/-- A frame of `units` units begun at unit `at_` would still be in serialisation 0.8 ns after an owned start's tick. -/
def Seg.startBlocked (s : Seg) (br b at_ units : Nat) : Bool :=
  let bk := s.rd (pgBr br) Reg.BR.BSLOT_STAT_ACTIVE
  let t0 := s.unitAt br b at_
  let t1 := s.unitAt br b (at_ + units)
  (List.range 24).any fun d =>
    decide (t0 ≤ 8000 * d + 7680 ∧ 8000 * d + 7680 < t1) && spanOf (s.bslot br bk b ((s.ftb.toNat + d) % 512)) != 0

/-- A pending swap has waited for 16 boundaries: no owned start that would reach the next one is taken (R241, R392). -/
def Seg.bslotForcing (s : Seg) (br : Nat) : Bool :=
  s.flag (pgBr br) Reg.BR.BSLOT_STAT_SWAP_PEND && decide (16 ≤ s.rd (pgBr br) Reg.BR.BSLOT_STAT_DELAYS)

/-- The owned starts whose ticks have come since the last look, up to unit `at_`: the last is in force until its flits have
gone or it lapses. -/
def Seg.readStart (s : Seg) (br b at_ : Nat) : Seg :=
  let x := s.bun br b
  let now := s.ftb + BitVec.ofNat 64 (s.unitAt br b at_ / 8000)
  let back := match x.startAt with
    | some t => if (now - t).toNat ≤ 24 then (now - t).toNat else 1
    | none => 1
  let claim := (List.range back).foldl (fun c i =>
    let k := (now.toNat + 2 ^ 64 - (back - 1 - i)) % 512
    let n := spanOf (s.bslot br (s.rd (pgBr br) Reg.BR.BSLOT_STAT_ACTIVE) b k)
    if n = 0 ∨ (s.bslotForcing br = true ∧ 512 < k + 3 * n) then c else n) x.claim
  s.setBun br b { x with startAt := some now, claim := claim, begun := x.begun && claim == x.claim }

/-- The keys whose first flit could be framed at unit `at_`. -/
def Seg.frameable (s : Seg) (br b at_ : Nat) : List Nat :=
  let x := s.bun br b
  creditKeys.filter fun k =>
    !(x.waiting (k / 8) (k % 8)).isEmpty && decide (0 < x.credit (k / 8) (k % 8))
      && !s.startBlocked br b at_ (frameUnits (k / 8))

/-- A frame begins, with ACK and the next credit index in rotation. -/
def Bundle.send (x : Bundle) (fr : Frame) : Bundle :=
  let k := creditKeys.getD x.cidx 0
  let e : Sent := { frame := fr, ack := x.rxFsn, cidx := x.cidx, ccnt := BitVec.ofNat 8 (SMap.get 0 x.freed k) }
  { x with out := { x.out with frames := x.out.frames ++ [e] }, cur := some e, left := fr.units
           cidx := (x.cidx + 1) % 20, ackOwed := false }

/-- The first flit of key `k` leaves in a new flit frame: sequenced, kept for replay, its credit used. -/
def Seg.sendFlit (s : Seg) (br b k : Nat) : Seg :=
  let x := s.bun br b
  match x.waiting (k / 8) (k % 8) with
  | [] => s
  | (f, tick) :: q =>
    let pl := k / 8
    let fr : TxFrame := { fsn := x.fsn, plane := planeOf pl, flit := f, tick := tick }
    let wait := SMap.get 0 x.waits k
    let depth := bunDepth (planeOf pl) (k % 8)
    let x := { x with
      txq := SMap.put [] x.txq k q
      fsn := x.fsn + 1
      replay := x.replay ++ [fr]
      cred := SMap.put depth x.cred k (SMap.get depth x.cred k - 1)
      waits := SMap.put 0 x.waits k 0
      lastWin := pl }
    let s := (s.setBun br b (x.send (.flit fr))).spend (90 * planeBits pl)
    ((s.bunCount br b 0x8A8 1).bunCount br b (0x800 + 0x18 * pl) 1).countMax (pgBr br) b (0x810 + 0x18 * pl) wait

/-- The keys that have a flit and a credit for it: what the planes ask for. -/
def Bundle.asking (x : Bundle) : List Nat :=
  creditKeys.filter fun k => !(x.waiting (k / 8) (k % 8)).isEmpty && decide (0 < x.credit (k / 8) (k % 8))

/-- The keys that lose the bundle now: what asks, a VC3 flit only where its owned start is lost to the replay, and nothing
while 64 frames are unacknowledged (R242, R387). -/
def Bundle.losing (x : Bundle) : List Nat :=
  if 64 ≤ x.replay.length then []
  else x.asking.filter fun k => k % 8 != 3 || (decide (0 < x.claim) && !x.resend.isEmpty)

/-- `n` bundle cycles pass: what asks and has not gone has waited, each plane counted once (R232, R413). A bundle cycle is an
eighth of a block slot (DESIGN CHOICE, log 118). -/
def Seg.noteBundleWaits (s : Seg) (br b n : Nat) : Seg :=
  if n = 0 then s
  else
    let x := s.bun br b
    let s := s.setBun br b { x with waits := x.losing.foldl (fun m j => SMap.put 0 m j (SMap.get 0 m j + n)) x.waits }
    s.each (x.losing.map (· / 8)).eraseDups fun s p => s.bunCount br b (0x808 + 0x18 * p) n

/-- The plane's flit that has waited longest; between planes the longest wait again, a tie to the plane after the last
winner (R232). -/
def Seg.pickFlit (s : Seg) (br b at_ : Nat) : Option Nat :=
  let x := s.bun br b
  let w := fun k => SMap.get 0 x.waits k
  let order := (List.range 4).flatMap fun d => (s.frameable br b at_).filter fun k => k / 8 == (x.lastWin + 1 + d) % 4
  order.foldl (fun a k => match a with | some j => if w j < w k then some k else some j | none => some k) none

/-- A waiting control packet of the ring is put in line on MGT VC0 of the time bundle (R386); a HELLO takes FTB there (R404). -/
def Seg.takeMsg (s : Seg) (br b : Nat) : Seg :=
  let x := s.bun br b
  match (s.br br).msgs with
  | (h :: pay) :: rest =>
    if s.timeBundle br = some b ∧ x.waiting 3 0 = [] then
      let pay := if pay.length = 4 then pay.set 2 s.ftb else pay
      let fs := (mgtFlits (MgtHdr.ofBits h 0) pay 0).map fun f => (f, (0 : BitVec 9))
      (s.setBr br { s.br br with msgs := rest }).modBun br b fun x => { x with txq := SMap.put [] x.txq 24 fs }
    else s
  | [] :: rest => s.setBr br { s.br br with msgs := rest }
  | [] => s

/-- FTB with 4 fraction bits at unit `at_` of a block slot (R409). -/
def Seg.stampAt (s : Seg) (br b at_ : Nat) : BitVec 64 := s.ftb * 16 + BitVec.ofNat 64 (s.unitAt br b at_ * 16 / 8000)

/-- A new frame of a half with nothing to replay: the owned start's flit, TIME, the winner of the planes, or an IDLE control
frame (R232, R387, R393). -/
def Seg.newFrame (s : Seg) (br b at_ : Nat) : Seg :=
  let x := s.bun br b
  let idle := s.setBun br b (x.send .idle)
  if 0 < x.claim then
    match x.vc3Waiting with
    | some pl =>
      if 64 ≤ x.replay.length then idle
      else (s.modBun br b fun x => { x with claim := x.claim - 1, begun := true }).sendFlit br b (8 * pl + 3)
    | none => idle
  else if x.timeDue && !s.startBlocked br b at_ 4 then
    s.setBun br b ({ x with timeDue := false }.send (.time x.timeSeq (s.stampAt br b at_) x.rxStamp x.rxSeq))
  else if 64 ≤ x.replay.length then idle
  else match s.pickFlit br b at_ with
    | some k => s.sendFlit br b k
    | none => idle

/-- The next frame of a half in service begins at unit `at_`: LANE, NAK, the replay, a control frame the replay abandoned, or
a new frame. -/
def Seg.startFrame (s : Seg) (br b at_ : Nat) : Seg :=
  let x := s.bun br b
  match x.laneDue, x.resend, x.after with
  | some (l, half, mask), _, _ => s.setBun br b ({ x with laneDue := none }.send (.lane l half mask))
  | none, fs, after =>
    if x.nakDue then s.setBun br b ({ x with nakDue := false }.send (.nak x.rxFsn))
    else match fs, after with
      | f :: fs, _ => (s.setBun br b ({ x with resend := fs }.send (.flit f))).bunCount br b 0x870 1
      | [], some fr => s.setBun br b ({ x with after := none }.send fr)
      | [], none => s.newFrame br b at_

/-- The next `n` units of the frame in progress go into the block slot. -/
def Bundle.putUnits (x : Bundle) (n : Nat) : Bundle :=
  let w := match x.cur with | some e => e.words | none => []
  { x with left := x.left - n, out := { x.out with units := x.out.units ++ (w.drop (w.length - x.left)).take n } }

/-- `room` units of the stream from unit `at_` of a block slot of `size` units on: frames follow one another with no gap
(R383), and what is not sent waits. -/
def Seg.fillSlot (br b size : Nat) : Nat → Nat → Nat → Seg → Seg
  | 0, _, _, s => s
  | fuel + 1, at_, room, s =>
    if room = 0 then s
    else
      let s := if (s.bun br b).left = 0 then ((s.readStart br b at_).takeMsg br b).startFrame br b at_ else s
      let n := min room (s.bun br b).left
      Seg.fillSlot br b size fuel (at_ + n) (room - n)
        ((s.modBun br b fun x => x.putUnits n).noteBundleWaits br b ((at_ + n) * 8 / size - at_ * 8 / size))

/-- A RESYNC block begins a frame: the one in progress is abandoned, and a control frame goes out again after the replay
(R232, R379). A flit frame is in the replay buffer. -/
def Bundle.cutFrame (x : Bundle) : Bundle :=
  let y := { x with cur := none, left := 0, resyncDue := false }
  if x.left = 0 then y
  else match x.cur.map (·.frame) with
    | some (Frame.lane l half mask) => { y with after := some (.lane l half mask) }
    | some (Frame.nak fsn) => { y with after := some (.nak fsn) }
    | some (Frame.time ..) => { y with timeDue := true }
    | _ => y

/-- BUNDLE_BLOCK_SLOT (R232, R378–R383, R387–R391, R393, R394): one block slot of a transmit half. -/
def execBundleBlockSlot (g : Fin 4) (br : Fin 2) (bundle : Fin 24) (s : State) : Result :=
  onSeg s g fun s =>
    let b := bundle.val
    let st := s.bunTx br b
    let x := s.bun br b
    let sent := fun (s : Seg) => s.modBun br b fun x => x.onLine (st == 3)
    if !(st == 1 || running st) then s
    else if st = 1 ∧ 0 < x.kindle then
      (sent (s.setBun br b { x with out := { kind := .kindle } })).modBun br b fun x => { x with kindle := x.kindle - 1 }
    else
      let x := { x with slots := x.slots + 1 }
      if x.slots % (if st = 1 then 16 else 1024) = 0 then
        let s := sent (s.setBun br b { x with out := { kind := .slip } })
        if st = 1 then s else s.noteBundleWaits br b 8
      else if st = 1 then sent (s.setBun br b { x with out := { kind := .idle } })
      else
        let y := { (if x.resyncDue then x.cutFrame else x) with out := { kind := if x.resyncDue then .resync else .data } }
        sent (Seg.fillSlot br b (slotUnits st) 40 0 (slotUnits st) (s.setBun br b y))

/-! ### Pairs (R401) -/

/-- PAIR_DOWN (R366, R401): every bundle of the pair is lost at once: nothing is saggared, the pair is closed and retrains. -/
def execPairDown (g : Fin 4) (br : Fin 2) (s : State) : Result :=
  onBridge s g fun s =>
    if !s.flag pgSeg Reg.SEG.SEG_ID_JOINED || !(s.br br).up then s
    else
      let s := s.each ((List.range 24).filter (fun b => s.bunTx br b != 5)) fun s b =>
        ((s.setBunTx br b 0).setBunRx br b 0).cutBundle br b fun _ => {}
      let s := s.setBr br { s.br br with up := false, retrain := true, okRun := 0, msgs := [] }
      let s := s.wr (pgBr br) Reg.BR.BR_STAT_TIME_OK 0
      ((s.count (pgBr br) 0x8E0).evt (pgBr br) 14).noteBridge br

/-- PAIR_RETRAIN_TIMER (R401): each bundle of a down pair trains again. -/
def execPairRetrainTimer (g : Fin 4) (br : Fin 2) (s : State) : Result :=
  onBridge s g fun s =>
    if (s.br br).retrain && !(s.br br).up then
      s.each ((List.range 24).filter (fun b => s.bunTx br b != 5)) fun s b => s.retrain br b
    else s

end Sys2Proof.Machine
end

