-- ==== Sys2Proof/Machine/Ring.lean ====
section
/-!
DEFINITION. The ring of segments: joining, agreement, the anchor, ring states, admission, leaving, and time across the
ring (R265, R372, R400–R410).
-/
namespace Sys2Proof.Machine

/-- JOIN_STATE (R411): 0 idle, 1 opening, 2 training, 3 handshake, 4 time, 5 joined, 6 failed, 7 leaving. -/
def Seg.joinState (s : Seg) : Nat := s.rd (pgBr 0) Reg.BR.RING_STAT_JOIN_STATE
def Seg.setJoin (s : Seg) (v : Nat) : Seg := s.wr (pgBr 0) Reg.BR.RING_STAT_JOIN_STATE v

/-- A glaze mismatch of a bridge's value acts (R430): SLEEP_EN acts as 0, so sleeping halves wake; for the ring state the
anchor has every segment report and rebuilds it, another segment asks the anchor through its parent. -/
def Seg.bridgeGlaze (s : Seg) (p off : Nat) : Seg :=
  match pageKind p with
  | some (.br, br) =>
    if !s.mismatched p off then s
    else if off = 0x100 then s.each (List.range 24) fun s b => s.bundleWake br b
    else if off = 0x128 then (if s.isAnchor then s.ringRebuild else s.tellAnchor)
    else s
  | _ => s

/-- GLAZE_MISMATCH (R63, R374, R430, R492, R506): a glazed word and its stored complement stop agreeing. -/
def execGlazeMismatch (g : Fin 4) (page off : Nat) (flip : Word) (s : State) : Result :=
  onSeg s g fun s => (s.glazeFlip page off flip false).bridgeGlaze page off

/-- BYP_OPEN falls (R88, R400, R401): every lane of both bridges is gone. -/
def Seg.closeBypass (s : Seg) : Seg :=
  let s := s.modPins fun x => { x with bypOpen := false }
  s.each [0, 1] fun s br =>
    let s := s.each ((List.range 24).filter (fun b => s.bunTx br b != 5)) fun s b =>
      ((s.setBunTx br b 0).setBunRx br b 0).cutBundle br b fun _ => {}
    let s := s.setBr br { s.br br with up := false, retrain := false, msgs := [], okRun := 0 }
    let s := ((s.wr (pgBr br) Reg.BR.BR_STAT_FAR_VALID 0).wr (pgBr br) Reg.BR.BR_STAT_SELF_LOOP 0).wr (pgBr br)
      Reg.BR.BR_STAT_TIME_OK 0
    s.noteBridge br

/-- A join fails (R400, R405, R406). -/
def Seg.joinFail (s : Seg) (reason : Nat) : Seg :=
  let p := pgBr 0
  let s := ((s.closeBypass.setJoin 6).wr p Reg.BR.RING_STAT_REASON reason).wr p Reg.BR.RING_CTRL_JOIN 0
  ((s.modCtl fun c => { c with hellos := [], okTime := 0, stepped := false }).count p 0x8F8).evt p 16

/-- The segment is joined under ring state `r` (R405 step 7). -/
def Seg.becomeJoined (s : Seg) (r : Ring) : Seg :=
  let p := pgBr 0
  let low := (r.members.head?).getD s.strap
  let r := if low = s.strap then { r with anchor := Fin.ofNat 4 s.strap, anchorValid := true } else r
  let s := ((s.adoptRing r).setJoin 5).wr p Reg.BR.RING_CTRL_JOIN 0
  let s := (s.modCtl fun c => { c with hellos := [], okTime := 0, stepped := false }).evt p 17
  s.each [0, 1] fun s br => if (s.br br).up then s.ringMsg br s.hello.flits else s

/-- The segment joins alone, as the anchor (R405). -/
def Seg.joinAlone (s : Seg) : Seg :=
  s.becomeJoined
    { joined := BitVec.ofNat 4 (2 ^ s.strap), anchor := Fin.ofNat 4 s.strap, anchorValid := true, ver := s.ctl.ring.ver + 1 }

/-- A commit of RING_CTRL.JOIN (R400, R405), or LOCK_HIT; one made while joining, joined or leaving has no effect. -/
def Seg.joinCommit (s : Seg) : Seg :=
  let p := pgBr 0
  if !s.switched || s.soak || s.enabled pgFlow || s.firstC1.isSome then s.lockHit p
  else if s.joinState ≠ 0 ∧ s.joinState ≠ 6 then s
  else
    let s := (s.modPins fun x => { x with bypOpen := true }).modCtl fun c =>
      { c with nonce := s.ftb.truncate 32, hellos := [], okTime := 0, stepped := false }
    ((s.setJoin 1).wr p Reg.BR.RING_CTRL_JOIN 1).count p 0x8F0

/-- What a HELLO disagrees with (R97, R406): 1 version, 2 digest, 3 number, 0 nothing. Version and digest are the anchor's
where the far segment is joined. -/
def Seg.helloReason (s : Seg) (br : Nat) (h : Hello) : Nat :=
  if h.joined && h.version != s.hello.version then 1
  else if h.joined && h.digest != s.hello.digest then 2
  else if h.segNum.val = s.strap then 3
  else if h.joined && nextJoined h.joinedSet s.strap (br == 0) != some h.segNum.val then 3
  else 0

/-- The HELLO last taken at a bridge. -/
def Seg.helloOf (s : Seg) (br : Nat) : Option Hello := (s.ctl.hellos.find? (fun e => e.1 == br)).map (·.2)

/-- The joiner's next step (R405, R406, R409): alone where both bridges loop or no neighbour is joined and this segment is
the lowest; time where the parent is known. -/
def Seg.joinOn (s : Seg) : Seg :=
  let loop := fun br => s.flag (pgBr br) Reg.BR.BR_STAT_SELF_LOOP
  let waits := fun br => match s.helloOf br with
    | some h => !h.joined && decide (s.strap < h.segNum.val)
    | none => false
  if s.joinState ≠ 3 then s
  else if loop 0 && loop 1 then s.joinAlone
  else if waits 0 && waits 1 then s.joinAlone
  else
    let far := fun br => match s.helloOf br with
      | some h => if h.joined && h.anchorValid then some h else none
      | none => none
    match (far 0).or (far 1) with
    | none => s
    | some h =>
      let r : Ring := { joined := h.joinedSet ||| BitVec.ofNat 4 (2 ^ s.strap) }
      let side := parentSide r s.strap h.anchor.val
      let br := side - 1
      if (far br).isSome then (s.setJoin 4).wr (pgBr 0) Reg.BR.RING_STAT_PARENT side
      else if (s.br br).up then s
      else (s.setJoin 4).wr (pgBr 0) Reg.BR.RING_STAT_PARENT (3 - side)

/-- A bridge of a joined segment faces a joined segment of another anchor, or no longer does: a segment that is not joined has
been reset (R406). -/
def Seg.partSide (s : Seg) (br : Nat) (on : Bool) : Seg :=
  let bit := BitVec.ofNat 2 (2 ^ br)
  s.modCtl fun c =>
    let m := if on then c.partSides ||| bit else c.partSides &&& ~~~bit
    { c with partSides := m, parted := m != 0 }

/-- HELLO_RECEIVE (R97, R404–R406, R418). -/
def execHelloReceive (g : Fin 4) (br : Fin 2) (h : Hello) (s : State) : Result :=
  onBridge s g fun s =>
    let p := pgBr br
    if !(s.br br).up then s
    else
      let s := s.when (s.joinState == 2) fun s => s.setJoin 3
      let loop := h.segNum.val == s.strap && h.nonce == s.ctl.nonce
      let s := s.wr p Reg.BR.BR_STAT_SELF_LOOP (b2n loop)
      if loop then s.joinOn
      else
        let s := ((s.wr p Reg.BR.BR_STAT_FAR_VALID 1).wr p Reg.BR.BR_STAT_FAR_SEG h.segNum.val).noteBridge br
        if s.joinState = 3 ∨ s.joinState = 4 then
          match s.helloReason br h with
          | 0 => (s.modCtl fun c => { c with hellos := (br.val, h) :: c.hellos.filter (fun e => e.1 != br.val) }).joinOn
          | n => s.joinFail n
        else if s.joined && h.joined && h.anchorValid && h.anchor != s.ctl.ring.anchor then
          let s := s.partSide br true
          let s := s.adoptRing s.ctl.ring
          (s.wr (pgBr 0) Reg.BR.RING_STAT_REASON 5).raise 0 0x81 (BitVec.ofNat 32 (h.segNum.val + 4 * h.anchor.val))
        else if h.joined then s else s.partSide br false

/-- JOIN_TIMEOUT (R405). -/
def execJoinTimeout (g : Fin 4) (s : State) : Result :=
  onSeg s g fun s => if 1 ≤ s.joinState ∧ s.joinState ≤ 4 then s.joinFail 4 else s

/-- JOIN_ADMITTED (R405 step 7): a joiner that is locked in time adopts the ring state the anchor sends. -/
def execJoinAdmitted (g : Fin 4) (ring : Ring) (s : State) : Result :=
  onSeg s g fun s =>
    if s.joinState = 4 ∧ 4 ≤ s.ctl.okTime ∧ ring.joined.getLsbD s.strap = true then s.becomeJoined ring else s

/-! ### Admission and leaving (R408) -/

/-- RING_STAT.ADMIT_READY rises once every segment has adopted the change; ADMIT then reads 0. -/
def Seg.admitReady (s : Seg) (all : Bool) : Seg :=
  if all && s.flag (pgBr 0) Reg.BR.RING_CTRL_ADMIT then
    (s.wr (pgBr 0) Reg.BR.RING_STAT_ADMIT_READY 1).wr (pgBr 0) Reg.BR.RING_CTRL_ADMIT 0
  else s

/-- A commit of ADMIT with ADMIT_SEG = t (R408): on the anchor the pair that spans t's position is closed; elsewhere
LOCK_HIT. Of a segment that is joined already there is nothing to bring in. -/
def Seg.admitCommit (s : Seg) (t : Nat) : Seg :=
  let p := pgBr 0
  let r := s.ctl.ring
  if !s.flag pgSeg Reg.SEG.SEG_ID_ANCHOR then s.lockHit p
  else if r.joined.getLsbD t then s
  else
    let pair := (nextJoined r.joined t false).getD s.strap
    let s := (s.modCtl fun c => { c with admitting := some pair }).wr p Reg.BR.RING_STAT_ADMIT_READY 0
    let s := s.wr p Reg.BR.RING_CTRL_ADMIT 1
    s.nextRing s.strap fun r => { r with closed := r.closed ||| BitVec.ofNat 4 (2 ^ pair) }

/-- An admission ends: the pair it closed opens again, unless it is down. -/
def Seg.admitEnd (s : Seg) (reopen : Bool) : Seg :=
  match s.ctl.admitting with
  | none => s
  | some pair =>
    let p := pgBr 0
    let s := (s.modCtl fun c => { c with admitting := none }).wr p Reg.BR.RING_CTRL_ADMIT 0
    let s := s.wr p Reg.BR.RING_STAT_ADMIT_READY 0
    if reopen then s.nextRing s.strap fun r => { r with closed := putBit4 r.closed pair (r.shut s.ctl.ends none pair) } else s

/-- ADMIT_LAPSE (R408). -/
def execAdmitLapse (g : Fin 4) (s : State) : Result := onSeg s g fun s => s.admitEnd true

/-- The segment has left the ring: BYP_OPEN falls (R400, R408). -/
def Seg.left (s : Seg) : Seg := (s.closeBypass.setJoin 0).wr (pgBr 0) Reg.BR.RING_CTRL_LEAVE 0

/-- The ring state without segment `g`: both of its pairs are closed, and their far ends count as down until they report
again (R408). An anchor that leaves is followed by the lowest-numbered segment left. -/
def Seg.dropLeaver (s : Seg) (g : Nat) : Seg :=
  let r := s.ctl.ring
  let prev := (nextJoined r.joined g false).getD g
  let next := (nextJoined r.joined g true).getD g
  let without := fun (r : Ring) =>
    let r : Ring := { r with
      joined := putBit4 r.joined g false
      closed := r.closed ||| BitVec.ofNat 4 (2 ^ g) ||| BitVec.ofNat 4 (2 ^ prev) }
    if r.anchor.val = g then
      { r with anchor := Fin.ofNat 4 ((r.members.head?).getD g), anchorValid := !r.members.isEmpty } else r
  let say := fun (e : Ends) (n : Nat) (bit : BitVec 2) =>
    let d := SMap.get (0, 0) e n
    SMap.put (0, 0) e n (d.1 ||| bit, d.2)
  let s := s.modCtl fun c => { c with ends := say (say (SMap.put (0, 0) c.ends g (0, 0)) prev 1) next 2 }
  s.nextRing g without

/-- A commit of LEAVE (R408): the anchor is asked to close the segment's pairs and remove it. A segment that is alone has no
other to wait for. -/
def Seg.leaveCommit (s : Seg) : Seg :=
  if !s.joined || s.joinState == 7 then s
  else
    let alone := decide (s.ctl.ring.members = [s.strap])
    let s := (s.setJoin 7).wr (pgBr 0) Reg.BR.RING_CTRL_LEAVE 1
    if !s.isAnchor then s.tellAnchor
    else if alone then (s.dropLeaver s.strap).left
    else s.dropLeaver s.strap

/-! ### Ring states (R402, R403, R407) -/

/-- A segment that asked to join is added to the ring (R405 step 7): the pairs beside it are judged by what it reports, and an
admission of its position ends. -/
def Seg.addJoiner (s : Seg) (rep : RingReport) : Seg :=
  let r := s.ctl.ring
  let g := rep.seg.val
  let prev := (nextJoined r.joined g false).getD g
  let next := (nextJoined r.joined g true).getD g
  let hush := fun (e : Ends) (n : Nat) (bit : BitVec 2) =>
    let d := SMap.get (0, 0) e n
    SMap.put (0, 0) e n (d.1 &&& ~~~bit, d.2)
  let s := s.modCtl fun c => { c with ends := hush (hush c.ends prev 1) next 2 }
  (s.admitEnd false).takeReport rep

/-- RING_STATE_REPORT (R402, R405, R408): the anchor takes the report and sends the new state. The report of a segment that is
not joined is its request to be added, one that says `leave` the request to be removed (DESIGN CHOICE, log 121). -/
def execRingStateReport (g : Fin 4) (rep : RingReport) (s : State) : Result :=
  onSeg s g fun s =>
    if !s.isAnchor then s
    else if !s.ctl.ring.joined.getLsbD rep.seg.val then (if rep.leave then s else s.addJoiner rep)
    else if rep.leave then s.dropLeaver rep.seg.val
    else s.takeReport rep

/-- RING_STATE_ADOPT (R402, R408, R430): a joined segment takes a ring state of another version, and of its own where that
is mismatched. One that leaves keeps BYP_OPEN until every segment has adopted the state without it, which the state coming
again tells it (DESIGN CHOICE, log 121); one that was removed has left with it. -/
def execRingStateAdopt (g : Fin 4) (ring : Ring) (st : State) : Result :=
  onSeg st g fun s =>
    let leaving := s.joinState == 7
    let all := ring.members.all fun n => (st.seg (Fin.ofNat 4 n)).hasAdopted ring.ver
    if !s.joined then (if leaving && ring.ver == s.ctl.ring.ver && all then s.left else s)
    else if ring.ver == s.ctl.ring.ver && !s.mismatched (pgBr 0) 0x128 then s
    else
      let taken := s.ctl.admitting.isSome && ring.joined != s.ctl.ring.joined
      let s := s.adoptRing ring
      if ring.joined.getLsbD s.strap then (s.when taken fun s => s.admitEnd false).reportRing
      else if leaving && !all then s else s.left

/-- A joined segment within reach of the anchor answers its beacon (R407). -/
def Seg.beaconAnswer (s : Seg) (anchor : Nat) : Seg :=
  if s.joined && s.ctl.ring.anchorValid && s.ctl.ring.anchor.val == anchor && !s.isAnchor then s.tellAnchor else s

/-- BEACON_SEND (R407, R408): the anchor's beacon goes out, and each joined segment in reach answers (log 121); the answers tell
the anchor that every segment has adopted. -/
def execBeaconSend (g : Fin 4) (st : State) : Result :=
  let a := st.seg g
  if !a.isAnchor then onSeg st g fun s => s
  else
    let r := a.ctl.ring
    let far := r.members.filter fun n => n != g.val && reaches r g.val n
    let all := r.members.all fun n => (st.seg (Fin.ofNat 4 n)).hasAdopted r.ver
    far.foldl (fun o n => match o with
      | .next st => onSeg st (Fin.ofNat 4 n) fun s => s.beaconAnswer g.val
      | o => o) (onSeg st g fun s => s.ringSend.admitReady all)

/-- BEACON_ANSWER_TIMEOUT (R407): the anchor removes a segment that has not answered. -/
def execBeaconAnswerTimeout (g : Fin 4) (far : Fin 4) (s : State) : Result :=
  onSeg s g fun s =>
    let r := s.ctl.ring
    if s.isAnchor && far.val != s.strap && r.joined.getLsbD far.val then
      s.nextRing far fun r => { r with joined := putBit4 r.joined far.val false }
    else s

/-- ANCHOR_TIMEOUT (R407): the anchor is removed, and the lowest joined segment in reach is the anchor. -/
def execAnchorTimeout (g : Fin 4) (s : State) : Result :=
  onSeg s g fun s =>
    let r := s.ctl.ring
    if !s.joined || !r.anchorValid || r.anchor.val == s.strap then s
    else
      let r1 := { r with joined := putBit4 r.joined r.anchor.val false }
      let low := (r1.members.find? (fun n => reaches r1 s.strap n)).getD s.strap
      s.adoptRing { r1 with anchor := Fin.ofNat 4 low, ver := if low = s.strap then r.ver + 1 else r.ver }

/-! ### Time (R265, R409, R410) -/

/-- TIME_EXCHANGE (R409): a TIME frame goes out on the pair's time bundle. -/
def execTimeExchange (g : Fin 4) (br : Fin 2) (s : State) : Result :=
  onSeg s g fun s =>
    match s.timeBundle br with
    | some b =>
      if (s.br br).up && (s.joined || s.joinState == 4) then
        s.modBun br b fun x => { x with timeDue := true, timeSeq := x.timeSeq + 1 }
      else s
    | none => s

/-- A signed 16-bit register field. -/
def signed16 (v : Nat) : Int := if v < 32768 then (v : Int) else (v : Int) - 65536

/-- The low bits of a signed value. -/
def low16 (v : Int) : Nat := (v % 65536).toNat

/-- The offset θ of the far side in 1/16 tick, without TIME_ASYM. -/
def thetaOf (st : Stamps) : Int := ((st.t2 - st.t1).toInt - (st.t4 - st.t3).toInt) / 2

/-- A value held within ±3000. -/
def clamp3000 (v : Int) : Int := max (-3000) (min 3000 v)

/-- The follower's trim after an exchange with its parent: f and trim (R409). -/
def trimStep (f theta asym : Int) : Int × Int :=
  let e := 0 - theta + asym
  let f := clamp3000 (f - e / 4)
  (f, clamp3000 (f - e * 8))

/-- Time lost or regained on a pair (R265, R410): C1 is suspended, and the mark goes out with the next epoch. -/
def Seg.suspend (s : Seg) (br : Nat) (lost : Bool) : Seg :=
  let p := pgBr br
  let s := (s.wr p Reg.BR.BR_STAT_TIME_LOST (b2n lost)).wr p Reg.BR.BR_STAT_C1_SUSP (b2n lost)
  let s := s.modCtl fun c => { c with ring := { c.ring with susp := putBit4 c.ring.susp (s.pairNo br) lost } }
  if lost then (s.count p 0x8D8).evt p 12 else s.evt p 13

/-- What the offset of an exchange says of the pair (R410, R411): time is lost only on an open pair of a joined segment. -/
def Seg.noteOffset (s : Seg) (br : Nat) (theta : Int) : Seg :=
  let p := pgBr br
  let small := decide (-32 ≤ theta ∧ theta ≤ 32)
  let big := decide (theta < -64 ∨ 64 < theta)
  let s := ((s.wr p Reg.BR.BR_TIME_OFFSET (low16 theta)).wr p Reg.BR.BR_STAT_TIME_OK (b2n small)).count p 0x8D0
  let run := if small then (s.br br).okRun + 1 else 0
  let s := s.setBr br { s.br br with okRun := min 4 run }
  if big && s.joined && s.pairOpen br && !s.flag p Reg.BR.BR_STAT_TIME_LOST then s.suspend br true
  else if s.flag p Reg.BR.BR_STAT_TIME_LOST && decide (4 ≤ run) then s.suspend br false
  else s

/-- A joiner's exchange with its parent (R405, R409): its FTB steps once by the offset `theta`, and later exchanges with |e| of
at most 2 ticks count; after four of them it asks the anchor through its parent. -/
def Seg.joinTime (s : Seg) (theta e : Int) : Seg :=
  if s.joinState ≠ 4 then s
  else if !s.ctl.stepped then
    { (s.modCtl fun c => { c with stepped := true, okTime := 0 }) with
      ftb := s.ftb + BitVec.ofInt 64 (theta / 16) }
  else
    let ok := if -32 ≤ e ∧ e ≤ 32 then min 4 (s.ctl.okTime + 1) else 0
    let asks := decide (ok = 4 ∧ s.ctl.okTime < 4)
    (s.modCtl fun c => { c with okTime := ok }).when asks Seg.tellAnchor

/-- TIME_FRAME_RECEIVE (R372, R409, R410): the offset from the four stamps; a follower trims after an exchange with its
parent. -/
def execTimeFrameReceive (g : Fin 4) (br : Fin 2) (st : Stamps) (s : State) : Result :=
  onBridge s g fun s =>
    let p0 := pgBr 0
    if !(s.br br).up || !(s.joined || s.joinState == 4) then s
    else
      let s := match s.timeBundle br with
        | some b => s.modBun br b fun x => { x with rxStamp := st.t4, rxSeq := st.seq }
        | none => s
      let raw := thetaOf st
      let asym := signed16 (s.rd (pgBr br) Reg.BR.TIME_ASYM)
      let s := s.noteOffset br (raw + asym)
      if s.rd p0 Reg.BR.RING_STAT_PARENT ≠ br.val + 1 then s
      else
        let ft := trimStep (signed16 (s.rd p0 Reg.BR.RING_TRIM_FREQ)) raw asym
        ((s.wr p0 Reg.BR.RING_TRIM_FREQ (low16 ft.1)).wr p0 Reg.BR.RING_TRIM_TRIM (low16 ft.2)).joinTime (raw + asym) (asym - raw)

end Sys2Proof.Machine
end

