-- ==== Sys2Proof/Machine/Access.lean ====
section
/-!
DEFINITION. What a register reads as, what a write of it does, and the decision of one register access by the rows of
R36 (R19–R63, R76–R84).
-/
namespace Sys2Proof.Machine

/-! ### Requesters and pages -/

/-- The EID a requester is recorded under (R61). -/
def Seg.reqEid (s : Seg) : Requester → BitVec 12
  | .mp => mkEid s.strap 0x3F0
  | .agent e _ => e

/-- The domain a requester carries (R54). -/
def Requester.dom : Requester → BitVec 6
  | .mp => 0
  | .agent _ d => d

/-- The same requester, whatever domain its site has now (R41). -/
def Requester.same : Requester → Requester → Bool
  | .mp, .mp => true
  | .agent a _, .agent b _ => a == b
  | _, _ => false

/-- The local source of the unit a page belongs to, for the pages R36 and R503 name. A bridge page is none: it stays
accessible while a unit-scope run tests one of its bundles, DESIGN CHOICE, log 79. -/
def pageUnit : Kind → Nat → Option Nat
  | .router, i => some (srcRt i)
  | .ni, i => some (srcNi i)
  | .bank, i => some (srcBank i)
  | _, _ => none

/-- The power state of the domain a page's unit lies in, OFF for a bank kept under an OFF tile (R460); 0 for a page that is
always up. -/
def Seg.pageState (s : Seg) : Kind → Nat → Nat
  | .router, i => s.stTile i
  | .ni, i => s.stTile (i / 2)
  | .bank, i => if s.stTile (bankTile i) = 4 then 4 else s.stBank i
  | _, _ => 0

/-- An access wakes the unit it needs (R81, R455). A bank under an OFF tile is not woken (R460). -/
def Seg.wakePage (s : Seg) : Kind → Nat → Seg
  | .router, i => s.tileWakeReq i 0x828
  | .ni, i => s.tileWakeReq (i / 2) 0x828
  | .bank, i => s.bankWakeReq i
  | _, _ => s

/-! ### Counters (R49–R52, R243, R413) -/

/-- The view of a page's counter area that an access acts on. -/
def Seg.view (s : Seg) (k : Kind) (p off : Nat) : Nat :=
  match k with
  | .router => if off < 0xC00 then min 4 (s.rd p Reg.ROUTER.ARB_CNT_SEL_VIEW) else 0
  | .br => if off < 0x8D0 then s.rd p Reg.BR.CNT_BUNDLE else 0
  | _ => 0

/-- The offset lies in a counter pair. -/
def counterWord (k : Kind) (i off : Nat) : Bool := decide (0x800 ≤ off) && decide (off < 0xE00) && counterAt k i (off / 8 * 8)

/-- The counter pair at `off` as it reads. COLL shows the total of the selected source (R449). -/
def Seg.cntRead (s : Seg) (k : Kind) (p off : Nat) : Nat :=
  if k = .coll ∧ off = 0x850 then (s.src (s.rd pgColl Reg.COLL.SRC_SEL)).total.toNat else s.cnt p (s.view k p off) off

/-- The counter pair at `off` cleared (R52). -/
def Seg.cntClear (s : Seg) (k : Kind) (p off : Nat) : Seg :=
  if k = .coll ∧ off = 0x850 then s.modSrc (s.rd pgColl Reg.COLL.SRC_SEL) fun x => { x with total := 0 }
  else s.setCnt p (s.view k p off) off 0

/-! ### Reads (R30, R46, R47) -/

/-- The glazed word whose complement a shadow shows (R60, R310, R344, R376, R413, R449, R476, R492, R516). -/
def shadowOf (k : Kind) (i off : Nat) : Option Nat :=
  if off < 0xE00 ∨ 0xF00 ≤ off then none
  else
    let o := off - 0xE00
    match k with
    | .seg => if o = 0 then some 0x110 else if o = 4 then some 0x118 else none
    | .coll => if o < 16 then some (0x130 + o) else if o = 16 then some 0x150 else none
    | .pwr => if o = 0 then some 0x110 else none
    | .clk => if o = 0 then some 0x110 else none
    | .flowwin => if o < 32 then some (0x140 + o) else none
    | .br => if o = 0 then some 0x100 else if o = 4 ∧ i = 0 then some 0x128 else none
    | .bay => if o = 0 then some 0x100 else none
    | .bank => if o = 0 then some 0x100 else if 16 ≤ o ∧ o < 48 then some (0x400 + (o - 16)) else none
    | .kiln => if o = 0 then some 0x110 else if o = 4 then some 0x114 else none
    | _ => none

/-- Words that BR0 has and BR1 has not (R411). -/
def absentWord (k : Kind) (i off : Nat) : Bool :=
  k == .br && i == 1 && ((decide (0x120 ≤ off) && decide (off < 0x134)) || off == 0xE04)

/-- The bits of a word to which the map gives a value. -/
def mapMask (k : Kind) (off : Nat) : Word :=
  BitVec.ofNat 32 ((wordRows k off).foldl (fun a r =>
    if r.acc = .rsv ∧ r.rst = none then a else a + (2 ^ (r.hi + 1) - 2 ^ r.lo)) 0)

/-- A word with fields put in. -/
def putFields (w : Word) (l : List (Field × Nat)) : Word := l.foldl (fun w e => e.1.set w e.2) w

/-- Work is in flight in a unit (R37, R38, R149, R214, R298, R343). -/
def Seg.pageBusy (s : Seg) : Kind → Nat → Bool
  | .ni, i =>
    let x := s.ni i
    x.store.any (fun e => !e.dead && !e.answer) || x.regacc.isSome || !x.inb.isEmpty || (x.up && (x.rs ++ x.sn).any (fun b => b.cpl || b.credit))
  | .router, i => s.inFlow.any (fun e => e.1 / 256 == i)
      || s.outs.any (fun e => e.1 / 32 == i && (match e.2.next with | some (.bg ..) | some (.slot ..) => true | _ => false))
  | .bank, i => !(s.bank i).defer.isEmpty || (s.bank i).pa.burst.any (·.released) || (s.bank i).pb.burst.any (·.released)
  | .flowwin, _ => s.ctl.disableDue.any s.noticed
  | _, _ => false

/-- Two 12-bit masks in one word, as the router pages show rows and columns. -/
def rowPair (lo hi : Nat) : Word := BitVec.ofNat 32 (lo % 4096 + hi % 4096 * 2 ^ 16)

/-- The words of a router page that come from the maps and tables (R201, R213, R238, R244, R252). A bit of NB_FENCED whose
side is off the mesh reads 1 from reset on, by its description, not the table's reset 0: DESIGN CHOICE, log 96. -/
def Seg.routerWord (s : Seg) (t off : Nat) : Option Word :=
  let m := s.curView t
  let nb := fun p : Port => fencedNb m (tileX t) (tileY t) p
  if off = 0x108 then
    let sag := m.saggared.contains t
    let dor := m.dormant.contains t
    some (putFields 0 [(Reg.ROUTER.RT_FENCE_SELF_SHADOW, b2n (m.tile t && !sag && !dor)),
      (Reg.ROUTER.RT_FENCE_SELF_DORMANT, b2n dor), (Reg.ROUTER.RT_FENCE_SELF_FENCED, b2n sag),
      (Reg.ROUTER.RT_FENCE_NB_FENCED, b2n (nb .n) + 2 * b2n (nb .e) + 4 * b2n (nb .s) + 8 * b2n (nb .w))])
  else if 0x110 ≤ off ∧ off < 0x128 then
    let k := (off - 0x110) / 4
    some (rowPair (rowSummary m (2 * k)) (rowSummary m (2 * k + 1)))
  else if 0x130 ≤ off ∧ off < 0x148 then
    let k := (off - 0x130) / 4
    some (rowPair (colSummary m (2 * k)) (colSummary m (2 * k + 1)))
  else if 0x150 ≤ off ∧ off < 0x160 then
    let g := (off - 0x150) / 4
    some (rowPair (m.rows0.toNat / 2 ^ (12 * g)) (m.rows1.toNat / 2 ^ (12 * g)))
  else if off = 0x308 then
    some (Reg.ROUTER.SLOT_STAT_PERIOD.set (s.word (pgRt t) off) ((s.tftb t).toNat / 512))
  else if off = 0x408 then some (s.slotDataRead t)
  else if off = 0x244 then some (s.resDataRead t)
  else none

/-- The words of an NI page that come from its queues and cache (R180, R311). -/
def Seg.niWord (s : Seg) (n off : Nat) : Option Word :=
  let x := s.ni n
  if off = 0x204 then
    some (putFields 0 [(Reg.NI.NI_ORD_STAT_FENCE_ERR, b2n x.fenceErr),
      (Reg.NI.NI_ORD_STAT_LD_PEND, x.loads.length), (Reg.NI.NI_ORD_STAT_ST_PEND, x.stores.length)])
  else if off = 0x284 then
    some (putFields 0 [(Reg.NI.CACHE_STAT_CACHED, (x.cache.filter (fun w => !w.fetch)).length),
      (Reg.NI.CACHE_STAT_PINNED, (x.cache.filter x.pinned).length)])
  else if off = 0x584 then
    some (putFields 0 [(Reg.NI.WHL_STAT_FLOWS, (x.cache.filter (fun w => s.wheelHolds n w && decide (0 < x.qcount w.idx.toNat))).length),
      (Reg.NI.WHL_STAT_CUR, (s.unitTime n).toNat / 2 ^ s.gran n)])
  else none

/-- The words of the COLL page that show the selected source, the mode and the severe sources (R447). -/
def Seg.collWord (s : Seg) (off : Nat) : Option Word :=
  let l := s.rd pgColl Reg.COLL.SRC_SEL
  let x := s.src l
  if off = 0x100 then some (Reg.COLL.COLL_STAT_AUTO.set (s.word pgColl off) (b2n (s.mode != 0)))
  else if off = 0x108 then some (s.cfgOf l)
  else if off = 0x10C then
    some (putFields 0 [(Reg.COLL.SRC_STAT_LAST_CAUSE, x.lastCause.toNat), (Reg.COLL.SRC_STAT_COUNT, x.count),
      (Reg.COLL.SRC_STAT_KILN_PASS, b2n x.kilnPass), (Reg.COLL.SRC_STAT_ACTIVE, b2n x.active),
      (Reg.COLL.SRC_STAT_SAGGARED, b2n (s.srcSaggared l)), (Reg.COLL.SRC_STAT_SEVERE, b2n x.severe)])
  else if off = 0x110 then some x.lastSynd
  else if 0x180 ≤ off ∧ off < 0x200 then
    let w := (off - 0x180) / 4
    some (BitVec.ofNat 32 ((List.range 32).foldl (fun a b => a + b2n (s.src (32 * w + b)).severe * 2 ^ b) 0))
  else none

/-- The words of the KILN page that show a solution and the instance (R499, R509, R514). -/
def Seg.kilnWord (s : Seg) (off : Nat) : Option Word :=
  if off = 0x130 then some (BitVec.ofNat 32 (s.solStat s.solSel))
  else if 0x180 ≤ off ∧ off < 0x1A0 then some (SMap.get 0 s.kiln.sols (8 * s.solSel + (off - 0x180) / 4))
  else if 0x300 ≤ off ∧ off < 0x400 then some (instanceOf ((off - 0x300) / 4))
  else none

/-- The words of a page that are computed when they are read. PAGE_STAT.ENABLED follows ENABLE, so it reads 1 right after
reset on a page whose ENABLE resets to 1, though the table of R28 gives it Reset 0: DESIGN CHOICE, log 80. -/
def Seg.computedWord (s : Seg) (k : Kind) (i p off : Nat) : Option Word :=
  match shadowOf k i off with
  | some o => some (~~~s.word p o ^^^ SMap.get 0 s.flips (1024 * p + o / 4))
  | none =>
    if off = 0x00C then
      some (putFields (s.word p off) [(Reg.PAGE.PAGE_STAT_BUSY, b2n (s.pageBusy k i)),
        (Reg.PAGE.PAGE_STAT_ENABLED, b2n (s.enabled p))])
    else match k with
    | .seg => if off = 0x130 then some (s.ftb.truncate 32) else if off = 0x134 then some ((s.ftb >>> 32).truncate 32) else none
    | .coll => s.collWord off
    | .router => s.routerWord i off
    | .ni => s.niWord i off
    | .bank => if off = 0x108 then some (Reg.BANK.BANK_STAT_FE_NAMED.set (s.word p off) (b2n (s.feNamed i))) else none
    | .br => if off = 0x408 then some (s.bslotDataRead i) else none
    | .bay => if off = 0x120 then some (Reg.BAY.BAY_RETRY_RETRY_LEFT.set (s.word p off) (s.retryLeft i)) else none
    | .kiln => s.kilnWord off
    | _ => none

/-- The 32-bit word at `off` as a read returns it: bits and words that no map gives a value are free (R34, R46, log 3). -/
def Seg.readWord (s : Seg) (k : Kind) (i p off : Nat) : Word :=
  let open_ := Config.reserved s.free p off
  if 0x800 ≤ off ∧ off < 0xE00 then
    if counterAt k i (off / 8 * 8) then BitVec.ofNat 32 (s.cntRead k p (off / 8 * 8) / 2 ^ (32 * (off / 4 % 2)))
    else open_
  else if absentWord k i off then open_
  else
    let w := match s.computedWord k i p off with | some w => w | none => s.word p off
    (w &&& mapMask k off) ||| (open_ &&& ~~~mapMask k off)

/-- What an access of a size reads at `off` (R48, R50, R53): the addressed bytes in the low bits. -/
def Seg.readData (s : Seg) (k : Kind) (i p off : Nat) (size : BitVec 2) : BitVec 64 :=
  if size = 3 then s.readWord k i p (off + 4) ++ s.readWord k i p off
  else
    let w := (s.readWord k i p (off / 4 * 4)).toNat / 2 ^ (8 * (off % 4))
    BitVec.ofNat 64 (if size = 0 then w % 2 ^ 8 else if size = 1 then w % 2 ^ 16 else w)

/-! ### Commands that only a register write starts -/

/-- BIND_CMD written (R129–R131): a commit or clear from a domain other than 0 is refused and counted in TEN. -/
def Seg.bindCmd (s : Seg) (n op idx : Nat) (dom : BitVec 6) : Seg :=
  let p := pgNi n
  let s := ((s.wr p Reg.NI.BIND_CMD_OP op).wr p Reg.NI.BIND_CMD_IDX idx).wr p Reg.NI.BIND_STAT_REFUSED 0
  let e := SMap.get 0 (s.ni n).bind idx
  if op = 0 then
    let s := (s.setWord64 p 0x120 (e.truncate 64)).setWord64 p 0x128 ((e >>> 64).truncate 64)
    s.wr p Reg.NI.BIND_STAT_IN_FLIGHT (SMap.get 0 (s.ni n).inFlight idx)
  else if op = 3 then s
  else if dom ≠ 0 then
    let s := (s.wr p Reg.NI.BIND_STAT_REFUSED 1).count pgTen 0x808
    s.count pgTen (0x810 + 8 * dom.toNat)
  else
    let v := if op = 1 then s.word64 p 0x128 ++ s.word64 p 0x120 else e &&& ~~~1
    s.modNi n fun x => { x with bind := SMap.put 0 x.bind idx v }

/-- PROBE_IDX written (R311): the cache is looked up and the probe registers loaded. -/
def Seg.probe (s : Seg) (n i : Nat) : Seg :=
  let p := pgNi n
  let x := s.ni n
  let s := s.wr p Reg.NI.PROBE_IDX i
  let q := x.qcount i
  let (w, c) : Word × BitVec 128 := match x.way i with
    | some w => (putFields 0 [(Reg.NI.PROBE_STAT_HIT, b2n (!w.fetch)), (Reg.NI.PROBE_STAT_DIRTY, b2n w.dirty),
        (Reg.NI.PROBE_STAT_UNAVAIL, b2n w.unavail), (Reg.NI.PROBE_STAT_QCOUNT, q)], if w.fetch then 0 else w.toBank q)
    | none => (putFields 0 [(Reg.NI.PROBE_STAT_QCOUNT, q)], 0)
  let s := s.setWord p 0x28C w
  if (x.way i).isSome then (s.setWord64 p 0x290 (c.truncate 64)).setWord64 p 0x298 ((c >>> 64).truncate 64) else s

/-- SRC_CMD RESTORE (R425, R441, R442). -/
def Seg.srcRestore (s : Seg) (src bundle : Nat) : Seg := s.collUse src fun s =>
  let x := s.src src
  let br := src - 0x10
  let bridge := src = 0x10 ∨ src = 0x11
  let sag := if bridge then decide (bundle < 24) && s.bunTx br bundle == 5 else decide (src ≠ 2) && s.isSaggared (s.sagUnit src 0 0)
  if !sag then s.cmdRefuse 4
  else if !(decide (0x18 ≤ src) && decide (src < 0x20)) && !x.kilnPass then s.cmdRefuse 5
  else if x.active then s.cmdRefuse 2
  else if s.kiln.run.isSome then s.cmdRefuse 6
  else
    let s := (s.wr pgColl Reg.COLL.CMD_STAT_BUSY 1).wr pgColl Reg.COLL.CMD_STAT_RESULT 0
    let s := (s.modCtl fun c => { c with restore := some (src, bundle) }).count pgColl 0x840
    let s := s.sherdNotify src x.lastCause x.lastSynd 6 false false
    if bridge then (s.trainStart br bundle).reportRing
    else match s.sagUnit src 0 0 with
      | .router t => s.modCtl fun c => { c with sagTiles := c.sagTiles.erase t, wantMap := true }
      | .bank b => s.startZeroing b false
      | .bay n => s.bayRestore n
      | _ => s

/-- One injection (R446). -/
def Seg.inject (s : Seg) : Seg :=
  match s.ctl.inj with
  | none => s
  | some j =>
    let src := s.rd pgColl Reg.COLL.INJ_SEL_INJ_SRC
    let s := s.count pgColl 0x858
    let s :=
      if j.mode = 0 then s.raise src 0x84 (s.word pgColl Reg.COLL.INJ_SYND.off) true
      else if j.mode = 1 then s.modCtl fun c => { c with injFlit := true }
      else if j.mode = 2 then
        let page := if src = 5 then (if s.flag pgColl Reg.COLL.INJ_LOC_INJ_PAGE then pgFlow else pgSeg)
          else if src = 0 then pgColl else if src = 1 then pgPwr else if src = 2 then pgClk else if src = 3 then pgKiln
          else if src = 6 then pgTen else if src = 0x10 ∨ src = 0x11 then pgBr (src - 0x10)
          else if 0x18 ≤ src ∧ src < 0x20 then pgBay (src - 0x18)
          else if 0x40 ≤ src ∧ src < 0xD0 then pgRt (src - 0x40)
          else if 0x100 ≤ src ∧ src < 0x148 then pgBank (src - 0x100)
          else pgNi (src - 0x200)
        let off := s.rd pgColl Reg.COLL.INJ_LOC_OFFSET
        if src = 4 ∨ (7 ≤ src ∧ src < 0x10) then s else (s.glazeFlip page off 1 true).bridgeGlaze page off
      else if src = 0x10 ∨ src = 0x11 then
        let b := s.rd pgColl Reg.COLL.INJ_LOC_BUNDLE
        let l := s.rd pgColl Reg.COLL.INJ_SEL_LANE
        if b < 24 ∧ l < 17 then s.laneFail (src - 0x10) b l true else s
      else s
    if j.left ≤ 1 then (s.modCtl fun c => { c with inj := none }).wr pgColl Reg.COLL.INJ_CTRL_GO 0
    else s.modCtl fun c => { c with inj := some { j with left := j.left - 1 } }

/-- INJ_CTRL.GO written 1 (R446): the first injection is made at once. -/
def Seg.injectGo (s : Seg) : Seg :=
  if !s.factory || s.ctl.inj.isSome then s
  else
    let j : Inj := ⟨max 1 (s.rd pgColl Reg.COLL.INJ_CTRL_COUNT), s.rd pgColl Reg.COLL.INJ_CTRL_MODE⟩
    ((s.modCtl fun c => { c with inj := some j }).wr pgColl Reg.COLL.INJ_CTRL_GO 1).inject

/-- An FE_MAP word is mismatched: FLOWWIN's ENABLE stays 0 (R430). -/
def Seg.feMapBad (s : Seg) : Bool := (List.range 8).any fun n => s.mismatched pgFlow (0x140 + 4 * n)

/-- PAGE_CTRL written (R35, R37, R38, R214, R298, R430, R478). -/
def Seg.pageCtrl (s : Seg) (k : Kind) (i p : Nat) (v : Word) : Seg :=
  let en := v.getLsbD 0
  let dr := v.getLsbD 1
  if k == .router && s.c1Tile i && (!en || dr) then s.lockHit p
  else
    let s := if k.cap / 4096 % 2 = 1 then s.wr p Reg.PAGE.PAGE_CTRL_DRAIN (b2n dr) else s
    let s := s.when (k == .ni && dr) fun s => s.serveAll i
    if k.alwaysOn then s
    else if k = .flowwin && en && s.feMapBad then s
    else if k = .bay then (if en == s.flag p Reg.PAGE.PAGE_CTRL_ENABLE then s else s.bayEnableWrite i en)
    else if en then s.pageOn p
    else if k = .flowwin ∧ s.flowOn = true then (s.pageOff p).modCtl fun c => { c with disableDue := s.noticeSites }
    else if k = .ni then (s.pageOff p).serveAll i
    else s.pageOff p

/-! ### Writes (R34, R35, R39, R59) -/

/-- The word after a write of `v` under the access codes of its fields: `wg` through a guard, `closed` while the enable
rule holds. -/
def newWord (k : Kind) (off : Nat) (old v : Word) (wg closed : Bool) : Word :=
  (wordRows k off).foldl (fun w r =>
    let f : Field := ⟨off, r.hi, r.lo⟩
    match r.acc with
    | .ro | .rsv => w
    | .rwl => f.set w (f.get v)
    | .rw => if closed then w else f.set w (f.get v)
    | .w1c => f.set w (f.get (w &&& ~~~v))
    | .wg => if wg then f.set w (f.get v) else w) old

/-- A write of `v` would change an RW field of the word. -/
def rwDiffers (k : Kind) (off : Nat) (old v : Word) : Bool :=
  (wordRows k off).any fun r => r.acc == .rw && (⟨off, r.hi, r.lo⟩ : Field).get old != (⟨off, r.hi, r.lo⟩ : Field).get v

/-- The row of R36 for locked and write-once fields (R56, R58, R59, R373), and a selection or command that names no source
(R414). -/
def Seg.locked (s : Seg) (k : Kind) (p off : Nat) (v : Word) : Bool :=
  (off == 0x01C && (s.lockedOwners || (decide (k.cap / 2048 % 2 = 1) && decide (v.toNat % 64 ≠ 0))))
  || (k == .ten && decide (0x100 ≤ off) && decide (off < 0x340) && off % 8 == 0 && s.lockedOwners)
  || (k == .seg && off == 0x110 && v.getLsbD 0 && s.lockedExpert)
  || (k == .seg && off == 0x118 && (s.lockWord &&& ~~~v &&& 3) != 0)
  || (k == .ni && off == 0x110 && s.flag p Reg.NI.BIND_CMD_BUSY)
  || (k == .clk && off == 0x104 && s.flag p Reg.CLK.CLK_SW_SWITCH)
  || (k == .coll && off == 0x108 && s.flag p Reg.COLL.BULK_CMD_BUSY)
  || (k == .coll && (off == 0x104 || off == 0xF04) && !srcOk (v.toNat % 1024))
  || (k == .coll && off == 0x118 && !srcOk (Reg.COLL.SRC_CMD_SRC.get v))

/-- RING_CTRL commits (R405, R408). -/
def Seg.ringCtrl (s : Seg) (v : Word) : Seg :=
  let s := s.wr (pgBr 0) Reg.BR.RING_CTRL_ADMIT_SEG (Reg.BR.RING_CTRL_ADMIT_SEG.get v)
  let s := s.when (v.getLsbD 0) (·.joinCommit)
  let s := s.when (v.getLsbD 1) (·.leaveCommit)
  s.when (v.getLsbD 2) (·.admitCommit (Reg.BR.RING_CTRL_ADMIT_SEG.get v))

/-- SRC_CMD commits (R437, R441). -/
def Seg.srcCommand (s : Seg) (v : Word) : Seg :=
  let op := Reg.COLL.SRC_CMD_OP.get v
  let src := Reg.COLL.SRC_CMD_SRC.get v
  let s := s.setWord pgColl 0x118 (v &&& 0x3FF7F)
  if op = 1 then s.srcClear src else if op = 2 then s.srcRestore src (Reg.COLL.SRC_CMD_BUNDLE.get v) else s

/-- The word at `off` of a page becomes `new`, and agrees with its complement again. -/
def Seg.putWord (s : Seg) (p off : Nat) (new : Word) : Seg := (s.setWord p off new).heal p off

/-- A write that has passed every row of R36 acts on its unit: the word `new`, and what the register starts. `v` is the
written value. -/
def Seg.applyWord (s : Seg) (k : Kind) (i p off : Nat) (v new : Word) (r : Requester) (told : Option Bool) : Seg :=
  let plain := s.putWord p off new
  if absentWord k i off then s
  else if off = 0x008 then s.pageCtrl k i p v
  else match k with
  | .seg =>
    if off = 0x118 ∧ new.getLsbD 1 = true then plain.wr pgSeg Reg.SEG.SEG_CTRL_EXPERT_EN 0
    else if off = 0x400 then s.putWord p off (if Reg.SEG.MP_SHARE.get new = 0 then Reg.SEG.MP_SHARE.set new 1 else new)
    else plain
  | .ten => if off = 0x390 ∧ v.getLsbD 31 = true then (s.setWord p 0x390 0).setWord p 0x394 0 else plain
  | .ni =>
    if off = 0x110 then s.bindCmd i (Reg.NI.BIND_CMD_OP.get v) (Reg.NI.BIND_CMD_IDX.get v) r.dom
    else if off = 0x220 then (if new.getLsbD 0 then (s.wr p Reg.NI.NI_RST_RESET 1).niReset i else s)
    else if off = 0x288 then s.probe i (Reg.NI.PROBE_IDX.get v)
    else plain
  | .bank =>
    if off = 0x100 then s.bankOwn i new
    else if off = 0x110 then (if v.getLsbD 0 then s.zeroCommand i else s)
    else if 0x400 ≤ off ∧ off < 0x420 then plain.repairChanged i ((off - 0x400) / 4) (s.word p off) new
    else plain
  | .router =>
    if off = 0x204 then s
    else if off = 0x300 then plain.starveReset i
    else if off = 0x400 then
      (s.setWord p off (putFields (s.word p off) [(Reg.ROUTER.SLOT_CTRL_SWAP_AT, Reg.ROUTER.SLOT_CTRL_SWAP_AT.get v),
        (Reg.ROUTER.SLOT_CTRL_AT_EN, Reg.ROUTER.SLOT_CTRL_AT_EN.get v)])).slotCtrl i v
    else if off = 0x404 then s.setWord p off (new &&& ~~~1)
    else if off = 0x408 then s.slotDataWrite i v
    else if off = 0x244 then s.resDataWrite i v
    else if off = 0x2E0 then
      (s.when (v.getLsbD 0) (·.demoteClear i 0)).when (v.getLsbD 1) (·.demoteClear i 1)
    else plain
  | .flowwin => if off = 0x100 then s.fwStart (Reg.FLOWWIN.FW_CMD_OP.get v) (Reg.FLOWWIN.FW_CMD_INDEX.get v) else plain
  | .clk =>
    if off = 0x104 then plain.refclkCheck (told.getD (Config.refclkGood s.free))
    else if 0x380 ≤ off ∧ off < 0x394 then plain.clearOvr ((off - 0x380) / 4) v
    else if off = 0x110 then plain.limitsMoved (List.range 144)
    else if 0x140 ≤ off ∧ off < 0x380 then plain.limitsMoved [(off - 0x140) / 4]
    else if 0x644 ≤ off ∧ off < 0x654 then plain.followV ((off - 0x644) / 4)
    else plain
  | .br =>
    if off = 0x100 then
      if Reg.BR.BR_CTRL_SLEEP_EN.get new = 0 then plain.each (List.range 24) fun s b => s.bundleWake i b else plain
    else if off = 0x120 then s.ringCtrl v
    else if off = 0x400 then
      (s.setWord p off (putFields (s.word p off) [(Reg.BR.BSLOT_CTRL_SWAP_AT, Reg.BR.BSLOT_CTRL_SWAP_AT.get v),
        (Reg.BR.BSLOT_CTRL_AT_EN, Reg.BR.BSLOT_CTRL_AT_EN.get v)])).bslotCtrl i v
    else if off = 0x404 then s.setWord p off (new &&& ~~~7)
    else if off = 0x408 then s.bslotDataWrite i v
    else if off = 0x410 then (plain.laneCmd i v).reportRing
    else plain
  | .coll =>
    if off = 0x108 then s.writeSrcCfg (s.rd pgColl Reg.COLL.SRC_SEL) v
    else if off = 0x118 then s.srcCommand v
    else if off = 0x140 then s.bulkWrite (Reg.COLL.BULK_CMD_TYPE.get v)
    else if off = 0xF00 then
      let s' := s.setWord p off (Reg.COLL.INJ_CTRL_GO.set new (Reg.COLL.INJ_CTRL_GO.get (s.word p off)))
      s'.when (v.getLsbD 0) (·.injectGo)
    else plain
  | .pwr =>
    if off = 0x100 then s.entryCommand v else if off = 0x180 then s.tileCommand v
    else if off = 0x110 then plain.limitsMoved (List.range 144) else plain
  | .bay =>
    if off = 0x114 then plain.bayCmd i (Reg.BAY.BAY_CMD_OP.get v)
    else if off = 0x108 then plain.noteStrikes i else plain
  | .kiln =>
    if off = 0x100 then s.kilnCommand v
    else if off = 0x160 then s.factoryKey (v.toNat % 65536) (told.getD false)
    else if off = 0x168 then
      (s.when (v.getLsbD 0) (·.factoryEnter (told.getD false))).when (v.getLsbD 1) (·.factoryExit)
    else if off = 0xF00 then s.fuseCommand v
    else plain

/-- The rows of R36 after the guarded-pair row, for one 32-bit word: expert, lock, enable, then the write. -/
def Seg.storeWord (s : Seg) (k : Kind) (i p off : Nat) (v : Word) (wg : Bool) (r : Requester) (told : Option Bool) : Seg :=
  if decide (0x400 ≤ off) && decide (off < 0x800) && !s.expertEn then s.lockHit p
  else if s.locked k p off v then s.lockHit p
  else
    let closed := !k.alwaysOn && s.enabled p
    let old := s.word p off
    let new := newWord k off old v wg closed
    let s := s.when (closed && rwDiffers k off old v) (·.cfgIgnored p)
    s.applyWord k i p off v new r told

/-- The data of an access is zero, in the bits its size gives it (R52). -/
def Access.zero (a : Access) : Bool := (if a.size = 3 then a.data else a.data &&& 0xFFFFFFFF) == 0

/-- A write without a guard: a counter (R52), a 64-bit register, or one word. -/
def Seg.plainWrite (s : Seg) (k : Kind) (i p off : Nat) (a : Access) : Seg :=
  if counterWord k i off then
    if a.zero then s.cntClear k p (off / 8 * 8) else s
  else if a.size = 3 then
    if decide (0x400 ≤ off) && decide (off < 0x800) && !s.expertEn then s.lockHit p
    else (s.storeWord k i p off (a.data.truncate 32) false a.req a.told).storeWord k i p (off + 4)
      ((a.data >>> 32).truncate 32) false a.req a.told
  else s.storeWord k i p off (a.data.truncate 32) a.committed a.req a.told

/-! ### Tenant checks (R54–R57, R63) -/

/-- The tenant check of an access to page `p`. -/
def Seg.tenantOk (s : Seg) (a : Access) (p off : Nat) : Bool :=
  let d := a.req.dom
  if a.badDom then false
  else if d = 0 then true
  else if a.wr && off / 4 * 4 == 0x01C then false
  else decide (d.toNat = s.rd p Reg.PAGE.PAGE_OWNER_OWNER_DOM) || (!a.wr && s.flag p Reg.PAGE.PAGE_OWNER_READ_ANY)

/-- A refusal (R57, R63). -/
def Seg.tenantRefuse (s : Seg) (a : Access) : Seg :=
  let d := if a.badDom then 63 else a.req.dom.toNat
  let e := (s.reqEid a.req).toNat
  let s := (s.count pgTen (if a.wr then 0x808 else 0x800)).count pgTen (0x810 + 8 * d)
  let s := if s.flag pgTen Reg.TEN.TEN_DENY_VALID then s
    else (s.setWord pgTen 0x390 (putFields 0 [(Reg.TEN.TEN_DENY_VALID, 1), (Reg.TEN.TEN_DENY_WRITE, b2n a.wr),
      (Reg.TEN.TEN_DENY_DOMAIN, d), (Reg.TEN.TEN_DENY_EID, e)])).setWord pgTen 0x394 a.addr
  s.evt pgTen 8 (BitVec.ofNat 32 (e + d * 2 ^ 12))

/-! ### The decision of an access (R36) -/

/-- The error of the rows of R36 that come before the write rows, as R80 codes it; 6 stands for a tenant refusal, which the
port never has; 0: none. -/
def Seg.accessError (s : Seg) (a : Access) : Nat :=
  let p := addrPage a.addr
  let off := addrOff a.addr
  if addrMbz a.addr ≠ 0 ∨ addrSeg a.addr ≠ s.strap then 1
  else match pageKind p with
  | none => 1
  | some (k, i) =>
    if s.pageState k i = 4 then 5
    else if (match pageUnit k i with | some l => s.kilnIsolates l | none => false) then 4
    else if !widthOk k i a.wr a.size.toNat off then 2
    else if !s.tenantOk a p off then 6
    else if s.soak && a.wr && !(counterWord k i off && a.zero) then 3
    else 0

/-- What an error row leaves behind. -/
def Seg.noteError (s : Seg) (a : Access) (code : Nat) : Seg :=
  if code = 2 then s.badWidth (addrPage a.addr) else if code = 6 then s.tenantRefuse a else s

/-- The guard of a requester taken away. -/
def Seg.dropGuard (s : Seg) (r : Requester) : Seg :=
  s.modCtl fun c => { c with guards := c.guards.filter (fun g => !g.req.same r) }

/-- A write that ends at a row before the guarded-pair row is its requester's next write all the same: an open guard of
its requester closes without a commit (R41, R42). -/
def Seg.breakGuard (s : Seg) (a : Access) : Seg :=
  if !a.wr || a.committed then s
  else match s.ctl.guards.find? (fun g => g.req.same a.req) with
    | some g => (s.dropGuard a.req).guardFail g.page
    | none => s

/-- What the rows of R36 that the segment controller decides come to: the access completed there with an error code, or
one that goes on to its unit. -/
inductive GuardStep where
  | done (s : Seg) (code : Nat)
  | go (s : Seg) (a : Access)

/-- The word at `off` of the page opens a guard when it is written (R41). -/
def guardWord (k : Kind) (i off : Nat) : Bool := !absentWord k i off && (wordRows k off).any (fun r => r.acc == .wg)

/-- Another requester's guard is open on page `p` (R43): a write there is discarded. That discarded write counts in
CNT_GUARD_FAIL beside its GUARD_FAIL, although the pair that is open has not failed: DESIGN CHOICE, log 81. -/
def Seg.foreignGuard (s : Seg) (p : Nat) : Seg :=
  if s.ctl.guards.any (fun g => g.page == p) then s.guardFail p else s

/-- The guarded-pair row of R36. -/
def Seg.guardRow (s : Seg) (a : Access) (k : Kind) (i : Nat) : GuardStep :=
  let p := addrPage a.addr
  let off := addrOff a.addr
  let commit := fun (s : Seg) (o : Nat) (v : Word) =>
    GuardStep.go s { a with addr := mgmtAddr s.strap p o, size := 2, data := v.zeroExtend 64, pair := false, committed := true }
  match s.ctl.guards.find? (fun g => g.req.same a.req) with
  | some g =>
    let s := s.dropGuard a.req
    if g.page = p ∧ off = g.off + 4 ∧ a.size = 2 ∧ a.data.truncate 32 = ~~~g.val then commit s g.off g.val
    else .done ((s.guardFail g.page).foreignGuard p) 0
  | none =>
    if s.ctl.guards.any (fun g => g.page == p) then .done (s.foreignGuard p) 0
    else if guardWord k i off then
      let v : Word := a.data.truncate 32
      if a.pair then (if (a.data >>> 32).truncate 32 = ~~~v then commit s off v else .done (s.guardFail p) 0)
      else .done (s.modCtl fun c => { c with guards := c.guards ++ [⟨p, off, v, a.req⟩] }) 0
    else .go s a

/-- What an access comes to: its completion with an error code and data, or a wait for its unit's wake. -/
inductive Verdict where
  | done (code : Nat) (data : BitVec 64)
  | stall (a : Access)

/-- The rows of R36 up to the guarded pair, the first whose condition holds. A value committed while its unit slept, or an
access already in progress, is not decided anew before its unit takes it. -/
def Seg.decideRows (s : Seg) (a : Access) : GuardStep :=
  let p := addrPage a.addr
  let off := addrOff a.addr
  let code := s.accessError a
  match pageKind p with
  | none => .done (s.breakGuard a) 1
  | some (k, i) =>
    if code ≠ 0 && !((a.committed || a.passed) && code == 3) then .done ((s.breakGuard a).noteError a code) code
    else if !a.wr || a.committed || a.passed then .go s a
    else if 0xF00 ≤ off && !s.factory then .done ((s.breakGuard a).lockHit p) 0
    else match s.guardRow a k i with
      | .done s c => .done (s.wakePage k i) c
      | .go s a => .go s a

/-- An access that goes on reaches its unit: it waits for a sleeping one, which it wakes (R81, R82). -/
def Seg.reachUnit (s : Seg) (k : Kind) (i : Nat) (a : Access) : Seg × Verdict :=
  let p := addrPage a.addr
  let off := addrOff a.addr
  let s := s.wakePage k i
  if 2 ≤ s.pageState k i then (s, .stall { a with passed := true })
  else if a.wr then (s.plainWrite k i p off a, .done 0 0)
  else (s.tick1, .done 0 (s.readData k i p off a.size))

/-- One register access, decided by the first row of R36 whose condition holds. -/
def Seg.decideAccess (s : Seg) (a : Access) : Seg × Verdict :=
  match s.decideRows a with
  | .done s code => (s, .done code 0)
  | .go s a =>
    match pageKind (addrPage a.addr) with
    | some (k, i) => s.reachUnit k i a
    | none => (s, .done 1 0)

/-! ### Completion (R25, R80, R114, R115) -/

/-- The completion of an access: counted, and answered on the port or with a CPL, which of a read carries one data flit (of a
failed read a free value, log 14). An access that completes with an error
counts as served, and one that clears the counter of accesses counts after the clear, so that the counter then reads 1:
DESIGN CHOICE, log 82. -/
def Seg.answer (s : Seg) (a : Access) (code : Nat) (data : BitVec 64) : Seg :=
  let s := s.count pgSeg (if a.req = .mp then 0x820 else 0x828)
  let s := s.when (code != 0) (·.count pgSeg 0x818)
  match a.req with
  | .mp =>
    let m : Mp := { s.mp with ack := true, err := code != 0,
                              rdata := if code ≠ 0 then BitVec.ofNat 32 code else if a.wr then 0 else data.truncate 32 }
    let half := if code = 0 ∧ a.size = 3 ∧ a.wr = false then
      some (false, a.addr, (data >>> 32).truncate 32) else none
    s.setMp { m with half := half }
  | .agent e _ =>
    match a.cpl with
    | none => s
    | some tag =>
      if s.eidFenced e || !s.reachable e then s
      else
        let pay := if a.wr then [] else [if code = 0 then data else Config.failedRead s.free]
        let h : MgtHdr := { dest := e, src := s.eid 0x3F0, type := tCpl, tag := tag, epoch := s.ctl.epoch,
                            code := if code = 0 then cOk else if code = 6 ∨ code = 3 then cDenied else cDecerr,
                            len := BitVec.ofNat 3 pay.length }
        (s.when (!a.wr && code != 0) Seg.tick1).injectMgt 0x3F0 h pay

/-- An access is decided and answered, or waits ahead of the later ones. -/
def Seg.runAccess (s : Seg) (a : Access) : Seg :=
  match s.decideAccess a with
  | (s, .done code data) => s.answer a code data
  | (s, .stall a) => s.modCtl fun c => { c with stalled := a :: c.stalled }

/-- Where no access is in progress and both the management port and the MGT plane have one waiting, the next is chosen by
MP_SHARE (R58): of every 16 so served, the first MP_SHARE are the port's (log 83). -/
def Seg.shareNext (s : Seg) : Seg :=
  let q := s.ctl.stalled
  if (match q with | a :: _ => a.passed | [] => true) then s
  else match q.find? (fun a => a.req == .mp), q.find? (fun a => a.req != .mp) with
    | some m, some a =>
      let x := if s.ctl.share < max 1 (s.rd pgSeg Reg.SEG.MP_SHARE) then m else a
      s.modCtl fun c => { c with stalled := x :: q.erase x, share := (c.share + 1) % 16 }
    | _, _ => s

/-- The waiting accesses run in turn, as far as their units are up. -/
def Seg.runStalled (s : Seg) : Nat → Seg
  | 0 => s
  | fuel + 1 =>
    let s := s.shareNext
    match s.ctl.stalled with
    | [] => s
    | a :: rest =>
      let s := (s.modCtl fun c => { c with stalled := rest }).runAccess a
      if s.ctl.stalled.length ≤ rest.length then s.runStalled fuel else s

/-- Every waiting access whose turn has come. -/
def Seg.retryStalled (s : Seg) : Seg := s.runStalled s.ctl.stalled.length

/-- The write is one the guards decide: its requester or its page has a guard open, or its word opens one (R41–R43). -/
def Seg.guarding (s : Seg) (a : Access) : Bool :=
  let p := addrPage a.addr
  a.wr && !a.committed && (s.ctl.guards.any (fun g => g.page == p || g.req.same a.req)
    || (match pageKind p with | some (k, i) => guardWord k i (addrOff a.addr) | none => false))

/-- A request of the port that is not the second half it must be (R79): no effect, code 0x2, BAD_WIDTH on the page of the
first half. A write closes the port's open guard all the same (R41, R42). -/
def Seg.brokenHalf (s : Seg) (a : Access) (a0 : Word) : Seg :=
  let s := s.breakGuard a
  ((s.setMp { s.mp with half := none }).badWidth (addrPage a0)).answer { a with wr := true, size := 2 } 2 0

/-- A new access takes its turn behind those that wait (R23, R24), but guards are opened, checked and closed as it comes:
no wake delays a commit, and only the committed value waits for its unit (R82). Nothing happens while the segment
controller does not run (R84, R470). -/
def Seg.submit (s : Seg) (a : Access) : Seg :=
  if !s.mp.ready then s
  else match (if a.req == .mp then s.mp.half else none) with
    | some (_, a0, _) => s.brokenHalf a a0
    | none =>
      let s := s.retryStalled
      if s.ctl.stalled.isEmpty then s.runAccess a
      else if s.guarding a then
        match s.decideRows a with
        | .done s code => s.answer a code 0
        | .go s a => s.modCtl fun c => { c with stalled := c.stalled ++ [a] }
      else s.modCtl fun c => { c with stalled := c.stalled ++ [a] }

/-! ### The management port (R76–R84) -/

/-- The port waits for an access of its own. -/
def Seg.mpWaiting (s : Seg) : Bool := s.ctl.stalled.any (fun a => a.req == .mp)

/-- One request of the management port (R77–R80). The port ignores it while MP_READY is 0, and a halted controller is woken
by it (R469); the host holds it while an access is in progress. -/
def Seg.mpTake (s : Seg) (wr : Bool) (size : BitVec 2) (addr wdata : Word) : Seg :=
  if !s.mp.ready then s.aonWake 0x850
  else if s.mpWaiting then s
  else
    let half := s.mp.half
    let s := s.setMp { ready := true }
    let a : Access := { req := .mp, wr := wr, size := size, addr := addr, data := wdata.zeroExtend 64 }
    match half with
    | some (hwr, a0, v) =>
      if size = 3 ∧ wr = hwr ∧ addr = a0 + 4 then
        if wr then s.submit { a with addr := a0, data := wdata ++ v }
        else s.setMp { ready := true, ack := true, rdata := v }
      else s.brokenHalf a a0
    | none =>
      if size = 3 ∧ wr = true then
        let code := s.accessError { a with data := 0 }
        let code := if code = 0 ∧ s.soak = true ∧ wdata ≠ 0 then 3 else code
        if code ≠ 0 then ((s.breakGuard a).noteError a code).answer a code 0
        else s.setMp { ready := true, ack := true, half := some (true, addr, wdata) }
      else s.submit a

end Sys2Proof.Machine
end

