-- ==== Sys2Proof/Machine/Registers.lean ====
section
/-!
DEFINITION. The register accesses of the command table: the management port, REGACC packets, guards, and every row that
is a write of one register or one guarded pair (R19–R63, R76–R84, R114, R210). A row that a requester's guarded pair makes
carries out both writes of the pair.
-/
namespace Sys2Proof.Machine

/-! ### Writes by a requester -/

/-- Who makes an access: the requester, and whether the domain its site stamps is that of a mismatched TEN_DOM word (R63). -/
structure Asker where
  req : Requester
  bad : Bool
  deriving DecidableEq, Repr

/-- A requester is a site whose TEN_DOM word, in its own segment, mismatches: its accesses are stamped with domain 63 and
refused (R63). -/
def State.stampBad (s : State) : Requester → Bool
  | .mp => false
  | .agent e _ =>
    decide (eidLocal e < 0x120) && (s.seg (Fin.ofNat 4 (eidSeg e))).mismatched pgTen (0x100 + 8 * (eidLocal e / 4))

/-- A command of requester `r` on segment `g`. Its domain comes as an operand (log 84); the mark of a mismatched TEN_DOM
word comes from the segment of its site. -/
def onReq (s : State) (g : Fin 4) (r : Requester) (f : Asker → Seg → Seg) : Result := onSeg s g (f ⟨r, s.stampBad r⟩)

/-- An access that a row of the command table gives. -/
def Seg.give (s : Seg) (r : Asker) (a : Access) : Seg := s.submit { a with req := r.req, badDom := r.bad }

/-- One 32-bit write of `v` by `r`. -/
def Seg.regWrite (s : Seg) (r : Asker) (p off : Nat) (v : Word) : Seg :=
  s.give r { req := r.req, wr := true, size := 2, addr := mgmtAddr s.strap p off, data := v.zeroExtend 64 }

/-- The guarded pair of `v` by `r`: the value at `off`, then its complement at `off + 4` (R41). -/
def Seg.regPair (s : Seg) (r : Asker) (p off : Nat) (v : Word) (told : Option Bool) : Seg :=
  (s.regWrite r p off v).give r { req := r.req, wr := true, size := 2, addr := mgmtAddr s.strap p (off + 4),
                                  data := (~~~v).zeroExtend 64, told := told }

/-- REGISTER_WRITE (R36). -/
def execRegisterWrite (g : Fin 4) (r : Requester) (size : BitVec 2) (addr : Word) (data : BitVec 64) (s : State) : Result :=
  onReq s g r fun r s => s.give r { req := r.req, wr := true, size := size, addr := addr, data := data }

/-- COUNTER_CLEAR (R52): a write of zero. -/
def execCounterClear (g : Fin 4) (r : Requester) (size : BitVec 2) (addr : Word) (s : State) : Result :=
  onReq s g r fun r s => s.give r { req := r.req, wr := true, size := size, addr := addr }

/-! ### Guards (R41–R45) -/

/-- GUARD_OPEN (R41, R43): the opening write. -/
def execGuardOpen (g : Fin 4) (r : Requester) (addr data : Word) (s : State) : Result :=
  onReq s g r fun r s => s.give r { req := r.req, wr := true, size := 2, addr := addr, data := data.zeroExtend 64 }

/-- GUARD_CLOSE (R41, R42, R44): the same requester's next write. -/
def execGuardClose (g : Fin 4) (r : Requester) (addr data : Word) (s : State) : Result :=
  onReq s g r fun r s => s.give r { req := r.req, wr := true, size := 2, addr := addr, data := data.zeroExtend 64 }

/-- GUARD_TIMEOUT (R42, R45): the window of a guard open on a page closes. -/
def execGuardTimeout (g : Fin 4) (page : Nat) (s : State) : Result :=
  onSeg s g fun s =>
    if s.ctl.guards.any (fun d => d.page == page) then
      (s.modCtl fun c => { c with guards := c.guards.filter (fun d => d.page != page) }).guardFail page
    else s

/-! ### REGACC (R22, R45, R114, R210) -/

/-- The REGACC of source `src` that has reached the controller: its key, its flits, and what follows them. -/
def Seg.regaccOf (s : Seg) (src : BitVec 12) : Option (Nat × MgtHdr × List Flit × List Flit) :=
  (s.ep 0x3F0).asm.findSome? fun (k, fs) =>
    match fs with
    | f :: _ =>
      match f.body, fs.findIdx? (·.tail) with
      | .mgtHead h, some i =>
        if !h.fab && h.type == tRegacc && h.src == src then some (k, h, fs.take (i + 1), fs.drop (i + 1)) else none
      | _, _ => none
    | [] => none

/-- A REGACC taken from its slot. One whose header fails its checks is dropped; one that is poisoned, comes from a segment
not reached, or has PAIR with another form than a 32-bit write completes with DECERR. -/
def Seg.regaccTake (s : Seg) (src : BitVec 12) (onlyPair : Bool) : Seg :=
  match s.regaccOf src with
  | none => s
  | some (k, h, fs, rest) =>
    let w := wordsOf fs
    let a0 := (w[0]?).getD 0
    let pair := a0.getLsbD 35
    if !s.mp.ready || (onlyPair && !pair) then s
    else
      let s := s.mgtTaken 0x3F0 k rest
      if !h.glazeOk || fs.any (·.upset == 3) || (match fs with | f :: _ => f.upset == 2 | [] => false) then s
      else
        let size := a0.extractLsb' 32 2
        let wr := a0.getLsbD 34
        let a : Access := { req := .agent h.src h.dom, wr := wr, size := size, addr := a0.truncate 32,
                            data := (w[1]?).getD 0, pair := pair, cpl := some h.tag, badDom := h.domBad }
        let bad := h.poison || fs.any (fun f => f.poison || f.trunc || f.upset == 2) || !s.reachable h.src
          || (pair && !(wr && size == 2))
        if bad then (s.breakGuard a).answer a 1 0 else s.submit a

/-- REGACC_RECEIVE. -/
def execRegaccReceive (g : Fin 4) (src : BitVec 12) (s : State) : Result := onSeg s g fun s => s.regaccTake src false

/-- REGACC_SINGLE_PACKET_PAIR. -/
def execRegaccSinglePacketPair (g : Fin 4) (src : BitVec 12) (s : State) : Result := onSeg s g fun s => s.regaccTake src true

/-! ### The management port (R76–R84) -/

/-- MP_REQUEST. -/
def execMpRequest (g : Fin 4) (wr : Bool) (size : BitVec 2) (addr wdata : Word) (s : State) : Result :=
  onSeg s g fun s => s.mpTake wr size addr wdata

/-- MP_64BIT_FIRST_REQUEST (R78). -/
def execMp64BitFirstRequest (g : Fin 4) (wr : Bool) (addr wdata : Word) (s : State) : Result :=
  onSeg s g fun s => s.mpTake wr 3 addr wdata

/-- MP_64BIT_SECOND_REQUEST (R78, R79). -/
def execMp64BitSecondRequest (g : Fin 4) (wr : Bool) (addr wdata : Word) (s : State) : Result :=
  onSeg s g fun s => s.mpTake wr 3 addr wdata

/-- MP_ACCESS_TIMEOUT (R80, R81): the port's access that waits completes with TIMEOUT. Whether a write took effect is free
(log 7). -/
def execMpAccessTimeout (g : Fin 4) (s : State) : Result :=
  onSeg s g fun s =>
    match s.ctl.stalled.find? (fun a => a.req == .mp) with
    | none => s
    | some a =>
      let s := s.modCtl fun c => { c with stalled := c.stalled.filter (fun a => a.req != .mp) }
      let took := Config.tookEffect s.free
      let s := s.tick1
      let s := if a.wr && took then
          match s.decideRows a with
          | .done s _ => s
          | .go s a =>
            match pageKind (addrPage a.addr) with
            | some (k, i) => s.plainWrite k i (addrPage a.addr) (addrOff a.addr) a
            | none => s
        else s
      ((s.evt pgSeg 8 a.addr).answer a 4 0).retryStalled

/-! ### Drains (R37, R38) -/

/-- DRAIN_COMPLETE (R37): a unit whose ENABLE is 0 has no work in flight any more. -/
def execDrainComplete (g : Fin 4) (page : Nat) (s : State) : Result :=
  onSeg s g fun s =>
    match pageKind page with
    | some (k, i) =>
      if s.flag page Reg.PAGE.PAGE_CTRL_ENABLE || s.pageBusy k i then s else s.wr page Reg.PAGE.PAGE_STAT_ENABLED 0
    | none => s

/-! ### Restores and injections (R441, R446) -/

/-- RESTORE_COMPLETE (R425, R441): the unit is back in service. -/
def execRestoreComplete (g : Fin 4) (s : State) : Result :=
  onSeg s g fun s =>
    match s.ctl.restore with
    | none => s
    | some (src, b) =>
      let fin := fun (s : Seg) =>
        ((s.wr pgColl Reg.COLL.CMD_STAT_BUSY 0).wr pgColl Reg.COLL.CMD_STAT_RESULT 1).modCtl fun c => { c with restore := none }
      if src = 0x10 ∨ src = 0x11 then (if running (s.bunTx (src - 0x10) b) then fin s else s)
      else match s.sagUnit src 0 0 with
        | .router t => if s.map.saggared.contains t then s else fin (s.wr (pgRt t) Reg.PAGE.PAGE_STAT_SAGGARED 0)
        | .ni n => fin (s.wr (pgNi n) Reg.PAGE.PAGE_STAT_SAGGARED 0)
        | .bank b => if (s.bank b).zeroing then s else fin (s.wr (pgBank b) Reg.PAGE.PAGE_STAT_SAGGARED 0)
        | _ => fin s

/-- INJECTION_SPACING (R446): SPACING management clocks after an injection, the next is made. -/
def execInjectionSpacing (g : Fin 4) (s : State) : Result :=
  onSeg s g fun s => if s.factory then s.inject else s

/-! ### Wakes (R81, R455) -/

/-- DOMAIN_WAKE_DONE (R455): the domain is up, and the accesses that wait for it run. -/
def execDomainWakeDone (g : Fin 4) (dom : Fin 1024) (badCanary : Option (Fin 4)) (s : State) : Result :=
  if (0x40 ≤ dom.val ∧ dom.val < 0xD0) ∨ (0x100 ≤ dom.val ∧ dom.val < 0x148) then
    onSeg s g fun s =>
      let s := s.wakeDone dom (badCanary.map (·.val))
      if s.mp.ready then s.retryStalled else s
  else .fault .absentUnit

/-! ### Rows that write one register -/

/-- PAGE_DISABLE (R37): ENABLE written 0, the rest of PAGE_CTRL kept. -/
def execPageDisable (g : Fin 4) (r : Requester) (page : Nat) (s : State) : Result :=
  onReq s g r fun r s => s.regWrite r page 0x008 (s.word page 0x008 &&& ~~~1)

/-- PAGE_ENABLE (R28, R37, R73): ENABLE written 1. -/
def execPageEnable (g : Fin 4) (r : Requester) (page : Nat) (s : State) : Result :=
  onReq s g r fun r s => s.regWrite r page 0x008 (s.word page 0x008 ||| 1)

/-- PAGE_DRAIN (R38): DRAIN written 1. -/
def execPageDrain (g : Fin 4) (r : Requester) (page : Nat) (s : State) : Result :=
  onReq s g r fun r s => s.regWrite r page 0x008 (s.word page 0x008 ||| 2)

/-- PAGE_OWNER_WRITE (R41, R55, R56): the pair at PAGE_OWNER. -/
def execPageOwnerWrite (g : Fin 4) (r : Requester) (page : Nat) (dom : BitVec 6) (readAny : Bool) (s : State) : Result :=
  onReq s g r fun r s => s.regPair r page 0x01C (BitVec.ofNat 32 (dom.toNat + 256 * b2n readAny)) none

/-- TEN_DOM_WRITE (R61–R63): the pair at word `n`. -/
def execTenDomWrite (g : Fin 4) (r : Requester) (n : Fin 72) (word : Word) (s : State) : Result :=
  onReq s g r fun r s => s.regPair r pgTen (0x100 + 8 * n.val) (word) none

/-- TEN_DENY_CLEAR (R61): VALID written 1. -/
def execTenDenyClear (g : Fin 4) (r : Requester) (s : State) : Result :=
  onReq s g r fun r s => s.regWrite r pgTen 0x390 (0x80000000)

/-- SEG_MODE_WRITE (R58, R438, R439): MODE through a pair, EXPERT_EN as it is. -/
def execSegModeWrite (g : Fin 4) (r : Requester) (mode : BitVec 2) (s : State) : Result :=
  onReq s g r fun r s => s.regPair r pgSeg 0x110 (Reg.SEG.SEG_CTRL_MODE.set (s.word pgSeg 0x110) mode.toNat) none

/-- EXPERT_EN_WRITE (R39, R40, R58): EXPERT_EN through a pair, MODE as it is. -/
def execExpertEnWrite (g : Fin 4) (r : Requester) (en : Bool) (s : State) : Result :=
  onReq s g r fun r s => s.regPair r pgSeg 0x110 (Reg.SEG.SEG_CTRL_EXPERT_EN.set (s.word pgSeg 0x110) (b2n en)) none

/-- LOCK_EXPERT (R58, R59). -/
def execLockExpert (g : Fin 4) (r : Requester) (s : State) : Result :=
  onReq s g r fun r s => s.regPair r pgSeg 0x118 (s.word pgSeg 0x118 ||| 2) none

/-- LOCK_OWNERS (R58, R59). -/
def execLockOwners (g : Fin 4) (r : Requester) (s : State) : Result :=
  onReq s g r fun r s => s.regPair r pgSeg 0x118 (s.word pgSeg 0x118 ||| 1) none

/-- BIND_READ (R129, R131). -/
def execBindRead (g : Fin 4) (r : Requester) (site : Fin 288) (idx : Byte) (s : State) : Result :=
  onReq s g r fun r s => s.regWrite r (pgNi site) 0x110 (BitVec.ofNat 32 idx.toNat)

/-- BIND_COMMIT (R129, R130). -/
def execBindCommit (g : Fin 4) (r : Requester) (site : Fin 288) (idx : Byte) (s : State) : Result :=
  onReq s g r fun r s => s.regWrite r (pgNi site) 0x110 (BitVec.ofNat 32 (256 + idx.toNat))

/-- BIND_CLEAR (R129, R130). -/
def execBindClear (g : Fin 4) (r : Requester) (site : Fin 288) (idx : Byte) (s : State) : Result :=
  onReq s g r fun r s => s.regWrite r (pgNi site) 0x110 (BitVec.ofNat 32 (512 + idx.toNat))

/-- NI_RESET (R177, R178, R180): the pair at NI_RST. -/
def execNiReset (g : Fin 4) (r : Requester) (site : Fin 288) (s : State) : Result :=
  onReq s g r fun r s => s.regPair r (pgNi site) 0x220 (1) none

/-- BANK_OWN_COMMIT (R326–R328): the pair at BANK_OWN. -/
def execBankOwnCommit (g : Fin 4) (r : Requester) (bank : Fin 72) (word : Word) (s : State) : Result :=
  onReq s g r fun r s => s.regPair r (pgBank bank) 0x100 (word) none

/-- ZERO_CMD (R326, R339). -/
def execZeroCmd (g : Fin 4) (r : Requester) (bank : Fin 72) (s : State) : Result :=
  onReq s g r fun r s => s.regWrite r (pgBank bank) 0x110 (1)

/-- REPAIR_WRITE (R340, R342). -/
def execRepairWrite (g : Fin 4) (r : Requester) (bank : Fin 72) (sub : Fin 8) (word : Word) (s : State) : Result :=
  onReq s g r fun r s => s.regWrite r (pgBank bank) (0x400 + 4 * sub.val) (word)

/-- SLOT_DATA_WRITE (R238, R269). -/
def execSlotDataWrite (g : Fin 4) (r : Requester) (tile : Fin 144) (word : Word) (s : State) : Result :=
  onReq s g r fun r s => s.regWrite r (pgRt tile) 0x408 (word)

/-- SLOT_COPY (R239). -/
def execSlotCopy (g : Fin 4) (r : Requester) (tile : Fin 144) (s : State) : Result :=
  onReq s g r fun r s => s.regWrite r (pgRt tile) 0x400 ((s.word (pgRt tile) 0x400 &&& 0xFFFF0010) ||| 4)

/-- SLOT_CLEAR (R239). -/
def execSlotClear (g : Fin 4) (r : Requester) (tile : Fin 144) (s : State) : Result :=
  onReq s g r fun r s => s.regWrite r (pgRt tile) 0x400 ((s.word (pgRt tile) 0x400 &&& 0xFFFF0010) ||| 8)

/-- SLOT_SWAP_REQ (R240). -/
def execSlotSwapReq (g : Fin 4) (r : Requester) (tile : Fin 144) (s : State) : Result :=
  onReq s g r fun r s => s.regWrite r (pgRt tile) 0x400 ((s.word (pgRt tile) 0x400 &&& 0xFFFF0010) ||| 1)

/-- STARVE_N_WRITE (R225, R244). -/
def execStarveNWrite (g : Fin 4) (r : Requester) (tile : Fin 144) (n : BitVec 7) (s : State) : Result :=
  onReq s g r fun r s => s.regWrite r (pgRt tile) 0x300 (BitVec.ofNat 32 n.toNat)

/-- RES_DATA_WRITE (R252, R272). -/
def execResDataWrite (g : Fin 4) (r : Requester) (tile : Fin 144) (word : Word) (s : State) : Result :=
  onReq s g r fun r s => s.regWrite r (pgRt tile) 0x244 (word)

/-- DEMOTE_CLEAR_L0 (R266, R272). -/
def execDemoteClearL0 (g : Fin 4) (r : Requester) (tile : Fin 144) (s : State) : Result :=
  onReq s g r fun r s => s.regWrite r (pgRt tile) 0x2E0 (1)

/-- DEMOTE_CLEAR_L1 (R266, R272). -/
def execDemoteClearL1 (g : Fin 4) (r : Requester) (tile : Fin 144) (s : State) : Result :=
  onReq s g r fun r s => s.regWrite r (pgRt tile) 0x2E0 (2)

/-- FW_READ (R301). -/
def execFwRead (g : Fin 4) (r : Requester) (idx : BitVec 18) (s : State) : Result :=
  onReq s g r fun r s => s.regWrite r pgFlow 0x100 (BitVec.ofNat 32 (1 * 2 ^ 24 + idx.toNat))

/-- FW_READ_SYNC (R301, R304). -/
def execFwReadSync (g : Fin 4) (r : Requester) (idx : BitVec 18) (s : State) : Result :=
  onReq s g r fun r s => s.regWrite r pgFlow 0x100 (BitVec.ofNat 32 (2 * 2 ^ 24 + idx.toNat))

/-- FW_WRITE_CFG (R301, R302). -/
def execFwWriteCfg (g : Fin 4) (r : Requester) (idx : BitVec 18) (s : State) : Result :=
  onReq s g r fun r s => s.regWrite r pgFlow 0x100 (BitVec.ofNat 32 (3 * 2 ^ 24 + idx.toNat))

/-- FW_WRITE_RAW (R301, R302). -/
def execFwWriteRaw (g : Fin 4) (r : Requester) (idx : BitVec 18) (s : State) : Result :=
  onReq s g r fun r s => s.regWrite r pgFlow 0x100 (BitVec.ofNat 32 (4 * 2 ^ 24 + idx.toNat))

/-- FW_INIT (R301, R305). -/
def execFwInit (g : Fin 4) (r : Requester) (s : State) : Result :=
  onReq s g r fun r s => s.regWrite r pgFlow 0x100 (BitVec.ofNat 32 (5 * 2 ^ 24))

/-- CLK_OVR_CLEAR (R364). -/
def execClkOvrClear (g : Fin 4) (r : Requester) (w : Fin 5) (bits : Word) (s : State) : Result :=
  onReq s g r fun r s => s.regWrite r pgClk (0x380 + 4 * w.val) (bits)

/-- SRC_CLEAR (R437): the pair at SRC_CMD. -/
def execSrcClear (g : Fin 4) (r : Requester) (src : BitVec 10) (s : State) : Result :=
  onReq s g r fun r s => s.regPair r pgColl 0x118 (BitVec.ofNat 32 (src.toNat * 256 + 1)) none

/-- SRC_RESTORE (R441): the pair at SRC_CMD. -/
def execSrcRestore (g : Fin 4) (r : Requester) (src : BitVec 10) (bundle : BitVec 5) (s : State) : Result :=
  onReq s g r fun r s => s.regPair r pgColl 0x118 (BitVec.ofNat 32 (src.toNat * 256 + bundle.toNat * 4 + 2)) none

/-- BULK_CFG_WRITE (R447). -/
def execBulkCfgWrite (g : Fin 4) (r : Requester) (type : BitVec 3) (s : State) : Result :=
  onReq s g r fun r s => s.regWrite r pgColl 0x140 (BitVec.ofNat 32 type.toNat)

/-- INJECT_EVENT (R446): GO with MODE 0b00. -/
def execInjectEvent (g : Fin 4) (r : Requester) (s : State) : Result :=
  onReq s g r fun r s => s.regWrite r pgColl 0xF00 (Reg.COLL.INJ_CTRL_MODE.set (s.word pgColl 0xF00) 0 ||| 1)

/-- INJECT_FLIT (R446): GO with MODE 0b01. -/
def execInjectFlit (g : Fin 4) (r : Requester) (s : State) : Result :=
  onReq s g r fun r s => s.regWrite r pgColl 0xF00 (Reg.COLL.INJ_CTRL_MODE.set (s.word pgColl 0xF00) 1 ||| 1)

/-- INJECT_GLAZE (R446): GO with MODE 0b10. -/
def execInjectGlaze (g : Fin 4) (r : Requester) (s : State) : Result :=
  onReq s g r fun r s => s.regWrite r pgColl 0xF00 (Reg.COLL.INJ_CTRL_MODE.set (s.word pgColl 0xF00) 2 ||| 1)

/-- INJECT_LANE (R446): GO with MODE 0b11. -/
def execInjectLane (g : Fin 4) (r : Requester) (s : State) : Result :=
  onReq s g r fun r s => s.regWrite r pgColl 0xF00 (Reg.COLL.INJ_CTRL_MODE.set (s.word pgColl 0xF00) 3 ||| 1)

/-- TILE_OFF (R459, R460): the pair at TILE_CMD. -/
def execTileOff (g : Fin 4) (r : Requester) (first last : Byte) (keep : Bool) (s : State) : Result :=
  onReq s g r fun r s => s.regPair r pgPwr 0x180 (BitVec.ofNat 32 (1 * 2 ^ 24 + last.toNat * 2 ^ 16 + first.toNat * 2 ^ 8 + b2n keep)) none

/-- TILE_WAKE (R459, R461). -/
def execTileWake (g : Fin 4) (r : Requester) (first last : Byte) (s : State) : Result :=
  onReq s g r fun r s => s.regPair r pgPwr 0x180 (BitVec.ofNat 32 (2 * 2 ^ 24 + last.toNat * 2 ^ 16 + first.toNat * 2 ^ 8)) none

/-- BANK_OFF (R459, R460). -/
def execBankOff (g : Fin 4) (r : Requester) (first last : Byte) (s : State) : Result :=
  onReq s g r fun r s => s.regPair r pgPwr 0x180 (BitVec.ofNat 32 (3 * 2 ^ 24 + last.toNat * 2 ^ 16 + first.toNat * 2 ^ 8)) none

/-- BANK_WAKE (R459, R461). -/
def execBankWake (g : Fin 4) (r : Requester) (first last : Byte) (s : State) : Result :=
  onReq s g r fun r s => s.regPair r pgPwr 0x180 (BitVec.ofNat 32 (4 * 2 ^ 24 + last.toNat * 2 ^ 16 + first.toNat * 2 ^ 8)) none

/-- SEG_ENTRY_DROWSY (R464, R465): the pair at PWR_SEG_CMD. -/
def execSegEntryDrowsy (g : Fin 4) (r : Requester) (s : State) : Result :=
  onReq s g r fun r s => s.regPair r pgPwr 0x100 (1) none

/-- SEG_ENTRY_RETAIN (R464, R465). -/
def execSegEntryRetain (g : Fin 4) (r : Requester) (s : State) : Result :=
  onReq s g r fun r s => s.regPair r pgPwr 0x100 (2) none

/-- SEG_ENTRY_AON (R464, R465, R470). -/
def execSegEntryAon (g : Fin 4) (r : Requester) (halt : Bool) (s : State) : Result :=
  onReq s g r fun r s => s.regPair r pgPwr 0x100 (BitVec.ofNat 32 (3 + 4 * b2n halt)) none

/-- CLK_SWITCH (R496): the pair at CLK_SW; `refclkOk` is what the check finds. -/
def execClkSwitch (g : Fin 4) (r : Requester) (refclkOk : Bool) (s : State) : Result :=
  onReq s g r fun r s => s.regPair r pgClk 0x104 (1) (some refclkOk)

/-- LANE_CMD_RETRAIN (R395, R411). -/
def execLaneCmdRetrain (g : Fin 4) (r : Requester) (br : Fin 2) (bundle : BitVec 5) (s : State) : Result :=
  onReq s g r fun r s => s.regWrite r (pgBr br) 0x410 (BitVec.ofNat 32 (256 + bundle.toNat))

/-- BSLOT_DATA_WRITE (R391, R411). -/
def execBslotDataWrite (g : Fin 4) (r : Requester) (br : Fin 2) (word : Word) (s : State) : Result :=
  onReq s g r fun r s => s.regWrite r (pgBr br) 0x408 (word)

/-- BR_SLOT_COPY (R392, R411). -/
def execBrSlotCopy (g : Fin 4) (r : Requester) (br : Fin 2) (s : State) : Result :=
  onReq s g r fun r s => s.regWrite r (pgBr br) 0x400 ((s.word (pgBr br) 0x400 &&& 0xFFFF0010) ||| 4)

/-- BR_SLOT_CLEAR (R392, R411). -/
def execBrSlotClear (g : Fin 4) (r : Requester) (br : Fin 2) (s : State) : Result :=
  onReq s g r fun r s => s.regWrite r (pgBr br) 0x400 ((s.word (pgBr br) 0x400 &&& 0xFFFF0010) ||| 8)

/-- BR_SLOT_SWAP_REQ (R392). -/
def execBrSlotSwapReq (g : Fin 4) (r : Requester) (br : Fin 2) (s : State) : Result :=
  onReq s g r fun r s => s.regWrite r (pgBr br) 0x400 ((s.word (pgBr br) 0x400 &&& 0xFFFF0010) ||| 1)

/-- JOIN (R405): the pair at RING_CTRL. -/
def execJoin (g : Fin 4) (r : Requester) (s : State) : Result :=
  onReq s g r fun r s => s.regPair r (pgBr 0) 0x120 (1) none

/-- ADMIT (R408). -/
def execAdmitSeg (g : Fin 4) (r : Requester) (t : Fin 4) (s : State) : Result :=
  onReq s g r fun r s => s.regPair r (pgBr 0) 0x120 (BitVec.ofNat 32 (16 * t.val + 4)) none

/-- LEAVE (R408). -/
def execLeave (g : Fin 4) (r : Requester) (s : State) : Result :=
  onReq s g r fun r s => s.regPair r (pgBr 0) 0x120 (2) none

/-- BAY_BIND (R488). -/
def execBayBind (g : Fin 4) (r : Requester) (bay : Fin 8) (s : State) : Result :=
  onReq s g r fun r s => s.regWrite r (pgBay bay) 0x114 (1)

/-- BAY_UNBIND (R489). -/
def execBayUnbind (g : Fin 4) (r : Requester) (bay : Fin 8) (s : State) : Result :=
  onReq s g r fun r s => s.regWrite r (pgBay bay) 0x114 (2)

/-- BAY_REREAD (R488). -/
def execBayReread (g : Fin 4) (r : Requester) (bay : Fin 8) (s : State) : Result :=
  onReq s g r fun r s => s.regWrite r (pgBay bay) 0x114 (3)

/-- BAY_ENABLE (R478). -/
def execBayEnable (g : Fin 4) (r : Requester) (bay : Fin 8) (s : State) : Result :=
  onReq s g r fun r s => s.regWrite r (pgBay bay) 0x008 (s.word (pgBay bay) 0x008 ||| 1)

/-- BAY_DISABLE (R482). -/
def execBayDisable (g : Fin 4) (r : Requester) (bay : Fin 8) (s : State) : Result :=
  onReq s g r fun r s => s.regWrite r (pgBay bay) 0x008 (s.word (pgBay bay) 0x008 &&& ~~~1)

/-- KILN_LOGIC (R500–R503): the pair at KILN_CMD. -/
def execKilnLogic (g : Fin 4) (r : Requester) (scope : Bool) (unit : BitVec 10) (bundle : BitVec 5) (seedEn : Bool) (s : State) : Result :=
  onReq s g r fun r s => s.regPair r pgKiln 0x100 (BitVec.ofNat 32 (1 + 8 * b2n scope + 16 * unit.toNat + 2 ^ 14 * bundle.toNat + 2 ^ 19 * b2n seedEn)) none

/-- KILN_MEMORY (R500–R503): the pair at KILN_CMD. -/
def execKilnMemory (g : Fin 4) (r : Requester) (scope : Bool) (unit : BitVec 10) (bundle : BitVec 5) (seedEn : Bool) (s : State) : Result :=
  onReq s g r fun r s => s.regPair r pgKiln 0x100 (BitVec.ofNat 32 (2 + 8 * b2n scope + 16 * unit.toNat + 2 ^ 14 * bundle.toNat + 2 ^ 19 * b2n seedEn)) none

/-- KILN_LOGIC_MEMORY (R500–R503): the pair at KILN_CMD. -/
def execKilnLogicMemory (g : Fin 4) (r : Requester) (scope : Bool) (unit : BitVec 10) (bundle : BitVec 5) (seedEn : Bool) (s : State) : Result :=
  onReq s g r fun r s => s.regPair r pgKiln 0x100 (BitVec.ofNat 32 (3 + 8 * b2n scope + 16 * unit.toNat + 2 ^ 14 * bundle.toNat + 2 ^ 19 * b2n seedEn)) none

/-- KILN_ABORT (R500, R508). -/
def execKilnAbort (g : Fin 4) (r : Requester) (s : State) : Result :=
  onReq s g r fun r s => s.regPair r pgKiln 0x100 (4) none

/-- KILN_APPLY (R500, R510). -/
def execKilnApply (g : Fin 4) (r : Requester) (s : State) : Result :=
  onReq s g r fun r s => s.regPair r pgKiln 0x100 (5) none

/-- FACTORY_KEY_WRITE (R511): the pair at FACTORY_KEY; `late` when the second key comes past its time. -/
def execFactoryKeyWrite (g : Fin 4) (r : Requester) (key : BitVec 16) (late : Bool) (s : State) : Result :=
  onReq s g r fun r s => s.regPair r pgKiln 0x160 (BitVec.ofNat 32 key.toNat) (some late)

/-- FACTORY_ENTER (R511). -/
def execFactoryEnter (g : Fin 4) (r : Requester) (late : Bool) (s : State) : Result :=
  onReq s g r fun r s => s.regPair r pgKiln 0x168 (1) (some late)

/-- FACTORY_EXIT (R511). -/
def execFactoryExit (g : Fin 4) (r : Requester) (s : State) : Result :=
  onReq s g r fun r s => s.regPair r pgKiln 0x168 (2) none

/-- FUSE_PROGRAM (R513): the pair at FUSE_CMD. -/
def execFuseProgram (g : Fin 4) (r : Requester) (word : BitVec 10) (s : State) : Result :=
  onReq s g r fun r s => s.regPair r pgKiln 0xF00 (BitVec.ofNat 32 (1024 + word.toNat)) none

/-- FUSE_PROG_REPAIR (R513). -/
def execFuseProgRepair (g : Fin 4) (r : Requester) (s : State) : Result :=
  onReq s g r fun r s => s.regPair r pgKiln 0xF00 (BitVec.ofNat 32 2048) none

/-- PROBE_LOOKUP (R311). -/
def execProbeLookup (g : Fin 4) (r : Requester) (site : Fin 288) (idx : BitVec 18) (s : State) : Result :=
  onReq s g r fun r s => s.regWrite r (pgNi site) 0x288 (BitVec.ofNat 32 idx.toNat)
end Sys2Proof.Machine
end

