-- ==== Sys2Proof/Machine/Dispatch.lean ====
section
/-!
DEFINITION. The meaning of each command, one arm per constructor of `Instr`, each one direct call.
-/
namespace Sys2Proof.Machine

/-- The effect of a command on everything but the queue. -/
def exec (i : Instr) (s : State) : Host.Outcome State Fault Refusal :=
  match i with
  | .registerWrite g r size addr data => Sys2Proof.Machine.execRegisterWrite g r size addr data s
  | .guardOpen g r addr data => Sys2Proof.Machine.execGuardOpen g r addr data s
  | .guardClose g r addr data => Sys2Proof.Machine.execGuardClose g r addr data s
  | .guardTimeout g page => Sys2Proof.Machine.execGuardTimeout g page s
  | .regaccReceive g src => Sys2Proof.Machine.execRegaccReceive g src s
  | .regaccSinglePacketPair g src => Sys2Proof.Machine.execRegaccSinglePacketPair g src s
  | .mpRequest g wr size addr wdata => Sys2Proof.Machine.execMpRequest g wr size addr wdata s
  | .mp64BitFirstRequest g wr addr wdata => Sys2Proof.Machine.execMp64BitFirstRequest g wr addr wdata s
  | .mp64BitSecondRequest g wr addr wdata => Sys2Proof.Machine.execMp64BitSecondRequest g wr addr wdata s
  | .mpAccessTimeout g => Sys2Proof.Machine.execMpAccessTimeout g s
  | .counterClear g r size addr => Sys2Proof.Machine.execCounterClear g r size addr s
  | .pageDisable g r page => Sys2Proof.Machine.execPageDisable g r page s
  | .pageEnable g r page => Sys2Proof.Machine.execPageEnable g r page s
  | .pageDrain g r page => Sys2Proof.Machine.execPageDrain g r page s
  | .drainComplete g page => Sys2Proof.Machine.execDrainComplete g page s
  | .pageOwnerWrite g r page dom readAny => Sys2Proof.Machine.execPageOwnerWrite g r page dom readAny s
  | .tenDomWrite g r n word => Sys2Proof.Machine.execTenDomWrite g r n word s
  | .tenDenyClear g r => Sys2Proof.Machine.execTenDenyClear g r s
  | .segModeWrite g r mode => Sys2Proof.Machine.execSegModeWrite g r mode s
  | .expertEnWrite g r en => Sys2Proof.Machine.execExpertEnWrite g r en s
  | .lockExpert g r => Sys2Proof.Machine.execLockExpert g r s
  | .lockOwners g r => Sys2Proof.Machine.execLockOwners g r s
  | .glazeMismatch g page off flip => Sys2Proof.Machine.execGlazeMismatch g page off flip s
  | .poresetAssert g => Sys2Proof.Machine.execPoresetAssert g s
  | .poresetRelease g testMode => Sys2Proof.Machine.execPoresetRelease g testMode s
  | .segResetAssert g => Sys2Proof.Machine.execSegResetAssert g s
  | .segResetRelease g => Sys2Proof.Machine.execSegResetRelease g s
  | .fuseLoadComplete g => Sys2Proof.Machine.execFuseLoadComplete g s
  | .aliveToggle g => Sys2Proof.Machine.execAliveToggle g s
  | .rqBeat g site data par => Sys2Proof.Machine.execRqBeat g site data par s
  | .wdBeat g site data par last => Sys2Proof.Machine.execWdBeat g site data par last s
  | .wdStallTimeout g site => Sys2Proof.Machine.execWdStallTimeout g site s
  | .srBeat g site data par last => Sys2Proof.Machine.execSrBeat g site data par last s
  | .mgInputBeat g site data par last => Sys2Proof.Machine.execMgInputBeat g site data par last s
  | .rsBeatTaken g site => Sys2Proof.Machine.execRsBeatTaken g site s
  | .snBeatTaken g site => Sys2Proof.Machine.execSnBeatTaken g site s
  | .mgOutputTaken g site => Sys2Proof.Machine.execMgOutputTaken g site s
  | .agentClockStop g site => Sys2Proof.Machine.execAgentClockStop g site s
  | .agentClockReturn g site => Sys2Proof.Machine.execAgentClockReturn g site s
  | .agentResetAssert g site => Sys2Proof.Machine.execAgentResetAssert g site s
  | .agentResetRelease g site => Sys2Proof.Machine.execAgentResetRelease g site s
  | .agentWake g site hold => Sys2Proof.Machine.execAgentWake g site hold s
  | .apUpRise g site => Sys2Proof.Machine.execApUpRise g site s
  | .requestInject g site plane => Sys2Proof.Machine.execRequestInject g site plane s
  | .c1CopyRelease g site path => Sys2Proof.Machine.execC1CopyRelease g site path s
  | .fenceCplSend g site => Sys2Proof.Machine.execFenceCplSend g site s
  | .flitArrival g tile plane port look => Sys2Proof.Machine.execFlitArrival g tile plane port look s
  | .outputArbitration g tile plane look => Sys2Proof.Machine.execOutputArbitration g tile plane look s
  | .escapeSwitch g tile plane port vc => Sys2Proof.Machine.execEscapeSwitch g tile plane port vc s
  | .escapeWatchdog g tile plane port spot => Sys2Proof.Machine.execEscapeWatchdog g tile plane port spot s
  | .packetArrivalEgress g ep look => Sys2Proof.Machine.execPacketArrivalEgress g ep look s
  | .ackDelayExpiry g ep src plane => Sys2Proof.Machine.execAckDelayExpiry g ep src plane s
  | .ackReceive g look => Sys2Proof.Machine.execAckReceive g look s
  | .retryTimeout g ep dest plane => Sys2Proof.Machine.execRetryTimeout g ep dest plane s
  | .cplTimeout g site tag => Sys2Proof.Machine.execCplTimeout g site tag s
  | .cplReceive g site => Sys2Proof.Machine.execCplReceive g site s
  | .sourceGrantRelease g ep dest plane => Sys2Proof.Machine.execSourceGrantRelease g ep dest plane s
  | .egressGrantReclaim g ep src plane => Sys2Proof.Machine.execEgressGrantReclaim g ep src plane s
  | .bindRead g r site idx => Sys2Proof.Machine.execBindRead g r site idx s
  | .bindCommit g r site idx => Sys2Proof.Machine.execBindCommit g r site idx s
  | .bindClear g r site idx => Sys2Proof.Machine.execBindClear g r site idx s
  | .niDrainRelease g site => Sys2Proof.Machine.execNiDrainRelease g site s
  | .niReset g r site => Sys2Proof.Machine.execNiReset g r site s
  | .niResetComplete g site => Sys2Proof.Machine.execNiResetComplete g site s
  | .bankPacketAccept g bank corr uncorr => Sys2Proof.Machine.execBankPacketAccept g bank corr uncorr s
  | .reservationExpiry g bank src => Sys2Proof.Machine.execReservationExpiry g bank src s
  | .protectedEntryExpiry g bank src => Sys2Proof.Machine.execProtectedEntryExpiry g bank src s
  | .bankOwnCommit g r bank word => Sys2Proof.Machine.execBankOwnCommit g r bank word s
  | .handoverComplete g bank => Sys2Proof.Machine.execHandoverComplete g bank s
  | .zeroCmd g r bank => Sys2Proof.Machine.execZeroCmd g r bank s
  | .zeroingComplete g bank => Sys2Proof.Machine.execZeroingComplete g bank s
  | .scrubStep g bank errs => Sys2Proof.Machine.execScrubStep g bank errs s
  | .wakeScrubRow g bank errs => Sys2Proof.Machine.execWakeScrubRow g bank errs s
  | .wakeScrubComplete g bank => Sys2Proof.Machine.execWakeScrubComplete g bank s
  | .repairWrite g r bank sub word => Sys2Proof.Machine.execRepairWrite g r bank sub word s
  | .slotTick g tile => Sys2Proof.Machine.execSlotTick g tile s
  | .ftbSyncBoundary g tile => Sys2Proof.Machine.execFtbSyncBoundary g tile s
  | .slotDataWrite g r tile word => Sys2Proof.Machine.execSlotDataWrite g r tile word s
  | .slotCopy g r tile => Sys2Proof.Machine.execSlotCopy g r tile s
  | .slotClear g r tile => Sys2Proof.Machine.execSlotClear g r tile s
  | .slotCopyClearDone g tile => Sys2Proof.Machine.execSlotCopyClearDone g tile s
  | .slotSwapReq g r tile => Sys2Proof.Machine.execSlotSwapReq g r tile s
  | .slotValidationDone g tile => Sys2Proof.Machine.execSlotValidationDone g tile s
  | .slotPeriodBoundary g tile => Sys2Proof.Machine.execSlotPeriodBoundary g tile s
  | .starveNWrite g r tile n => Sys2Proof.Machine.execStarveNWrite g r tile n s
  | .resDataWrite g r tile word => Sys2Proof.Machine.execResDataWrite g r tile word s
  | .demoteClearL0 g r tile => Sys2Proof.Machine.execDemoteClearL0 g r tile s
  | .demoteClearL1 g r tile => Sys2Proof.Machine.execDemoteClearL1 g r tile s
  | .rejectNoticeReceive g site => Sys2Proof.Machine.execRejectNoticeReceive g site s
  | .fenceMapChange g => Sys2Proof.Machine.execFenceMapChange g s
  | .fenceMapAdopt g read => Sys2Proof.Machine.execFenceMapAdopt g read s
  | .ringNoticeReceive g unit => Sys2Proof.Machine.execRingNoticeReceive g unit s
  | .epochDrainReport g tile => Sys2Proof.Machine.execEpochDrainReport g tile s
  | .epochRetire g => Sys2Proof.Machine.execEpochRetire g s
  | .drainToExpiry g tile => Sys2Proof.Machine.execDrainToExpiry g tile s
  | .flowSendDecision g site idx => Sys2Proof.Machine.execFlowSendDecision g site idx s
  | .flowContextReturn g site idx => Sys2Proof.Machine.execFlowContextReturn g site idx s
  | .flowWritebackTimer g site idx => Sys2Proof.Machine.execFlowWritebackTimer g site idx s
  | .flowWritebackResult g site idx => Sys2Proof.Machine.execFlowWritebackResult g site idx s
  | .flowRefresh g site idx => Sys2Proof.Machine.execFlowRefresh g site idx s
  | .flowSweep g idx => Sys2Proof.Machine.execFlowSweep g idx s
  | .unavailFetchRetry g site idx => Sys2Proof.Machine.execUnavailFetchRetry g site idx s
  | .fwRead g r idx => Sys2Proof.Machine.execFwRead g r idx s
  | .fwReadSync g r idx => Sys2Proof.Machine.execFwReadSync g r idx s
  | .fwWriteCfg g r idx => Sys2Proof.Machine.execFwWriteCfg g r idx s
  | .fwWriteRaw g r idx => Sys2Proof.Machine.execFwWriteRaw g r idx s
  | .fwInit g r => Sys2Proof.Machine.execFwInit g r s
  | .fwCmdComplete g => Sys2Proof.Machine.execFwCmdComplete g s
  | .configNoticeReceive g read => Sys2Proof.Machine.execConfigNoticeReceive g read s
  | .recallReceive g site => Sys2Proof.Machine.execRecallReceive g site s
  | .recallAllReceive g site => Sys2Proof.Machine.execRecallAllReceive g site s
  | .flowwinDisableNotice g site => Sys2Proof.Machine.execFlowwinDisableNotice g site s
  | .tileCodeChange g tile => Sys2Proof.Machine.execTileCodeChange g tile s
  | .dcoRampDone g tile => Sys2Proof.Machine.execDcoRampDone g tile s
  | .tempSample g quad temp => Sys2Proof.Machine.execTempSample g quad temp s
  | .dcoLockLost g tile => Sys2Proof.Machine.execDcoLockLost g tile s
  | .dcoLockRegained g tile => Sys2Proof.Machine.execDcoLockRegained g tile s
  | .pulseRaise g src cause synd => Sys2Proof.Machine.execPulseRaise g src cause synd s
  | .eventProcess g src => Sys2Proof.Machine.execEventProcess g src s
  | .clkOvrClear g r w bits => Sys2Proof.Machine.execClkOvrClear g r w bits s
  | .activeLevelChange g src level => Sys2Proof.Machine.execActiveLevelChange g src level s
  | .srcClear g r src => Sys2Proof.Machine.execSrcClear g r src s
  | .srcRestore g r src bundle => Sys2Proof.Machine.execSrcRestore g r src bundle s
  | .restoreComplete g => Sys2Proof.Machine.execRestoreComplete g s
  | .autoClear g src => Sys2Proof.Machine.execAutoClear g src s
  | .collectorGlazePass g => Sys2Proof.Machine.execCollectorGlazePass g s
  | .bulkCfgWrite g r type => Sys2Proof.Machine.execBulkCfgWrite g r type s
  | .injectEvent g r => Sys2Proof.Machine.execInjectEvent g r s
  | .injectFlit g r => Sys2Proof.Machine.execInjectFlit g r s
  | .injectGlaze g r => Sys2Proof.Machine.execInjectGlaze g r s
  | .injectLane g r => Sys2Proof.Machine.execInjectLane g r s
  | .injectionSpacing g => Sys2Proof.Machine.execInjectionSpacing g s
  | .linkDnRise g tile port => Sys2Proof.Machine.execLinkDnRise g tile port s
  | .creditInitReceive g tile port => Sys2Proof.Machine.execCreditInitReceive g tile port s
  | .autoIdleEntry g dom => Sys2Proof.Machine.execAutoIdleEntry g dom s
  | .autoDrowsyEntry g dom => Sys2Proof.Machine.execAutoDrowsyEntry g dom s
  | .autoRetainEntry g dom => Sys2Proof.Machine.execAutoRetainEntry g dom s
  | .domainWake g dom => Sys2Proof.Machine.execDomainWake g dom s
  | .domainWakeDone g dom badCanary => Sys2Proof.Machine.execDomainWakeDone g dom badCanary s
  | .tileOff g r first last keep => Sys2Proof.Machine.execTileOff g r first last keep s
  | .tileWake g r first last => Sys2Proof.Machine.execTileWake g r first last s
  | .bankOff g r first last => Sys2Proof.Machine.execBankOff g r first last s
  | .bankWake g r first last => Sys2Proof.Machine.execBankWake g r first last s
  | .tileWakeRowStep g => Sys2Proof.Machine.execTileWakeRowStep g s
  | .tileCmdComplete g => Sys2Proof.Machine.execTileCmdComplete g s
  | .segEntryDrowsy g r => Sys2Proof.Machine.execSegEntryDrowsy g r s
  | .segEntryRetain g r => Sys2Proof.Machine.execSegEntryRetain g r s
  | .segEntryAon g r halt => Sys2Proof.Machine.execSegEntryAon g r halt s
  | .aonHalt g => Sys2Proof.Machine.execAonHalt g s
  | .prepareReceive g unit => Sys2Proof.Machine.execPrepareReceive g unit s
  | .sleepVote g unit => Sys2Proof.Machine.execSleepVote g unit s
  | .niSleepRefuse g site => Sys2Proof.Machine.execNiSleepRefuse g site s
  | .voteCollect g => Sys2Proof.Machine.execVoteCollect g s
  | .voteTimeout g => Sys2Proof.Machine.execVoteTimeout g s
  | .commitReceive g unit => Sys2Proof.Machine.execCommitReceive g unit s
  | .abortReceive g unit => Sys2Proof.Machine.execAbortReceive g unit s
  | .regulatorFullModeReturn g => Sys2Proof.Machine.execRegulatorFullModeReturn g s
  | .brownOut g tripped belowLatch => Sys2Proof.Machine.execBrownOut g tripped belowLatch s
  | .aonRestart g testMode => Sys2Proof.Machine.execAonRestart g testMode s
  | .pgSramLoss g => Sys2Proof.Machine.execPgSramLoss g s
  | .powerCapStep g => Sys2Proof.Machine.execPowerCapStep g s
  | .residencySample g => Sys2Proof.Machine.execResidencySample g s
  | .vackRise g quad => Sys2Proof.Machine.execVackRise g quad s
  | .vackTimeout g quad => Sys2Proof.Machine.execVackTimeout g quad s
  | .clkSwitch g r refclkOk => Sys2Proof.Machine.execClkSwitch g r refclkOk s
  | .refclkCheckRetry g refclkOk => Sys2Proof.Machine.execRefclkCheckRetry g refclkOk s
  | .tickLock g => Sys2Proof.Machine.execTickLock g s
  | .frameReceive g br bundle f => Sys2Proof.Machine.execFrameReceive g br bundle f s
  | .nakReceive g br bundle fsn => Sys2Proof.Machine.execNakReceive g br bundle fsn s
  | .replayTimeout g br bundle => Sys2Proof.Machine.execReplayTimeout g br bundle s
  | .bridgeRetrainTimeout g br bundle => Sys2Proof.Machine.execBridgeRetrainTimeout g br bundle s
  | .laneFail g br bundle lane => Sys2Proof.Machine.execLaneFail g br bundle lane s
  | .laneFrameReceive g br bundle lane half mask => Sys2Proof.Machine.execLaneFrameReceive g br bundle lane half mask s
  | .bundleTrainStart g br bundle => Sys2Proof.Machine.execBundleTrainStart g br bundle s
  | .bundleTrainComplete g br bundle rxLanes txLanes => Sys2Proof.Machine.execBundleTrainComplete g br bundle rxLanes txLanes s
  | .laneCmdRetrain g r br bundle => Sys2Proof.Machine.execLaneCmdRetrain g r br bundle s
  | .bundleSleepEntry g br bundle => Sys2Proof.Machine.execBundleSleepEntry g br bundle s
  | .drowseReceive g br look => Sys2Proof.Machine.execDrowseReceive g br look s
  | .bundleWake g br bundle => Sys2Proof.Machine.execBundleWake g br bundle s
  | .rxeiFallWake g br bundle => Sys2Proof.Machine.execRxeiFallWake g br bundle s
  | .pairReturnHoldExpiry g br bundle src dest => Sys2Proof.Machine.execPairReturnHoldExpiry g br bundle src dest s
  | .bridgeC1Release g br bundle plane => Sys2Proof.Machine.execBridgeC1Release g br bundle plane s
  | .bundleStartLapse g br bundle => Sys2Proof.Machine.execBundleStartLapse g br bundle s
  | .bslotDataWrite g r br word => Sys2Proof.Machine.execBslotDataWrite g r br word s
  | .brSlotCopy g r br => Sys2Proof.Machine.execBrSlotCopy g r br s
  | .brSlotClear g r br => Sys2Proof.Machine.execBrSlotClear g r br s
  | .brSlotSwapReq g r br => Sys2Proof.Machine.execBrSlotSwapReq g r br s
  | .pairDown g br => Sys2Proof.Machine.execPairDown g br s
  | .pairRetrainTimer g br => Sys2Proof.Machine.execPairRetrainTimer g br s
  | .join g r => Sys2Proof.Machine.execJoin g r s
  | .helloReceive g br h => Sys2Proof.Machine.execHelloReceive g br h s
  | .joinTimeout g => Sys2Proof.Machine.execJoinTimeout g s
  | .joinAdmitted g ring => Sys2Proof.Machine.execJoinAdmitted g ring s
  | .admitSeg g r t => Sys2Proof.Machine.execAdmitSeg g r t s
  | .admitLapse g => Sys2Proof.Machine.execAdmitLapse g s
  | .leave g r => Sys2Proof.Machine.execLeave g r s
  | .ringStateReport g rep => Sys2Proof.Machine.execRingStateReport g rep s
  | .ringStateAdopt g ring => Sys2Proof.Machine.execRingStateAdopt g ring s
  | .beaconSend g => Sys2Proof.Machine.execBeaconSend g s
  | .beaconAnswerTimeout g far => Sys2Proof.Machine.execBeaconAnswerTimeout g far s
  | .anchorTimeout g => Sys2Proof.Machine.execAnchorTimeout g s
  | .timeExchange g br => Sys2Proof.Machine.execTimeExchange g br s
  | .timeFrameReceive g br st => Sys2Proof.Machine.execTimeFrameReceive g br st s
  | .bayDebounceExpiry g bay => Sys2Proof.Machine.execBayDebounceExpiry g bay s
  | .bayPresenceFall g bay => Sys2Proof.Machine.execBayPresenceFall g bay s
  | .bayRemoval g bay => Sys2Proof.Machine.execBayRemoval g bay s
  | .bayInsertionDelayExpiry g bay => Sys2Proof.Machine.execBayInsertionDelayExpiry g bay s
  | .bayPrechargeExpiry g bay => Sys2Proof.Machine.execBayPrechargeExpiry g bay s
  | .bayPowerGood g bay => Sys2Proof.Machine.execBayPowerGood g bay s
  | .bayGateRiseTimeout g bay gateUp => Sys2Proof.Machine.execBayGateRiseTimeout g bay gateUp s
  | .bayGateLost g bay => Sys2Proof.Machine.execBayGateLost g bay s
  | .bayOutputWithoutGate g bay => Sys2Proof.Machine.execBayOutputWithoutGate g bay s
  | .bayOvercurrent g bay nearRemoval => Sys2Proof.Machine.execBayOvercurrent g bay nearRemoval s
  | .bayWindowLoss g bay uv ov => Sys2Proof.Machine.execBayWindowLoss g bay uv ov s
  | .bayRetryExpiry g bay => Sys2Proof.Machine.execBayRetryExpiry g bay s
  | .bayStrikeAgeOut g bay => Sys2Proof.Machine.execBayStrikeAgeOut g bay s
  | .bayIdentityDelayExpiry g bay => Sys2Proof.Machine.execBayIdentityDelayExpiry g bay s
  | .bayIdentityReadEnd g bay record => Sys2Proof.Machine.execBayIdentityReadEnd g bay record s
  | .bayIdAttemptRetry g bay => Sys2Proof.Machine.execBayIdAttemptRetry g bay s
  | .bayBind g r bay => Sys2Proof.Machine.execBayBind g r bay s
  | .bayUnbind g r bay => Sys2Proof.Machine.execBayUnbind g r bay s
  | .bayReread g r bay => Sys2Proof.Machine.execBayReread g r bay s
  | .bayEnable g r bay => Sys2Proof.Machine.execBayEnable g r bay s
  | .bayDisable g r bay => Sys2Proof.Machine.execBayDisable g r bay s
  | .kilnLogic g r scope unit bundle seedEn => Sys2Proof.Machine.execKilnLogic g r scope unit bundle seedEn s
  | .kilnMemory g r scope unit bundle seedEn => Sys2Proof.Machine.execKilnMemory g r scope unit bundle seedEn s
  | .kilnLogicMemory g r scope unit bundle seedEn => Sys2Proof.Machine.execKilnLogicMemory g r scope unit bundle seedEn s
  | .kilnAbort g r => Sys2Proof.Machine.execKilnAbort g r s
  | .kilnApply g r => Sys2Proof.Machine.execKilnApply g r s
  | .kilnRunComplete g found => Sys2Proof.Machine.execKilnRunComplete g found s
  | .factoryKeyWrite g r key late => Sys2Proof.Machine.execFactoryKeyWrite g r key late s
  | .factoryEnter g r late => Sys2Proof.Machine.execFactoryEnter g r late s
  | .factoryExit g r => Sys2Proof.Machine.execFactoryExit g r s
  | .fuseProgram g r word => Sys2Proof.Machine.execFuseProgram g r word s
  | .fuseProgRepair g r => Sys2Proof.Machine.execFuseProgRepair g r s
  | .fuseCmdComplete g stuck => Sys2Proof.Machine.execFuseCmdComplete g stuck s
  | .bundleBlockSlot g br bundle => Sys2Proof.Machine.execBundleBlockSlot g br bundle s
  | .acknowledgePhaseEnd g src => Sys2Proof.Machine.execAcknowledgePhaseEnd g src s
  | .vackFall g quad => Sys2Proof.Machine.execVackFall g quad s
  | .identityAttemptFailed g bay stretch => Sys2Proof.Machine.execIdentityAttemptFailed g bay stretch s
  | .probeLookup g r site idx => Sys2Proof.Machine.execProbeLookup g r site idx s

end Sys2Proof.Machine
end

