-- ==== Sys2Proof/Safety.lean ====
section
/-!
DEFINITION. What counts as a safe run, and the words the claims are stated in: what a command gives, up to what follows
from any command at once.
-/
namespace Sys2Proof.Machine

/-- The step neither faults nor is refused. -/
def Completes (o : Host.Outcome State Fault Refusal) : Prop := ∃ t, o = .next t

/-- A state from which `k` steps complete. -/
def SafeFor : Nat → State → Prop
  | 0, _ => True
  | k + 1, s => ∃ t, step s = .next t ∧ SafeFor k t

/-- The words that events, counters and slices change on their own: PAGE_EVT and PAGE_FLAGS of any page (R31, R33, R51),
CLK_OVR (R364) and FE_AVAIL (R299). -/
def ownWord (p off : Nat) : Bool :=
  off == 0x010 || off == 0x018 || (p == pgClk && decide (0x380 ≤ off) && decide (off < 0x394)) || (p == pgFlow && off == Reg.FLOWWIN.FE_AVAIL.off)

/-- The segment without its registers, counters, pulse crossings and sites. -/
def Seg.core (s : Seg) : Seg := { s with regs := [], cnts := [], pulses := [], nis := [] }

/-- `b` is `a` but for what follows from a command at once: events (the words of `ownWord` and the pulse crossings),
counters, and sites whose UP falls. Everything else of the segment is the same: every other register word, every buffer,
table, bank byte, queue and unit. -/
structure Follows (a b : Seg) : Prop where
  core : b.core = a.core
  words : ∀ p off, off < 4096 → off % 4 = 0 → ownWord p off = false → b.word p off = a.word p off
  nis : ∀ n, b.ni n = { a.ni n with up := (b.ni n).up } ∧ ((b.ni n).up = true → (a.ni n).up = true)

/-- Command `c` completes on `s`: segment `g` is then `e` up to `Follows`, and the other segments and the queue are as
they were. -/
def Gives (c : Instr) (s : State) (g : Fin 4) (e : Seg) : Prop :=
  ∃ t, Sys2Proof.Machine.exec c s = .next (s.setSeg g t) ∧ Follows e t

/-- Command `c`, where segment `g` is not in reset and `pre` holds of it, completes: the segment is then what `e` makes of
it, up to `Follows`, `post` holds of the segment before and after, and the other segments and the queue are as they
were. -/
def Does (c : Instr) (s : State) (g : Fin 4) (pre : Seg → Prop) (e : Seg → Seg)
    (post : Seg → Seg → Prop := fun _ _ => True) : Prop :=
  (s.seg g).inReset = false → pre (s.seg g) →
    ∃ t, Sys2Proof.Machine.exec c s = .next (s.setSeg g t) ∧ Follows (e (s.seg g)) t ∧ post (s.seg g) t

/-- The way is open for a 32-bit write of requester `r` at `off` of page `p`: the segment and its controller run (R84), no
access waits, no guard stands open and the port is not between two halves (R23, R41, R79), no error row of R36 applies,
and the page's unit is up. -/
structure Seg.Open (s : Seg) (r : Requester) (p off : Nat) : Prop where
  run : s.inReset = false
  ready : s.mp.ready = true
  idle : s.ctl.stalled = []
  free : s.ctl.guards = []
  ok : s.accessError { req := r, wr := true, size := 2, addr := mgmtAddr s.strap p off } = 0
  calm : s.soak = false
  half : r = .mp → s.mp.half = none
  up : ∀ k i, pageKind p = some (k, i) → s.pageState k i = 0

/-- An access of `r` completed without an error: the outputs of the management port show it (R77, R80). -/
def Seg.acked (s : Seg) : Requester → Seg
  | .mp => s.setMp { ready := s.mp.ready, ack := true }
  | .agent _ _ => s

/-- As `Does`, of a command that requester `r`, whose TEN_DOM word does not mismatch (R63), gives by writing the register at
`off` of page `p`, the way being open. -/
def Writes (c : Instr) (s : State) (g : Fin 4) (r : Requester) (p off : Nat) (pre : Seg → Prop) (e : Seg → Seg)
    (post : Seg → Seg → Prop := fun _ _ => True) : Prop :=
  (s.seg g).Open r p off → s.stampBad r = false → pre (s.seg g) →
    ∃ t, Sys2Proof.Machine.exec c s = .next (s.setSeg g t) ∧ Follows ((e (s.seg g)).acked r) t ∧ post (s.seg g) t

/-- Event bit `b` of page `p` is latched (R31). -/
def Seg.latched (s : Seg) (p b : Nat) : Prop := s.bit p 0x010 b = true

/-- The counter at `off` of page `p` has counted `n` since `a` (R51). -/
def Counted (a b : Seg) (p off n : Nat) : Prop := b.cnt p 0 off = satAdd count48Max (a.cnt p 0 off) n

/-- FE_AVAIL shows the slices that are available (R299). -/
def Seg.AvailShown (s : Seg) : Prop := s.word pgFlow Reg.FLOWWIN.FE_AVAIL.off = BitVec.ofNat 32 s.feAvail

/-- Every APnnn_UP that is 1 is allowed to be 1 (R73). -/
def Seg.UpShown (s : Seg) : Prop := ∀ n, (s.ni n).up = true → s.upAllowed n (s.ni n) = true

end Sys2Proof.Machine
end

