-- ==== Sys2Proof/WellFormed.lean ====
section
/-!
DEFINITION. Well-formed commands: the units, ports, virtual channels and pages a command names are ones the block has
(R3, R7, R8, R10, R26, R414). A command that is not well formed reaches no hardware.
-/
namespace Sys2Proof.Machine

/-- A power domain of R450 by local source: a tile or a bank. -/
def domOk (l : Nat) : Bool := (0x40 ≤ l && l < 0xD0) || (0x100 ≤ l && l < 0x148)

/-- A port with a link to another router: LINK_DN and the credit-init stand on tile-to-tile links (R7, R365, R367). -/
def portLinked (t : Nat) (p : Port) : Bool := (neighbour t p).isSome

/-- A unit that takes maps and ring notices: a router or an NI (R201, R203). -/
def mapOk (l : Nat) : Bool := srcOk l && 0x40 ≤ l && !(0x100 ≤ l && l < 0x200)

/-- A frame's virtual channel exists on its plane, and a flit it carries is marked with it (R10, R385). -/
def RxFrame.wf (f : RxFrame) : Bool :=
  0 < vcDepth f.plane f.vc && (match f.flit with | some x => x.vc == f.vc | none => true)

/-- Every unit, port, channel and page the command names exists. -/
def instrWf : Instr → Bool
  | .guardTimeout _ page => (pageKind page).isSome
  | .pageDisable _ _ page => (pageKind page).isSome
  | .pageEnable _ _ page => (pageKind page).isSome
  | .pageDrain _ _ page => (pageKind page).isSome
  | .drainComplete _ page => (pageKind page).isSome
  | .pageOwnerWrite _ _ page _ _ => (pageKind page).isSome
  | .glazeMismatch _ page off _ => (pageKind page).isSome && off < 4096 && off % 4 == 0
  | .flitArrival _ tile plane port _ => portOk tile plane port
  | .outputArbitration _ tile plane look => portOk tile plane look.out
  | .escapeSwitch _ tile plane port vc => portOk tile plane port && 0 < vcDepth plane vc
  | .escapeWatchdog _ tile plane port spot => portOk tile plane port && 0 < vcDepth plane spot.vc
  | .packetArrivalEgress _ ep _ => epOk ep
  | .ackDelayExpiry _ ep _ _ => epOk ep
  | .ackReceive _ look => epOk look.ep
  | .retryTimeout _ ep _ _ => epOk ep
  | .sourceGrantRelease _ ep _ _ => epOk ep
  | .egressGrantReclaim _ ep _ _ => epOk ep
  | .fenceMapAdopt _ read => mapOk read.unit
  | .ringNoticeReceive _ unit => mapOk unit
  | .pulseRaise _ src _ _ => srcOk src
  | .eventProcess _ look => srcOk look.src
  | .activeLevelChange _ src _ => srcOk src
  | .autoClear _ src => srcOk src
  | .linkDnRise _ tile port => portLinked tile port
  | .creditInitReceive _ tile port => portLinked tile port
  | .autoIdleEntry _ dom => domOk dom
  | .autoDrowsyEntry _ dom => domOk dom
  | .autoRetainEntry _ dom => domOk dom
  | .domainWake _ dom => domOk dom
  | .domainWakeDone _ dom _ => domOk dom
  | .prepareReceive _ unit => srcOk unit.src
  | .sleepVote _ unit => srcOk unit.src
  | .commitReceive _ unit => srcOk unit.src
  | .abortReceive _ unit => srcOk unit.src
  | .brownOut _ tripped _ => tripped.all (domOk ·)
  | .frameReceive _ _ _ f => f.wf
  | .acknowledgePhaseEnd _ src => srcOk src
  | .registerWrite .. | .guardOpen .. | .guardClose .. | .regaccReceive .. | .regaccSinglePacketPair ..
  | .mpRequest .. | .mp64BitFirstRequest .. | .mp64BitSecondRequest .. | .mpAccessTimeout ..
  | .counterClear .. | .tenDomWrite .. | .tenDenyClear .. | .segModeWrite .. | .expertEnWrite ..
  | .lockExpert .. | .lockOwners .. | .poresetAssert .. | .poresetRelease .. | .segResetAssert ..
  | .segResetRelease .. | .fuseLoadComplete .. | .aliveToggle .. | .rqBeat .. | .wdBeat ..
  | .wdStallTimeout .. | .srBeat .. | .mgInputBeat .. | .rsBeatTaken .. | .snBeatTaken .. | .mgOutputTaken ..
  | .agentClockStop .. | .agentClockReturn .. | .agentResetAssert .. | .agentResetRelease .. | .agentWake ..
  | .apUpRise .. | .requestInject .. | .c1CopyRelease .. | .fenceCplSend .. | .cplTimeout .. | .cplReceive ..
  | .bindRead .. | .bindCommit .. | .bindClear .. | .niDrainRelease .. | .niReset .. | .niResetComplete ..
  | .bankPacketAccept .. | .reservationExpiry .. | .protectedEntryExpiry .. | .bankOwnCommit ..
  | .handoverComplete .. | .zeroCmd .. | .zeroingComplete .. | .scrubStep .. | .wakeScrubRow ..
  | .wakeScrubComplete .. | .repairWrite .. | .slotTick .. | .ftbSyncBoundary .. | .slotDataWrite ..
  | .slotCopy .. | .slotClear .. | .slotCopyClearDone .. | .slotSwapReq .. | .slotValidationDone ..
  | .slotPeriodBoundary .. | .starveNWrite .. | .resDataWrite .. | .demoteClearL0 .. | .demoteClearL1 ..
  | .rejectNoticeReceive .. | .fenceMapChange .. | .epochDrainReport .. | .epochRetire .. | .drainToExpiry ..
  | .flowSendDecision .. | .flowContextReturn .. | .flowWritebackTimer .. | .flowWritebackResult ..
  | .flowRefresh .. | .flowSweep .. | .unavailFetchRetry .. | .fwRead .. | .fwReadSync .. | .fwWriteCfg ..
  | .fwWriteRaw .. | .fwInit .. | .fwCmdComplete .. | .configNoticeReceive .. | .recallReceive ..
  | .recallAllReceive .. | .flowwinDisableNotice .. | .tileCodeChange .. | .dcoRampDone .. | .tempSample ..
  | .dcoLockLost .. | .dcoLockRegained .. | .clkOvrClear .. | .srcClear .. | .srcRestore ..
  | .restoreComplete .. | .collectorGlazePass .. | .bulkCfgWrite .. | .injectEvent .. | .injectFlit ..
  | .injectGlaze .. | .injectLane .. | .injectionSpacing .. | .tileOff .. | .tileWake .. | .bankOff ..
  | .bankWake .. | .tileWakeRowStep .. | .tileCmdComplete .. | .segEntryDrowsy .. | .segEntryRetain ..
  | .segEntryAon .. | .aonHalt .. | .niSleepRefuse .. | .voteCollect .. | .voteTimeout ..
  | .regulatorFullModeReturn .. | .aonRestart .. | .pgSramLoss .. | .powerCapStep .. | .residencySample ..
  | .vackRise .. | .vackTimeout .. | .clkSwitch .. | .refclkCheckRetry .. | .tickLock .. | .nakReceive ..
  | .replayTimeout .. | .bridgeRetrainTimeout .. | .laneFail .. | .laneFrameReceive .. | .bundleTrainStart ..
  | .bundleTrainComplete .. | .laneCmdRetrain .. | .bundleSleepEntry .. | .drowseReceive .. | .bundleWake ..
  | .rxeiFallWake .. | .pairReturnHoldExpiry .. | .bridgeC1Release .. | .bundleStartLapse ..
  | .bslotDataWrite .. | .brSlotCopy .. | .brSlotClear .. | .brSlotSwapReq .. | .pairDown ..
  | .pairRetrainTimer .. | .join .. | .helloReceive .. | .joinTimeout .. | .joinAdmitted .. | .admitSeg ..
  | .admitLapse .. | .leave .. | .ringStateReport .. | .ringStateAdopt .. | .beaconSend ..
  | .beaconAnswerTimeout .. | .anchorTimeout .. | .timeExchange .. | .timeFrameReceive ..
  | .bayDebounceExpiry .. | .bayPresenceFall .. | .bayRemoval .. | .bayInsertionDelayExpiry ..
  | .bayPrechargeExpiry .. | .bayPowerGood .. | .bayGateRiseTimeout .. | .bayGateLost ..
  | .bayOutputWithoutGate .. | .bayOvercurrent .. | .bayWindowLoss .. | .bayRetryExpiry ..
  | .bayStrikeAgeOut .. | .bayIdentityDelayExpiry .. | .bayIdentityReadEnd .. | .bayIdAttemptRetry ..
  | .bayBind .. | .bayUnbind .. | .bayReread .. | .bayEnable .. | .bayDisable .. | .kilnLogic ..
  | .kilnMemory .. | .kilnLogicMemory .. | .kilnAbort .. | .kilnApply .. | .kilnRunComplete ..
  | .factoryKeyWrite .. | .factoryEnter .. | .factoryExit .. | .fuseProgram .. | .fuseProgRepair ..
  | .fuseCmdComplete .. | .bundleBlockSlot .. | .vackFall .. | .identityAttemptFailed .. | .probeLookup .. => true

/-- The segment a command acts on. -/
def instrSeg : Instr → Fin 4
  | .registerWrite g .. | .guardOpen g .. | .guardClose g .. | .guardTimeout g .. | .regaccReceive g ..
  | .regaccSinglePacketPair g .. | .mpRequest g .. | .mp64BitFirstRequest g .. | .mp64BitSecondRequest g ..
  | .mpAccessTimeout g .. | .counterClear g .. | .pageDisable g .. | .pageEnable g .. | .pageDrain g ..
  | .drainComplete g .. | .pageOwnerWrite g .. | .tenDomWrite g .. | .tenDenyClear g .. | .segModeWrite g ..
  | .expertEnWrite g .. | .lockExpert g .. | .lockOwners g .. | .glazeMismatch g .. | .poresetAssert g ..
  | .poresetRelease g .. | .segResetAssert g .. | .segResetRelease g .. | .fuseLoadComplete g .. | .aliveToggle g ..
  | .rqBeat g .. | .wdBeat g .. | .wdStallTimeout g .. | .srBeat g .. | .mgInputBeat g .. | .rsBeatTaken g ..
  | .snBeatTaken g .. | .mgOutputTaken g .. | .agentClockStop g .. | .agentClockReturn g .. | .agentResetAssert g ..
  | .agentResetRelease g .. | .agentWake g .. | .apUpRise g .. | .requestInject g .. | .c1CopyRelease g ..
  | .fenceCplSend g .. | .flitArrival g .. | .outputArbitration g .. | .escapeSwitch g .. | .escapeWatchdog g ..
  | .packetArrivalEgress g .. | .ackDelayExpiry g .. | .ackReceive g .. | .retryTimeout g .. | .cplTimeout g ..
  | .cplReceive g .. | .sourceGrantRelease g .. | .egressGrantReclaim g .. | .bindRead g .. | .bindCommit g ..
  | .bindClear g .. | .niDrainRelease g .. | .niReset g .. | .niResetComplete g .. | .bankPacketAccept g ..
  | .reservationExpiry g .. | .protectedEntryExpiry g .. | .bankOwnCommit g .. | .handoverComplete g ..
  | .zeroCmd g .. | .zeroingComplete g .. | .scrubStep g .. | .wakeScrubRow g .. | .wakeScrubComplete g ..
  | .repairWrite g .. | .slotTick g .. | .ftbSyncBoundary g .. | .slotDataWrite g .. | .slotCopy g ..
  | .slotClear g .. | .slotCopyClearDone g .. | .slotSwapReq g .. | .slotValidationDone g ..
  | .slotPeriodBoundary g .. | .starveNWrite g .. | .resDataWrite g .. | .demoteClearL0 g .. | .demoteClearL1 g ..
  | .rejectNoticeReceive g .. | .fenceMapChange g .. | .fenceMapAdopt g .. | .ringNoticeReceive g ..
  | .epochDrainReport g .. | .epochRetire g .. | .drainToExpiry g .. | .flowSendDecision g ..
  | .flowContextReturn g .. | .flowWritebackTimer g .. | .flowWritebackResult g .. | .flowRefresh g ..
  | .flowSweep g .. | .unavailFetchRetry g .. | .fwRead g .. | .fwReadSync g .. | .fwWriteCfg g .. | .fwWriteRaw g ..
  | .fwInit g .. | .fwCmdComplete g .. | .configNoticeReceive g .. | .recallReceive g .. | .recallAllReceive g ..
  | .flowwinDisableNotice g .. | .tileCodeChange g .. | .dcoRampDone g .. | .tempSample g .. | .dcoLockLost g ..
  | .dcoLockRegained g .. | .pulseRaise g .. | .eventProcess g .. | .clkOvrClear g .. | .activeLevelChange g ..
  | .srcClear g .. | .srcRestore g .. | .restoreComplete g .. | .autoClear g .. | .collectorGlazePass g ..
  | .bulkCfgWrite g .. | .injectEvent g .. | .injectFlit g .. | .injectGlaze g .. | .injectLane g ..
  | .injectionSpacing g .. | .linkDnRise g .. | .creditInitReceive g .. | .autoIdleEntry g .. | .autoDrowsyEntry g ..
  | .autoRetainEntry g .. | .domainWake g .. | .domainWakeDone g .. | .tileOff g .. | .tileWake g .. | .bankOff g ..
  | .bankWake g .. | .tileWakeRowStep g .. | .tileCmdComplete g .. | .segEntryDrowsy g .. | .segEntryRetain g ..
  | .segEntryAon g .. | .aonHalt g .. | .prepareReceive g .. | .sleepVote g .. | .niSleepRefuse g ..
  | .voteCollect g .. | .voteTimeout g .. | .commitReceive g .. | .abortReceive g .. | .regulatorFullModeReturn g ..
  | .brownOut g .. | .aonRestart g .. | .pgSramLoss g .. | .powerCapStep g .. | .residencySample g ..
  | .vackRise g .. | .vackTimeout g .. | .clkSwitch g .. | .refclkCheckRetry g .. | .tickLock g ..
  | .frameReceive g .. | .nakReceive g .. | .replayTimeout g .. | .bridgeRetrainTimeout g .. | .laneFail g ..
  | .laneFrameReceive g .. | .bundleTrainStart g .. | .bundleTrainComplete g .. | .laneCmdRetrain g ..
  | .bundleSleepEntry g .. | .drowseReceive g .. | .bundleWake g .. | .rxeiFallWake g .. | .pairReturnHoldExpiry g ..
  | .bridgeC1Release g .. | .bundleStartLapse g .. | .bslotDataWrite g .. | .brSlotCopy g .. | .brSlotClear g ..
  | .brSlotSwapReq g .. | .pairDown g .. | .pairRetrainTimer g .. | .join g .. | .helloReceive g ..
  | .joinTimeout g .. | .joinAdmitted g .. | .admitSeg g .. | .admitLapse g .. | .leave g .. | .ringStateReport g ..
  | .ringStateAdopt g .. | .beaconSend g .. | .beaconAnswerTimeout g .. | .anchorTimeout g .. | .timeExchange g ..
  | .timeFrameReceive g .. | .bayDebounceExpiry g .. | .bayPresenceFall g .. | .bayRemoval g ..
  | .bayInsertionDelayExpiry g .. | .bayPrechargeExpiry g .. | .bayPowerGood g .. | .bayGateRiseTimeout g ..
  | .bayGateLost g .. | .bayOutputWithoutGate g .. | .bayOvercurrent g .. | .bayWindowLoss g ..
  | .bayRetryExpiry g .. | .bayStrikeAgeOut g .. | .bayIdentityDelayExpiry g .. | .bayIdentityReadEnd g ..
  | .bayIdAttemptRetry g .. | .bayBind g .. | .bayUnbind g .. | .bayReread g .. | .bayEnable g .. | .bayDisable g ..
  | .kilnLogic g .. | .kilnMemory g .. | .kilnLogicMemory g .. | .kilnAbort g .. | .kilnApply g ..
  | .kilnRunComplete g .. | .factoryKeyWrite g .. | .factoryEnter g .. | .factoryExit g .. | .fuseProgram g ..
  | .fuseProgRepair g .. | .fuseCmdComplete g .. | .bundleBlockSlot g .. | .acknowledgePhaseEnd g .. | .vackFall g ..
  | .identityAttemptFailed g .. | .probeLookup g .. => g

end Sys2Proof.Machine
end

