-- ==== Sys2Proof/Certificates/Slice0/Obligations.lean ====
section
/-!
DEFINITION. What is stated about the model: the whole machine, the codings, and each command's effect and frame. `Gives`,
`Does`, `Writes` and `Follows` stand in Safety.lean.
-/

open Sys2Proof Sys2Proof.Machine

/-- A command at the front of the queue runs on the state with the queue's rest. On an empty queue one unit of time passes: a
slot tick of the master FTB, or a bisque count before it counts, in every segment that is not in reset. The model's choice
(log 1); R53, R371, R534 give the counters. -/
def Obligations.StepTakesACommandOrTime : Prop :=
  (∀ (s : State) (c : Instr) (rest : List Instr), s.pending = c :: rest → step s = exec c { s with pending := rest }) ∧
  (∀ s : State, s.pending = [] → ∃ t, step s = .next t ∧ t.pending = [] ∧ ∀ g, t.seg g =
     if (s.seg g).inReset then s.seg g
     else if (s.seg g).ftbRuns then { s.seg g with ftb := (s.seg g).ftb + 1 }
     else { s.seg g with bisque := (s.seg g).bisque + 1 })

/-- R328: what BANK_OWN holds at reset. -/
def Obligations.ResetBankModes : Prop :=
  ∀ (g : Fin 4) (b : Fin 72),
    (State.reset.seg g).rd (pgBank b) Reg.BANK.BANK_OWN_MODE = (if b.val < 0x20 then 2 else 0) ∧
    (State.reset.seg g).rd (pgBank b) Reg.BANK.BANK_OWN_ACCESS = 0 ∧ (State.reset.seg g).rd (pgBank b) Reg.BANK.BANK_OWN_ZERO = 0

/-- The reset values of the levels that everything else hangs on: no queue, no reset asserted, the segment number sampled
(R97), the controller not started (R84, R495), every page's ENABLE (R58, R61, R149, R214, R308, R343, R373, R411, R447, R474,
R492, R514), every target IDLE (R452), no SOAK, and bank memory at its canonical form. At reset no APnnn_UP is 1 that is not
allowed. At reset FE_AVAIL shows the available slices. (The model's readings: logs 2, 15, 80, 96.) -/
def Obligations.ResetLevels : Prop :=
  (State.reset.pending = [] ∧ ∀ g : Fin 4,
     (State.reset.seg g).inReset = false ∧ (State.reset.seg g).strap = g.val ∧ (State.reset.seg g).mp.ready = false ∧
     (State.reset.seg g).soak = false ∧ Memory.wf (State.reset.seg g).bmem = true ∧
     (∀ p k i, pageKind p = some (k, i) → (State.reset.seg g).flag p Reg.PAGE.PAGE_CTRL_ENABLE = k.enableReset) ∧
     (∀ t : Fin 144, (State.reset.seg g).tgtTile t = 0) ∧ ∀ b : Fin 72, (State.reset.seg g).tgtBank b = 0) ∧
  (∀ g, (State.reset.seg g).UpShown) ∧
  (∀ g, (State.reset.seg g).AvailShown)

/-- Every well-formed command completes, and changes neither the queue nor another segment; no command is refused, and the one
fault is that of a command naming a port or unit that does not exist (R3, R7, R8). (The model's readings: logs 17, 73.) -/
def Obligations.EveryCommandCompletes : Prop :=
  ∀ (c : Instr) (s : State),
    (∃ t, exec c s = .next t ∧ t.pending = s.pending ∧ ∀ g, g ≠ instrSeg c → t.seg g = s.seg g) ∨
    (instrWf c = false ∧ exec c s = .fault .absentUnit)

/-- A segment in reset takes no command but those on its resets (R84, R88, R96; the model's reading, log 18). -/
def Obligations.ResetSegmentIsSilent : Prop :=
  ∀ (c : Instr) (s : State), instrWf c = true → (s.seg (instrSeg c)).inReset = true →
    (∀ g, c ≠ .poresetAssert g) → (∀ g b, c ≠ .poresetRelease g b) → (∀ g, c ≠ .segResetAssert g) →
    (∀ g, c ≠ .segResetRelease g) → exec c s = .next s

/-- Every step keeps these: an APnnn_UP is 1 only where R73, R177, R426, R427, R440 and R456 allow it, and FE_AVAIL shows the
available slices (R299). (The model's readings: log 44.) -/
def Obligations.StepKeepsUpAndAvail : Prop :=
  ∀ s t : State, (∀ g, (s.seg g).UpShown ∧ (s.seg g).AvailShown) → step s = .next t →
    ∀ g, (t.seg g).UpShown ∧ (t.seg g).AvailShown

/-- A packet header read back from its 256 bits, and an MGT header from its 64, is the header (R110, R114). A glazed header
passes its checks, and one whose fields no longer match the complements sent with it does not (R110, R111). -/
def Obligations.HeadersReadBackAndGlaze : Prop :=
  ((∀ h : Hdr, Hdr.ofBits h.toBits = h) ∧ ∀ h : MgtHdr, { MgtHdr.ofBits h.toBits h.dom with domBad := h.domBad } = h) ∧
  ((∀ h : Hdr, h.glaze.glazeOk = true) ∧
   ∀ h k : Hdr, k.destGz = h.glaze.destGz → k.clsGz = h.glaze.clsGz → k.typeGz = h.glaze.typeGz →
     k.epochGz = h.glaze.epochGz → k.seqGz = h.glaze.seqGz →
     (k.glazeOk = true ↔ k.dest = h.dest ∧ k.cls = h.cls ∧ k.type = h.type ∧ k.epoch = h.epoch ∧ k.seq = h.seq))

/-- The receiver's scrambler undoes the transmitter's (R380). Destuffing gives back what was stuffed (R381). -/
def Obligations.LineCodingIsUndone : Prop :=
  (∀ (g : BitVec 31) (ds : List Bool), scramble g (scramble g ds) = ds) ∧
  (∀ (last : Bool) (run : Nat) (bs : List Bool), run < 24 → destuff last run (stuff last run bs) = some bs)

/-- Without a fence region every hop of a packet that is not C1 ejects it at its target tile or brings it one tile nearer
(R190). -/
def Obligations.RouteLeadsNearer : Prop :=
  ∀ (r : Ring) (m : FenceMap) (g cx cy tx ty : Nat) (pl : Plane) (h : RHdr) (vc : Nat) (esc ok : Bool)
    (load : Port → Nat → Nat) (ej : Port), m.rects = [] → h.c1 = false → cx < 12 → cy < 12 → tx < 12 → ty < 12 →
    target r m g h = some (tx, ty, ej) →
    ∃ x, routeOf r m g cx cy pl h vc esc none ok load = some x ∧
      ((cx = tx ∧ cy = ty ∧ x.out = ej) ∨
        ∃ a b, stepXY cx cy x.out = some (a, b) ∧ (a - tx) + (tx - a) + (b - ty) + (ty - b) + 1 = (cx - tx) + (tx - cx) + (cy - ty) + (ty - cy))

/-- R20 and R21: an address with a bit of [29:26] set, an absent page or another segment completes with an error and has no
effect, on the management port and for a register write. -/
def Obligations.BadAddressHasNoEffect : Prop :=
  ∀ (s : State) (g : Fin 4) (addr : Word),
    (addrMbz addr ≠ 0 ∨ addrSeg addr ≠ (s.seg g).strap ∨ pageKind (addrPage addr) = none) →
    (∀ (wr : Bool) (size : BitVec 2) (wdata : Word),
      Does (.mpRequest g wr size addr wdata) s g
        (fun S => S.mp.ready = true ∧ S.mp.half = none ∧ S.ctl.stalled = [])
        (fun S => S.setMp { ready := true, ack := true, err := true, rdata := 1 })
        (fun S t => Counted S t pgSeg 0x820 1 ∧ Counted S t pgSeg 0x818 1)) ∧
    ∀ (e : BitVec 12) (d : BitVec 6) (size : BitVec 2) (data : BitVec 64),
      Does (.registerWrite g (.agent e d) size addr data) s g (fun S => S.mp.ready = true ∧ S.ctl.stalled = []) (fun S => S)
        (fun S t => Counted S t pgSeg 0x828 1 ∧ Counted S t pgSeg 0x818 1)

/-- R79: after a first request, any other next request completes with code 0x2 and no effect, the pending access is given up,
and BAD_WIDTH is set on its page. -/
def Obligations.UnmatchedSecondRequest : Prop :=
  ∀ (s : State) (g : Fin 4) (wr hwr : Bool) (size : BitVec 2) (addr a0 wdata v : Word),
    ¬ (size = 3 ∧ wr = hwr ∧ addr = a0 + 4) →
    Does (.mpRequest g wr size addr wdata) s g
      (fun S => S.mp.ready = true ∧ S.mp.half = some (hwr, a0, v) ∧ S.mpWaiting = false)
      (fun S => S.setMp { ready := true, ack := true, err := true, rdata := 2 })
      (fun _ t => t.flag (addrPage a0) Reg.PAGE.PAGE_FLAGS_BAD_WIDTH = true)

/-- A read answers what the register holds and changes nothing but the port's outputs (R30, R47, R77–R79); the counter of free
values is the model's own. A 64-bit access takes two requests (R78): the first answers the low word or keeps it, the second
the high word, and a write then takes effect whole. An access of the port that has waited past its limit completes with
TIMEOUT, code 0x4 (R80, R81): a read has no effect, and a write, here of a mask, has taken effect or has not (log 7). (The
model's readings: logs 21, 22, 23, 82.) -/
def Obligations.ManagementPortAccess : Prop :=
  (∀ (s : State) (g : Fin 4) (k : Kind) (i : Nat) (size : BitVec 2) (addr wdata : Word),
     pageKind (addrPage addr) = some (k, i) →
     (∀ wr, size = 3 → wr = false → Does (.mp64BitFirstRequest g wr addr wdata) s g
       (fun S => S.mp.ready = true ∧ S.mp.half = none ∧ S.ctl.stalled = [] ∧ S.pageState k i = 0 ∧
         S.accessError { req := .mp, wr := false, size := 3, addr := addr, data := wdata.zeroExtend 64 } = 0)
       (fun S => S.tick1.setMp
         { ready := true, ack := true, rdata := S.readWord k i (addrPage addr) (addrOff addr),
           half := some (false, addr, S.readWord k i (addrPage addr) (addrOff addr + 4)) })) ∧
     (size ≠ 3 → Does (.mpRequest g false size addr wdata) s g
       (fun S => S.mp.ready = true ∧ S.mp.half = none ∧ S.ctl.stalled = [] ∧ S.pageState k i = 0 ∧
         S.accessError { req := .mp, wr := false, size := size, addr := addr, data := wdata.zeroExtend 64 } = 0)
       (fun S => S.tick1.setMp
         { ready := true, ack := true, rdata := (S.readData k i (addrPage addr) (addrOff addr) size).truncate 32 })) ∧
     Does (.mp64BitFirstRequest g true addr wdata) s g
       (fun S => S.mp.ready = true ∧ S.mp.half = none ∧ S.ctl.stalled = [] ∧ S.soak = false ∧
         S.accessError { req := .mp, wr := true, size := 3, addr := addr } = 0)
       (fun S => S.setMp { ready := true, ack := true, half := some (true, addr, wdata) }) ∧
     (∀ v, Does (.mp64BitSecondRequest g false (addr + 4) wdata) s g
       (fun S => S.mp.ready = true ∧ S.mp.half = some (false, addr, v) ∧ S.mpWaiting = false)
       (fun S => S.setMp { ready := true, ack := true, rdata := v })) ∧
     ∀ v, Does (.mp64BitSecondRequest g true (mgmtAddr g.val pgKiln 0x404) wdata) s g
       (fun S => S.strap = g.val ∧ S.mp.ready = true ∧ S.mp.half = some (true, mgmtAddr g.val pgKiln 0x400, v) ∧
         S.ctl.stalled = [] ∧ S.ctl.guards = [] ∧ S.soak = false ∧ S.expertEn = true)
       (fun S => ((S.putWord pgKiln 0x400 v).putWord pgKiln 0x404 wdata).setMp { ready := true, ack := true })) ∧
  (∀ (s : State) (g : Fin 4) (a : Access), a.req = .mp → a.size ≠ 3 →
     (a.wr = false → Does (.mpAccessTimeout g) s g (fun S => S.ctl.stalled = [a])
       (fun S => (S.tick1.modCtl fun c => { c with stalled := [] }).setMp
         { S.mp with ack := true, err := true, rdata := 4, half := none }) (fun _ t => t.latched pgSeg 8)) ∧
     ∀ k i p, pageKind p = some (k, i) → a = { req := .mp, wr := true, size := 2, addr := mgmtAddr g.val p 0x014, data := a.data } →
       (s.seg g).inReset = false → (s.seg g).ctl.stalled = [a] → (s.seg g).ctl.guards = [] →
       ∃ t x, exec (.mpAccessTimeout g) s = .next (s.setSeg g t) ∧
         (x = (s.seg g).tick1 ∨ x = ((s.seg g).tick1.setWord p 0x014 (a.data.truncate 32)).heal p 0x014) ∧
         Follows ((x.modCtl fun c => { c with stalled := [] }).setMp
           { x.mp with ack := true, err := true, rdata := 4, half := none }) t)

/-- A write to a guarded register opens a guard and changes nothing else; a closing write with the complement at the next word
commits the value, here to PAGE_OWNER; another write gives it up with GUARD_FAIL (R41, R42, R55, R56). (The model's readings:
logs 22, 24, 81.) -/
def Obligations.GuardedPairs : Prop :=
  ∀ (s : State) (g : Fin 4) (r : Requester) (p k' i off : Nat) (k : Kind) (v w : Word), pageKind p = some (k, i) →
    off < 0xF00 → counterWord k i off = false → absentWord k i off = false →
    (wordRows k off).any (fun x => x.acc == .wg) = true →
    Writes (.guardOpen g r (mgmtAddr g.val p off) v) s g r p off (fun S => S.strap = g.val)
      (fun S => S.modCtl fun c => { c with guards := [⟨p, off, v, r⟩] }) ∧
    Does (.guardClose g r (mgmtAddr g.val p 0x020) (~~~v)) s g
      (fun S => S.strap = g.val ∧ S.mp.ready = true ∧ S.ctl.stalled = [] ∧ S.ctl.guards = [⟨p, 0x01C, v, r⟩] ∧
        S.soak = false ∧ S.pageState k i = 0 ∧ S.lockedOwners = false ∧ r.dom = 0 ∧ (k.cap / 2048 % 2 = 1 → v.toNat % 64 = 0) ∧
        S.accessError { req := r, wr := true, size := 2, addr := mgmtAddr g.val p 0x020 } = 0)
      (fun S => ((((S.modCtl fun c => { c with guards := [] }).wr p Reg.PAGE.PAGE_OWNER_OWNER_DOM v.toNat).wr p
        Reg.PAGE.PAGE_OWNER_READ_ANY (v.toNat / 256)).heal p 0x01C).acked r) ∧
    (k' < 0xF00 → ¬ (k' = off + 4 ∧ w = ~~~v) → Does (.guardClose g r (mgmtAddr g.val p k') w) s g
      (fun S => S.strap = g.val ∧ S.mp.ready = true ∧ S.ctl.stalled = [] ∧ S.ctl.guards = [⟨p, off, v, r⟩] ∧
        S.soak = false ∧ S.pageState k i = 0 ∧
        S.accessError { req := r, wr := true, size := 2, addr := mgmtAddr g.val p k' } = 0)
      (fun S => (S.modCtl fun c => { c with guards := [] }).acked r)
      (fun _ t => t.flag p Reg.PAGE.PAGE_FLAGS_GUARD_FAIL = true)) ∧
    Does (.guardTimeout g p) s g (fun S => S.ctl.guards = [⟨p, off, v, r⟩])
      (fun S => S.modCtl fun c => { c with guards := [] })
      (fun _ t => t.flag p Reg.PAGE.PAGE_FLAGS_GUARD_FAIL = true)

/-- A plain write changes what its access code lets it change: PAGE_EVT_MASK of any page; an expert field is left, with
LOCK_HIT, while EXPERT_EN is 0 (R34, R39). A write of zero clears a counter (R52). (The model's readings: logs 24, 25, 82.) -/
def Obligations.PlainWrites : Prop :=
  ∀ (s : State) (g : Fin 4) (r : Requester) (p i off : Nat) (k : Kind) (v : Word), pageKind p = some (k, i) →
    Writes (.registerWrite g r 2 (mgmtAddr g.val p 0x014) (v.zeroExtend 64)) s g r p 0x014 (fun S => S.strap = g.val)
      (fun S => (S.setWord p 0x014 v).heal p 0x014) ∧
    (0x400 ≤ off → off < 0x800 → off % 4 = 0 →
      (wordRows k off).any (fun x => x.acc == .wg) = false →
      Writes (.registerWrite g r 2 (mgmtAddr g.val p off) (v.zeroExtend 64)) s g r p off
        (fun S => S.strap = g.val ∧ S.expertEn = false) (fun S => S) (fun _ t => t.flag p Reg.PAGE.PAGE_FLAGS_LOCK_HIT = true)) ∧
    (∀ size, (size = 2 ∨ (size = 3 ∧ off % 8 = 0)) → counterWord k i off = true → (k ≠ .router ∧ k ≠ .br ∧ k ≠ .coll) →
      p ≠ pgSeg → p ≠ pgClk → Writes (.counterClear g r size (mgmtAddr g.val p off)) s g r p off
        (fun S => S.strap = g.val) (fun S => S) (fun _ t => t.cnt p 0 (off / 8 * 8) = 0))

/-- A page that is always on ignores a write of 0 to ENABLE (R35). On the others clearing ENABLE starts the drain, during
which PAGE_STAT.ENABLED holds (R37), setting it ends one, and DRAIN is set by itself (R38). A C1 tile's router keeps both
(R214). A bay's page is stated with the bays. PAGE_STAT.ENABLED falls when the drain is complete (R37), and only then.
PAGE_OWNER is written through its pair, unless the owners are locked or the page has no domain (R55, R56, R59). (The model's
readings: logs 25, 26, 80.) -/
def Obligations.PageControlAndOwners : Prop :=
  (∀ (s : State) (g : Fin 4) (r : Requester) (p i : Nat) (k : Kind), pageKind p = some (k, i) →
     (k.alwaysOn = true → Writes (.pageDisable g r p) s g r p 0x008 (fun _ => True) (fun S => S)) ∧
     (k.alwaysOn = false → k ≠ .bay → k ≠ .flowwin → Writes (.pageDisable g r p) s g r p 0x008
       (fun S => S.flag p Reg.PAGE.PAGE_CTRL_ENABLE = true ∧ (k = .router → S.c1Tile i = false))
       (fun S => (S.wr p Reg.PAGE.PAGE_CTRL_ENABLE 0).wr p Reg.PAGE.PAGE_STAT_ENABLED 1)) ∧
     (k = .flowwin → Writes (.pageDisable g r p) s g r p 0x008 (fun S => S.flag p Reg.PAGE.PAGE_CTRL_ENABLE = true)
       (fun S => ((S.wr p Reg.PAGE.PAGE_CTRL_ENABLE 0).wr p Reg.PAGE.PAGE_STAT_ENABLED 1).modCtl fun c =>
         { c with disableDue := S.noticeSites })) ∧
     (k = .router → Writes (.pageDisable g r p) s g r p 0x008 (fun S => S.c1Tile i = true) (fun S => S)
       (fun _ t => t.flag p Reg.PAGE.PAGE_FLAGS_LOCK_HIT = true)) ∧
     (k.alwaysOn = false → k ≠ .bay → Writes (.pageEnable g r p) s g r p 0x008
       (fun S => k = .router → S.c1Tile i = false)
       (fun S => (S.wr p Reg.PAGE.PAGE_CTRL_ENABLE 1).wr p Reg.PAGE.PAGE_STAT_ENABLED 0)) ∧
     (k.alwaysOn = true → Writes (.pageEnable g r p) s g r p 0x008 (fun _ => True) (fun S => S)) ∧
     (k.cap / 4096 % 2 = 1 → Writes (.pageDrain g r p) s g r p 0x008
       (fun S => S.flag p Reg.PAGE.PAGE_CTRL_ENABLE = true ∧ (k = .router → S.c1Tile i = false))
       (fun S => (S.wr p Reg.PAGE.PAGE_CTRL_DRAIN 1).wr p Reg.PAGE.PAGE_STAT_ENABLED 0)) ∧
     (k.cap / 4096 % 2 = 1 → Writes (.pageDrain g r p) s g r p 0x008
       (fun S => S.flag p Reg.PAGE.PAGE_CTRL_ENABLE = false ∧ (k = .router → S.c1Tile i = false))
       (fun S => S.wr p Reg.PAGE.PAGE_CTRL_DRAIN 1))) ∧
  (∀ (s : State) (g : Fin 4) (r : Requester) (p i : Nat) (k : Kind) (dom : BitVec 6) (ra : Bool), pageKind p = some (k, i) →
     Does (.drainComplete g p) s g (fun S => S.flag p Reg.PAGE.PAGE_CTRL_ENABLE = false ∧ S.pageBusy k i = false)
       (fun S => S.wr p Reg.PAGE.PAGE_STAT_ENABLED 0) ∧
     Does (.drainComplete g p) s g (fun S => S.flag p Reg.PAGE.PAGE_CTRL_ENABLE = true ∨ S.pageBusy k i = true) (fun S => S) ∧
     Writes (.pageOwnerWrite g r p dom ra) s g r p 0x01C
       (fun S => S.lockedOwners = false ∧ (k.cap / 2048 % 2 = 1 → dom = 0))
       (fun S => ((S.wr p Reg.PAGE.PAGE_OWNER_OWNER_DOM dom.toNat).wr p Reg.PAGE.PAGE_OWNER_READ_ANY (b2n ra)).heal p 0x01C) ∧
     Writes (.pageOwnerWrite g r p dom ra) s g r p 0x01C (fun S => S.lockedOwners = true) (fun S => S)
       (fun _ t => t.flag p Reg.PAGE.PAGE_FLAGS_LOCK_HIT = true))

/-- R59: a lock bit that is set stays set, with LOCK_HIT, and LOCK_EXPERT clears EXPERT_EN in the same commit. R40: clearing
EXPERT_EN leaves every expert field of every page as it is. -/
def Obligations.LocksStayAndClearExpert : Prop :=
  (∀ (s : State) (g : Fin 4) (r : Requester) (v : Word),
     Does (.guardClose g r (mgmtAddr g.val pgSeg 0x11C) (~~~v)) s g
       (fun S => S.strap = g.val ∧ S.mp.ready = true ∧ S.ctl.stalled = [] ∧ S.ctl.guards = [⟨pgSeg, 0x118, v, r⟩] ∧
         S.soak = false ∧ S.word pgSeg 0x118 &&& ~~~v &&& 3 ≠ 0 ∧
         S.accessError { req := r, wr := true, size := 2, addr := mgmtAddr g.val pgSeg 0x11C } = 0)
       (fun S => (S.modCtl fun c => { c with guards := [] }).acked r)
       (fun _ t => t.flag pgSeg Reg.PAGE.PAGE_FLAGS_LOCK_HIT = true) ∧
     Writes (.lockExpert g r) s g r pgSeg 0x118 (fun _ => True)
       (fun S => ((S.wr pgSeg Reg.SEG.SEG_LOCK_LOCK_EXPERT 1).heal pgSeg 0x118).wr pgSeg Reg.SEG.SEG_CTRL_EXPERT_EN 0)) ∧
  (∀ (s : State) (g : Fin 4) (r : Requester), Writes (.expertEnWrite g r false) s g r pgSeg 0x110 (fun _ => True)
     (fun S => (S.wr pgSeg Reg.SEG.SEG_CTRL_EXPERT_EN 0).heal pgSeg 0x110)
     (fun S t => t.flag pgSeg Reg.SEG.SEG_CTRL_EXPERT_EN = false ∧
       ∀ p off, 0x400 ≤ off → off < 0x800 → off % 4 = 0 → t.word p off = S.word p off))

/-- LOCK_OWNERS is set through its pair (R58); MODE is written without touching EXPERT_EN and EXPERT_EN without touching MODE,
except that EXPERT_EN cannot be set once LOCK_EXPERT is (R58). -/
def Obligations.SegmentControlWrites : Prop :=
  ∀ (s : State) (g : Fin 4) (r : Requester) (m : BitVec 2) (en : Bool),
    Writes (.lockOwners g r) s g r pgSeg 0x118 (fun S => S.flag pgSeg Reg.SEG.SEG_LOCK_LOCK_EXPERT = false)
      (fun S => (S.wr pgSeg Reg.SEG.SEG_LOCK_LOCK_OWNERS 1).heal pgSeg 0x118) ∧
    Writes (.lockOwners g r) s g r pgSeg 0x118 (fun S => S.flag pgSeg Reg.SEG.SEG_LOCK_LOCK_EXPERT = true)
      (fun S => ((S.wr pgSeg Reg.SEG.SEG_LOCK_LOCK_OWNERS 1).heal pgSeg 0x118).wr pgSeg Reg.SEG.SEG_CTRL_EXPERT_EN 0) ∧
    Writes (.segModeWrite g r m) s g r pgSeg 0x110
      (fun S => S.flag pgSeg Reg.SEG.SEG_CTRL_EXPERT_EN = false ∨ S.lockedExpert = false)
      (fun S => (S.wr pgSeg Reg.SEG.SEG_CTRL_MODE m.toNat).heal pgSeg 0x110) ∧
    Writes (.expertEnWrite g r en) s g r pgSeg 0x110 (fun S => en = false ∨ S.lockedExpert = false)
      (fun S => (S.wr pgSeg Reg.SEG.SEG_CTRL_EXPERT_EN (b2n en)).heal pgSeg 0x110) ∧
    Writes (.expertEnWrite g r true) s g r pgSeg 0x110 (fun S => S.lockedExpert = true) (fun S => S)
      (fun _ t => t.flag pgSeg Reg.PAGE.PAGE_FLAGS_LOCK_HIT = true)

/-- A TEN_DOM word takes its four domains through its pair while the owners are not locked, TEN_DENY is cleared by a 1 in
VALID (R61); a glazed word that stops agreeing with its complement raises its page's event, and where FE_MAP or SIG does, the
flow engine is disabled without write-backs or the verdict reads fail (R430, R506). A binding is read into BIND_D with its
count in flight (R129, R131); it is committed from BIND_D and cleared by domain 0 alone. R130: from another domain the entry
stays, REFUSED is set, and the refused write is counted in TEN. (The model's readings: logs 28, 38, 78.) -/
def Obligations.TenantsGlazeAndBinding : Prop :=
  (∀ (s : State) (g : Fin 4) (r : Requester) (n : Fin 72) (w flip : Word) (p i off b : Nat) (k : Kind),
     Writes (.tenDomWrite g r n w) s g r pgTen (0x100 + 8 * n.val) (fun S => S.lockedOwners = false)
       (fun S => ((((S.wr pgTen (Reg.TEN.TEN_DOM_DOM0.at8 n) w.toNat).wr pgTen (Reg.TEN.TEN_DOM_DOM1.at8 n) (w.toNat / 2 ^ 8)).wr
         pgTen (Reg.TEN.TEN_DOM_DOM2.at8 n) (w.toNat / 2 ^ 16)).wr pgTen (Reg.TEN.TEN_DOM_DOM3.at8 n) (w.toNat / 2 ^ 24)).heal
         pgTen (0x100 + 8 * n.val)) ∧
     Writes (.tenDenyClear g r) s g r pgTen 0x390 (fun _ => True) (fun S => (S.setWord pgTen 0x390 0).setWord pgTen 0x394 0) ∧
     (pageKind p = some (k, i) → k ≠ .coll → glazeBit k off = some b → Does (.glazeMismatch g p off flip) s g
       (fun S => SMap.get 0 S.flips (1024 * p + off / 4) ^^^ flip ≠ 0)
       (fun S =>
         let S := { S with flips := SMap.put 0 S.flips (1024 * p + off / 4) (SMap.get 0 S.flips (1024 * p + off / 4) ^^^ flip) }
         if k = .flowwin then S.dropCaches.wr p Reg.PAGE.PAGE_CTRL_ENABLE 0
         else if k = .kiln then S.wr p Reg.KILN.KILN_STAT_VERDICT 2 else S)
       (fun _ t => t.latched p b))) ∧
  (∀ (s : State) (g : Fin 4) (r : Requester) (n : Fin 288) (i : Byte),
     Writes (.bindRead g r n i) s g r (pgNi n) 0x110 (fun _ => True)
       (fun S => let e := SMap.get 0 (S.ni n).bind i.toNat
         ((((S.wr (pgNi n) Reg.NI.BIND_CMD_OP 0).wr (pgNi n) Reg.NI.BIND_CMD_IDX i.toNat).setWord64 (pgNi n) 0x120
           (e.truncate 64)).setWord64 (pgNi n) 0x128 ((e >>> 64).truncate 64)).wr (pgNi n) Reg.NI.BIND_STAT_IN_FLIGHT
           (SMap.get 0 (S.ni n).inFlight i.toNat)) ∧
     (r.dom = 0 → Writes (.bindCommit g r n i) s g r (pgNi n) 0x110 (fun _ => True)
       (fun S => let v := S.word64 (pgNi n) 0x128 ++ S.word64 (pgNi n) 0x120
         (((S.wr (pgNi n) Reg.NI.BIND_CMD_OP 1).wr (pgNi n) Reg.NI.BIND_CMD_IDX i.toNat).wr (pgNi n)
           Reg.NI.BIND_STAT_REFUSED 0).modNi n fun x => { x with bind := SMap.put 0 x.bind i.toNat v })) ∧
     (r.dom = 0 → Writes (.bindClear g r n i) s g r (pgNi n) 0x110 (fun _ => True)
       (fun S => (((S.wr (pgNi n) Reg.NI.BIND_CMD_OP 2).wr (pgNi n) Reg.NI.BIND_CMD_IDX i.toNat).wr (pgNi n)
         Reg.NI.BIND_STAT_REFUSED 0).modNi n fun x =>
           { x with bind := SMap.put 0 x.bind i.toNat (SMap.get 0 x.bind i.toNat &&& ~~~1) })) ∧
     (r.dom ≠ 0 → ∀ c op, (c = .bindCommit g r n i ∧ op = 1) ∨ (c = .bindClear g r n i ∧ op = 2) →
       Writes c s g r (pgNi n) 0x110 (fun _ => True)
         (fun S => ((S.wr (pgNi n) Reg.NI.BIND_CMD_OP op).wr (pgNi n) Reg.NI.BIND_CMD_IDX i.toNat).wr (pgNi n)
           Reg.NI.BIND_STAT_REFUSED 1)
         (fun S t => Counted S t pgTen 0x808 1)))

/-- PORESET_N asserted puts everything at its reset value but the fuse macro and the agents' inputs, and its release samples
TEST_MODE and starts the fuse load, whose pins wait for SEG_RESET_N (R95, R96, R433, R495); a fuse command that it interrupts
never clears a fuse bit (R513). SEG_RESET_N ends SOAK, clears what R96 does not except, and keeps the sherd queue, the held
fuse values, CFG_DIGEST and the TEST_MODE sample (R96, R433, R444); its release reloads the repairs and starts the controller
(R341, R497). (The model's readings: logs 9, 15, 37.) -/
def Obligations.ResetsOfASegment : Prop :=
  (∀ (s : State) (g : Fin 4) (tm : Bool),
     ((s.seg g).kiln.fuseCmd = none →
       exec (.poresetAssert g) s = .next (s.setSeg g { Seg.reset (s.seg g).strap with
         fuses := (s.seg g).fuses, nis := (s.seg g).agentInputs, free := (s.seg g).free,
         pins := { poresetN := false, segResetN := (s.seg g).pins.segResetN } }) ∧
       ((s.seg g).pins.poresetN = false → exec (.poresetRelease g tm) s = .next (s.setSeg g
         { (Seg.reset (s.seg g).strap).wr pgKiln Reg.KILN.KILN_BOOT_TEST_MODE (b2n tm) with
           fuses := (s.seg g).fuses, nis := (s.seg g).agentInputs, free := (s.seg g).free, kiln := { loading := true }
           pins := { poresetN := true, segResetN := (s.seg g).pins.segResetN, fuseClk := (s.seg g).pins.segResetN
                     fuseCs := (s.seg g).pins.segResetN } }))) ∧
     ∃ t, exec (.poresetAssert g) s = .next (s.setSeg g t) ∧ t.inReset = true ∧ t.regs = [] ∧ t.mp = {} ∧ t.srcs = [] ∧
       ∀ a, (s.seg g).fuse a &&& ~~~(t.fuse a) = 0) ∧
  (∀ (s : State) (g : Fin 4),
     (∃ t, exec (.segResetAssert g) s = .next (s.setSeg g t) ∧ t.inReset = true ∧ t.soak = false ∧ t.mp = {} ∧
       t.ctl = { lowPower := (s.seg g).ctl.lowPower } ∧ t.srcs = [] ∧ t.bmem = [] ∧ t.held = (s.seg g).held ∧
       t.fuses = (s.seg g).fuses ∧ t.word64 pgSeg 0x148 = (s.seg g).word64 pgSeg 0x148 ∧
       t.rd pgKiln Reg.KILN.KILN_BOOT_TEST_MODE = (s.seg g).rd pgKiln Reg.KILN.KILN_BOOT_TEST_MODE ∧
       (∀ k, k < 128 → t.word pgColl (0x200 + 4 * k) = (s.seg g).word pgColl (0x200 + 4 * k)) ∧
       ∀ p off, p ≠ pgColl → p ≠ pgKiln → p ≠ pgSeg → off < 4096 → off % 4 = 0 → t.word p off = regReset t.strap p off) ∧
     ((s.seg g).pins.segResetN = false → (s.seg g).pins.poresetN = true → (s.seg g).kiln.loading = false →
       ∃ t, exec (.segResetRelease g) s = .next (s.setSeg g t) ∧ t.inReset = false ∧ t.mp.ready = true ∧
         t.flag pgColl Reg.COLL.COLL_STAT_RUNNING = true ∧
         ∀ (b : Fin 72) (i : Fin 8), (s.seg g).heldFuse (8 * b + i) ≠ 0 →
           t.word (pgBank b) (0x400 + 4 * i.val) = repairWord ((s.seg g).heldFuse (8 * b + i))))

/-- The fuse load puts the macro's words in force, the digest and FUSE_DONE, and starts the controller (R341, R495, R498,
R499). ALIVE changes level while the collector runs healthy (R105, R445), and holds otherwise. A brown-out below the latch
level loses everything but the fuses, and the AON domain restarts with a new sample and a new fuse load; above it, it is
recorded, and a bank whose detector tripped in DROWSY or RETAIN is retention-lost (R338, R471). (The model's readings: logs
15, 37.) -/
def Obligations.FusesAndSupplies : Prop :=
  (∀ (s : State) (g : Fin 4),
     ((s.seg g).inReset = false → (s.seg g).kiln.loading = true →
       (∀ e ∈ (s.seg g).fuses, ¬ (0x240 ≤ e.1 ∧ e.1 ≤ 0x263 ∧ evenOnes 32 e.2.toNat = false)) →
       ∃ t, exec (.fuseLoadComplete g) s = .next (s.setSeg g t) ∧ t.kiln.loading = false ∧ t.held = (s.seg g).fuses ∧
         t.word64 pgSeg 0x148 = t.digest ∧ t.flag pgKiln Reg.KILN.KILN_BOOT_FUSE_DONE = true ∧ t.mp.ready = true ∧
         t.flag pgColl Reg.COLL.COLL_STAT_RUNNING = true) ∧
     Does (.aliveToggle g) s g (fun S => S.flag pgColl Reg.COLL.COLL_STAT_RUNNING = true ∧ S.soak = false ∧
         S.anySevere = false ∧ S.ctl.halted = false) (fun S => S.modPins fun p => { p with alive := !p.alive }) ∧
     Does (.aliveToggle g) s g (fun S => S.soak = true ∨ S.anySevere = true ∨ S.ctl.halted = true) (fun S => S)) ∧
  (∀ (s : State) (g : Fin 4) (tm : Bool) (tr : List (Fin 1024)) (b : Fin 72) (d : Fin 1024),
     Does (.brownOut g tr true) s g (fun S => S.kiln.fuseCmd = none)
       (fun S => { Seg.reset S.strap with
         fuses := S.fuses, nis := S.agentInputs, free := S.free, kiln := { loading := false },
         pins := { poresetN := S.pins.poresetN, segResetN := S.pins.segResetN } }) ∧
     Does (.aonRestart g tm) s g (fun S => S.kiln.fuseCmd = none)
       (fun S => { (Seg.reset S.strap).wr pgKiln Reg.KILN.KILN_BOOT_TEST_MODE (b2n tm) with
         fuses := S.fuses, nis := S.agentInputs, free := S.free, kiln := { loading := true },
         pins := { poresetN := S.pins.poresetN, segResetN := S.pins.segResetN, fuseClk := true, fuseCs := true } }) ∧
     Does (.brownOut g [] false) s g
       (fun S => S.rd pgPwr Reg.PWR.PWR_SEG_STAT_PHASE = 0 ∧ S.ctl.tileCmd = none ∧ S.kiln.run = none ∧
         S.ctl.halted = false ∧ S.ctl.lowPower = false)
       (fun S => ((S.wr pgPwr Reg.PWR.REG_STAT_BROWNOUT 1).wr pgPwr Reg.PWR.REG_STAT_MODE_AT 0).wr pgPwr
         Reg.PWR.REG_STAT_MARKED 0)
       (fun _ t => t.latched pgPwr 16) ∧
     (d.val = srcBank b → Does (.brownOut g [d] false) s g
       (fun S => S.rd pgPwr Reg.PWR.PWR_SEG_STAT_PHASE = 0 ∧ S.ctl.tileCmd = none ∧ S.kiln.run = none ∧
         S.ctl.halted = false ∧ S.ctl.lowPower = false ∧ (S.stBank b = 2 ∨ S.stBank b = 3) ∧
         S.flag (pgBank b) Reg.PAGE.PAGE_STAT_RETENTION_LOST = false ∧ S.rd (pgBank b) Reg.BANK.BANK_OWN_MODE ≠ 1)
       (fun S => ((((((((S.wr pgPwr Reg.PWR.REG_STAT_BROWNOUT 1).wr pgPwr Reg.PWR.REG_STAT_MODE_AT 0).wr pgPwr
         Reg.PWR.REG_STAT_MARKED 1).wr (pgBank b) Reg.PAGE.PAGE_STAT_RETENTION_LOST 1).wr (pgBank b)
         Reg.BANK.RL_INFO_VALID 1).wr (pgBank b) Reg.BANK.RL_INFO_CAUSE 3).wr (pgBank b) Reg.BANK.RL_INFO_ROW 0).wr (pgBank b)
         Reg.BANK.RL_INFO_OFFSET 0).modBank b Bank.clearRes)
       (fun _ t => t.latched pgPwr 14 ∧ t.latched pgPwr 16 ∧ t.latched (pgBank b) 8)))

/-- The first event of an idle crossing is in flight; with the crossing busy it waits in the slot; a third is lost (R363). The
record is the page's event where the source is a unit of a page and its mask is 0 (R31), here a router's. When the acknowledge
phase ends the waiting one is launched (R362). (The model's readings: logs 19, 76.) -/
def Obligations.PulseCrossing : Prop :=
  ∀ (s : State) (g : Fin 4) (t : Fin 144) (src : Fin 1024) (cause : Byte) (synd : Word), src.val = srcRt t → cause.toNat < 32 →
    (∀ e, e = (⟨cause, synd, false⟩ : EvRec) →
      Does (.pulseRaise g src cause synd) s g
        (fun S => S.ctl.halted = false ∧ S.stTile t ≠ 4 ∧ S.bit (pgRt t) 0x014 cause.toNat = false ∧ (S.pulse src).phase = 0)
        (fun S => S)
        (fun S u => u.latched (pgRt t) cause.toNat ∧ u.pulse src = { S.pulse src with phase := 1, flight := some e }) ∧
      Does (.pulseRaise g src cause synd) s g
        (fun S => S.ctl.halted = false ∧ S.stTile t ≠ 4 ∧ S.bit (pgRt t) 0x014 cause.toNat = false ∧ (S.pulse src).phase ≠ 0 ∧
          (S.pulse src).slot = none)
        (fun S => S) (fun S u => u.latched (pgRt t) cause.toNat ∧ u.pulse src = { S.pulse src with slot := some e }) ∧
      Does (.pulseRaise g src cause synd) s g
        (fun S => S.ctl.halted = false ∧ S.stTile t ≠ 4 ∧ S.bit (pgRt t) 0x014 cause.toNat = false ∧ (S.pulse src).phase ≠ 0 ∧
          (S.pulse src).slot ≠ none)
        (fun S => S)
        (fun S u => u.pulse src = { S.pulse src with lost := min 15 ((S.pulse src).lost + 1) } ∧
          u.bit pgClk (0x380 + 4 * (t.val / 32)) (t.val % 32) = true ∧ u.latched pgClk 9)) ∧
    (∀ e, Does (.acknowledgePhaseEnd g src) s g (fun S => (S.pulse src).phase = 2 ∧ (S.pulse src).slot = some e)
      (fun S => S) (fun S u => u.pulse src = { S.pulse src with phase := 1, flight := some e, slot := none })) ∧
    Does (.acknowledgePhaseEnd g src) s g (fun S => (S.pulse src).phase = 2 ∧ (S.pulse src).slot = none)
      (fun S => S) (fun S u => u.pulse src = { S.pulse src with phase := 0, flight := none })

/-- A processed event is recorded at its source and counted (R423, R424): one that is neither FAULT nor FATAL changes nothing
more where its source keeps no full record, as nothing is taken while the two samples of the lost count disagree, which
CNT_AGREE_RETRY counts (R359); one FAULT that reaches N makes the source severe and, where the reaction is to log, is written
to the sherd queue (R423, R425, R432); in SOAK every event is only written (R443). A fault level that ends starts the quiet
time (R436, R439). (The model's readings: logs 27, 32, 94.) -/
def Obligations.CollectorEvents : Prop :=
  ∀ (s : State) (g : Fin 4) (src : Fin 1024) (e : EvRec) (k : Nat), srcOk src = true →
    Does (.eventProcess g ⟨src, k, false⟩) s g (fun _ => True) (fun S => S) (fun S u => Counted S u pgClk 0x810 k) ∧
    (∀ rest : Seg → Prop, rest = (fun S => (S.pulse src).phase = 1 ∧ (S.pulse src).flight = some e ∧
        (S.pulse src).lost ≤ (S.pulse src).prev ∧ S.ctl.halted = false ∧ S.flag pgColl Reg.COLL.COLL_STAT_RUNNING = true ∧
        S.collBad src = none) →
      ∀ noted : Seg → Seg, noted = (fun S => S.modSrc src fun x =>
        { x with total := if x.total = BitVec.allOnes 48 then x.total else x.total + 1, lastCause := e.cause, lastSynd := e.synd }) →
      Does (.eventProcess g ⟨src, k, true⟩) s g
        (fun S => rest S ∧ S.soak = false ∧ S.causeKind src e.cause < 2 ∧ S.isSaggared (S.sagUnit src e.cause e.synd) = false ∧
          S.kilnAt src = false ∧ cfgSherdAll (S.cfgOf src) = false)
        noted (fun S u => Counted S u pgColl 0x800 1 ∧ (u.pulse src).phase = 2) ∧
      Does (.eventProcess g ⟨src, k, true⟩) s g
        (fun S => rest S ∧ S.soak = false ∧ S.causeKind src e.cause = 2 ∧ S.isSaggared (S.sagUnit src e.cause e.synd) = false ∧
          S.kilnAt src = false ∧ cfgReact (S.cfgOf src) = 0 ∧ (S.src src).severe = false ∧ cfgN (S.cfgOf src) = 1)
        (fun S => ((((noted S).setSrc src ((noted S).src src |>.counted S.now (S.units4096 (cfgW (S.cfgOf src))) 1).1).setSevere
          src true).sherdWrite src e.cause e.synd 1 true e.inj))
        (fun _ u => u.latched pgColl 8) ∧
      Does (.eventProcess g ⟨src, k, true⟩) s g (fun S => rest S ∧ S.soak = true)
        (fun S => (noted S).sherdWrite src e.cause e.synd 7 false e.inj)) ∧
    (∀ level, Does (.activeLevelChange g src level) s g (fun S => S.faultLevel src ≠ level ∨ S.ctl.halted = true) (fun S => S)) ∧
    Does (.activeLevelChange g src true) s g (fun S => S.faultLevel src = true ∧ S.ctl.halted = false)
      (fun S => S.modSrc src fun x => { x with active := true }) ∧
    Does (.activeLevelChange g src false) s g (fun S => S.faultLevel src = false ∧ (S.src src).active = true ∧ S.ctl.halted = false)
      (fun S => S.modSrc src fun x => { x with active := false, activeEnd := S.now })

/-- A severe source is cleared by command once its level has ended and its window has passed (R437); a command that may not
clear is refused with its RESULT. Outside service a quiet source clears itself (R438), and a glaze mismatch of the collector's
own values puts the segment into SOAK (R442). RESTORE brings a saggared bank whose kiln run has passed back by zeroing it, and
completes once it is zeroed; a source that is not saggared is refused (R425, R441). BULK_CMD copies BULK_CFG into every source
of its type, with BUSY 1 until that is done (R447), here by the collector's next pass (log 122). (The model's readings: logs
27, 32, 35, 122.) -/
def Obligations.CollectorClearsAndCommands : Prop :=
  (∀ (s : State) (g : Fin 4) (r : Requester) (src : Fin 1024) (n : BitVec 10), n.toNat = src.val → srcOk src = true →
     (∀ base : Seg → Seg, base = (fun S => S.setWord pgColl 0x118 (BitVec.ofNat 32 (src * 256 + 1))) →
       Writes (.srcClear g r n) s g r pgColl 0x118
         (fun S => (S.src src).severe = false ∧ S.collBad src = none)
         (fun S => (base S).wr pgColl Reg.COLL.CMD_STAT_RESULT 1) ∧
       Writes (.srcClear g r n) s g r pgColl 0x118
         (fun S => (S.src src).severe = true ∧ (S.src src).active = true ∧ S.collBad src = none)
         (fun S => (base S).wr pgColl Reg.COLL.CMD_STAT_RESULT 2) (fun _ t => t.latched pgColl 12) ∧
       Writes (.srcClear g r n) s g r pgColl 0x118
         (fun S => (S.src src).severe = true ∧ (S.src src).active = false ∧ S.collBad src = none ∧
           (S.src src).faulted = true ∧ (S.now - (S.src src).lastFault).toNat < S.units4096 (cfgW (S.cfgOf src)))
         (fun S => (base S).wr pgColl Reg.COLL.CMD_STAT_RESULT 3) (fun _ t => t.latched pgColl 12) ∧
       Writes (.srcClear g r n) s g r pgColl 0x118
         (fun S => (S.src src).severe = true ∧ (S.src src).active = false ∧ S.collBad src = none ∧
           ¬ ((S.src src).faulted = true ∧ (S.now - (S.src src).lastFault).toNat < S.units4096 (cfgW (S.cfgOf src))) ∧
           cfgReact (S.cfgOf src) = 0)
         (fun S => ((((base S).setSevere src false).modSrc src fun x => { x with count := 0 }).wr pgColl
           Reg.COLL.CMD_STAT_RESULT 1).sherdWrite src (S.src src).lastCause (S.src src).lastSynd 5 false false)) ∧
     Does (.autoClear g src) s g
       (fun S => S.soak = false ∧ S.mode ≠ 0 ∧ (S.src src).severe = true ∧ (S.src src).active = false ∧ S.quietOver src = true ∧
         S.mismatched pgColl 0x150 = false ∧ S.collBad src = none ∧ S.ctl.halted = false ∧ cfgReact (S.cfgOf src) = 0)
       (fun S => ((S.setSevere src false).modSrc src fun x => { x with count := 0 }).sherdWrite src (S.src src).lastCause
         (S.src src).lastSynd 4 false false)
       (fun _ t => t.latched pgColl 10) ∧
     Does (.autoClear g src) s g (fun S => S.soak = false ∧ S.mode = 0) (fun S => S) ∧
     Does (.collectorGlazePass g) s g (fun S => (S.collMismatch = none ∧ S.ctl.bulk = none) ∨ S.ctl.halted = true) (fun S => S) ∧
     ∀ off n, (s.seg g).inReset = false → (s.seg g).soak = false → (s.seg g).collMismatch = some (off, n) →
       (s.seg g).ctl.bulk = none → (s.seg g).ctl.halted = false →
       (s.seg g).rd pgPwr Reg.PWR.PWR_SEG_STAT_PHASE = 0 → (s.seg g).ctl.tileCmd = none → (s.seg g).kiln.run = none →
       ∃ t, exec (.collectorGlazePass g) s = .next (s.setSeg g t) ∧ t.soak = true ∧
         t.flag pgColl Reg.COLL.SOAK_INFO_VALID = true ∧ t.rd pgColl Reg.COLL.SOAK_INFO_OFFSET = off % 4096) ∧
  (∀ (s : State) (g : Fin 4) (r : Requester) (b : Fin 72) (n : BitVec 10) (ty : BitVec 3), n.toNat = srcBank b →
     Writes (.srcRestore g r n 0) s g r pgColl 0x118
       (fun S => S.saggared (pgBank b) = false ∧ S.collBad (srcBank b) = none)
       (fun S => (S.setWord pgColl 0x118 (BitVec.ofNat 32 (srcBank b * 256 + 2))).wr pgColl Reg.COLL.CMD_STAT_RESULT 4) (fun _ t => t.latched pgColl 12) ∧
     Writes (.srcRestore g r n 0) s g r pgColl 0x118
       (fun S => S.saggared (pgBank b) = true ∧ (S.src (srcBank b)).kilnPass = true ∧
         (S.src (srcBank b)).active = false ∧ S.kiln.run = none ∧ S.collBad (srcBank b) = none ∧ cfgReact (S.cfgOf (srcBank b)) = 0)
       (fun S =>
         let S1 := S.setWord pgColl 0x118 (BitVec.ofNat 32 (srcBank b * 256 + 2))
         let S2 := ((S1.wr pgColl Reg.COLL.CMD_STAT_BUSY 1).wr pgColl Reg.COLL.CMD_STAT_RESULT 0).modCtl fun c =>
           { c with restore := some (srcBank b, 0) }
         (S2.sherdWrite (srcBank b) (S.src (srcBank b)).lastCause (S.src (srcBank b)).lastSynd 6 false false).startZeroing b false) ∧
     Does (.restoreComplete g) s g (fun S => S.ctl.restore = some (srcBank b, 0) ∧ (S.bank b).zeroing = false)
       (fun S => (((S.wr (pgBank b) Reg.PAGE.PAGE_STAT_SAGGARED 0).wr pgColl Reg.COLL.CMD_STAT_BUSY 0).wr pgColl
         Reg.COLL.CMD_STAT_RESULT 1).modCtl fun c => { c with restore := none }) ∧
     Does (.restoreComplete g) s g (fun S => S.ctl.restore = none) (fun S => S) ∧
     Writes (.bulkCfgWrite g r ty) s g r pgColl 0x140 (fun S => S.ctl.bulk = none ∧ ty.toNat < 6)
       (fun S => ((S.wr pgColl Reg.COLL.BULK_CMD_TYPE ty.toNat).modCtl fun x =>
         { x with bulk := some (ty.toNat, S.word pgColl Reg.COLL.BULK_CFG.off) }).wr pgColl Reg.COLL.BULK_CMD_BUSY 1) ∧
     Writes (.bulkCfgWrite g r ty) s g r pgColl 0x140 (fun S => S.ctl.bulk = none ∧ 6 ≤ ty.toNat)
       (fun S => S.wr pgColl Reg.COLL.BULK_CMD_TYPE ty.toNat) ∧
     ∀ (k : Nat) (w : Word), Does (.collectorGlazePass g) s g
       (fun S => S.ctl.halted = false ∧ S.ctl.bulk = some (k, w) ∧ S.bulkEnd.collMismatch = none)
       (fun S => ((S.each (bulkSources k) fun T l => T.writeSrcCfg l w).modCtl fun x => { x with bulk := none }).wr pgColl
         Reg.COLL.BULK_CMD_BUSY 0))

/-- The injector makes its first injection at the write of GO and the rest at each spacing, until COUNT are made; it works in
factory test mode only, where a GO while one runs starts none (R446). The four kinds: an event of INJ_SRC with cause 0x84, a
flit to be corrupted, a flipped complement, and the lane that LANE and BUNDLE name, which fails where INJ_SRC is a bridge; the
first and third are stated for a bank's source. (The model's readings: log 28.) -/
def Obligations.Injections : Prop :=
  ∀ (s : State) (g : Fin 4) (r : Requester) (b : Fin 72),
    (∀ (m : Nat) (go : Seg → Seg), go = (fun S =>
        let c := max 1 (S.rd pgColl Reg.COLL.INJ_CTRL_COUNT)
        let S := S.wr pgColl Reg.COLL.INJ_CTRL_MODE m
        if c ≤ 1 then (S.modCtl fun x => { x with inj := none }).wr pgColl Reg.COLL.INJ_CTRL_GO 0
        else (S.modCtl fun x => { x with inj := some ⟨c - 1, m⟩ }).wr pgColl Reg.COLL.INJ_CTRL_GO 1) →
      ∀ ready : Seg → Prop, ready = (fun S => S.factory = true ∧ S.ctl.inj = none ∧
        S.rd pgColl Reg.COLL.INJ_SEL_INJ_SRC = srcBank b) →
      (m = 0 → Writes (.injectEvent g r) s g r pgColl 0xF00
        (fun S => ready S ∧ S.stTile (bankTile b) ≠ 4 ∧ (S.pulse (srcBank b)).phase = 0) go
        (fun S t => (t.pulse (srcBank b)).flight = some ⟨0x84, S.word pgColl Reg.COLL.INJ_SYND.off, true⟩)) ∧
      (m = 1 → Writes (.injectFlit g r) s g r pgColl 0xF00 ready
        (fun S => (go S).modCtl fun x => { x with injFlit := true })) ∧
      (m = 2 → Writes (.injectGlaze g r) s g r pgColl 0xF00
        (fun S => ready S ∧ S.rd pgColl Reg.COLL.INJ_LOC_OFFSET = 0x100 ∧ S.mismatched (pgBank b) 0x100 = false)
        (fun S => { go S with flips := SMap.put 0 S.flips (1024 * pgBank b + 64) 1 }) (fun _ t => t.latched (pgBank b) 12)) ∧
      (m = 3 → ∀ src bun lane : Seg → Nat, src = (fun S => S.rd pgColl Reg.COLL.INJ_SEL_INJ_SRC) →
          bun = (fun S => S.rd pgColl Reg.COLL.INJ_LOC_BUNDLE) → lane = (fun S => S.rd pgColl Reg.COLL.INJ_SEL_LANE) →
        Writes (.injectLane g r) s g r pgColl 0xF00 (fun S => S.factory = true ∧ S.ctl.inj = none)
          (fun S => if (src S = 0x10 ∨ src S = 0x11) ∧ bun S < 24 ∧ lane S < 17 then
            (go S).laneFail (src S - 0x10) (bun S) (lane S) true else go S)
          (fun S t => Counted S t pgColl 0x858 1)) ∧
      (∀ c : Instr, (c, m) ∈ [(Instr.injectEvent g r, 0), (.injectFlit g r, 1), (.injectGlaze g r, 2), (.injectLane g r, 3)] →
        Writes c s g r pgColl 0xF00 (fun S => S.factory = true ∧ S.ctl.inj ≠ none)
          (fun S => S.wr pgColl Reg.COLL.INJ_CTRL_MODE m) ∧
        Writes c s g r pgColl 0xF00 (fun S => S.factory = false) (fun S => S)
          (fun _ t => t.flag pgColl Reg.PAGE.PAGE_FLAGS_LOCK_HIT = true))) ∧
    Does (.injectionSpacing g) s g (fun S => S.factory = true ∧ S.ctl.inj = some ⟨1, 1⟩)
      (fun S => (S.modCtl fun x => { x with inj := none, injFlit := true }).wr pgColl Reg.COLL.INJ_CTRL_GO 0) ∧
    (∀ k, 2 ≤ k → Does (.injectionSpacing g) s g (fun S => S.factory = true ∧ S.ctl.inj = some ⟨k, 1⟩)
      (fun S => S.modCtl fun x => { x with inj := some ⟨k - 1, 1⟩, injFlit := true })) ∧
    Does (.injectionSpacing g) s g (fun S => S.factory = false ∨ S.ctl.inj = none) (fun S => S)

/-- A run on one unit starts where R502 lets it, with the links of a tested router down and a tested bundle held (R440, R503);
it is refused with its RESULT where R502 does not let it, and hits the lock while one is running (R500–R503). A logic run on a
bank ends with its signature against GOLD, the verdict, and the bank zeroed; a passed one lets the bank be restored (R440,
R504, R505; GOLD is free, log 5). ABORT ends a run without a verdict of its own (R508). APPLY puts the solution into the
REPAIR registers and zeroes the bank (R510). (The model's readings: logs 5, 12, 35, 104.) -/
def Obligations.KilnRuns : Prop :=
  (∀ (s : State) (g : Fin 4) (r : Requester) (scope seed : Bool) (u : BitVec 10) (b : BitVec 5) (c : Instr) (op : Nat) (v : Word),
     (c = .kilnLogic g r scope u b seed ∧ op = 1) ∨ (c = .kilnMemory g r scope u b seed ∧ op = 2) ∨
       (c = .kilnLogicMemory g r scope u b seed ∧ op = 3) →
     v = BitVec.ofNat 32 (op + 8 * b2n scope + 16 * u.toNat + 2 ^ 14 * b.toNat + 2 ^ 19 * b2n seed) →
     Writes c s g r pgKiln 0x100
       (fun S => S.flag pgKiln Reg.KILN.KILN_STAT_BUSY = false ∧ S.kilnCheck op scope u.toNat b.toNat = 1)
       (fun S =>
         let u' := if scope then 0x40 else u.toNat
         let S := ((S.setWord pgKiln 0x100 v).wr pgKiln Reg.KILN.KILN_STAT_RESULT 1).wr pgKiln Reg.KILN.KILN_STAT_BUSY 1
         let S := ((S.wr pgKiln Reg.KILN.KILN_STAT_UNIT u').wr pgKiln Reg.PAGE.PROGRESS_BUSY 1).wr pgKiln Reg.PAGE.PROGRESS_PERCENT 0
         let S := S.wr pgKiln Reg.PAGE.PROGRESS_POSITION (u' * 2 ^ 14)
         let S := { S with kiln := { S.kiln with run := some (op, scope, u.toNat, b.toNat, seed) } }
         let S := S.count pgKiln 0x800
         if scope then S
         else if 0x40 ≤ u.toNat ∧ u.toNat < 0xD0 then S.tileLinksDown (u.toNat - 0x40)
         else if (u.toNat = 0x10 ∨ u.toNat = 0x11) ∧ S.bunTx (u.toNat - 0x10) b.toNat ≠ 5 then
           S.holdBundle (u.toNat - 0x10) b.toNat
         else S) ∧
     Writes c s g r pgKiln 0x100
       (fun S => S.flag pgKiln Reg.KILN.KILN_STAT_BUSY = false ∧ S.kilnCheck op scope u.toNat b.toNat ≠ 1)
       (fun S => (S.setWord pgKiln 0x100 v).wr pgKiln Reg.KILN.KILN_STAT_RESULT (S.kilnCheck op scope u.toNat b.toNat))
       (fun S t => Counted S t pgKiln 0x820 1) ∧
     Writes c s g r pgKiln 0x100 (fun S => S.flag pgKiln Reg.KILN.KILN_STAT_BUSY = true) (fun S => S)
       (fun _ t => t.flag pgKiln Reg.PAGE.PAGE_FLAGS_LOCK_HIT = true)) ∧
  (∀ (s : State) (g : Fin 4) (r : Requester) (b : Fin 72) (n op : Nat) (seed : Bool) (f : KilnFind),
     Does (.kilnRunComplete g f) s g (fun S => S.kiln.run = some (1, false, srcBank b, n, seed))
       (fun S =>
         let gold := Config.gold 2 1
         let v := if seed then 3 else if f.sig = gold then 1 else 2
         let S := { S with kiln := { S.kiln with run := none } }
         let S := (((S.setWord64 pgKiln 0x110 f.sig).setWord64 pgKiln 0x118 gold).heal pgKiln 0x110).heal pgKiln 0x114
         let S := (S.wr pgKiln Reg.KILN.KILN_STAT_VERDICT v).wr pgKiln Reg.KILN.KILN_STAT_BUSY 0
         let S := (S.wr pgKiln Reg.KILN.KILN_FAIL_FAIL_BITS (min 65535 f.failBits)).wr pgKiln Reg.KILN.KILN_FAIL_FAIL_MEMS
           (min 65535 f.failMems)
         let S := if seed ∨ f.sig = gold then S else S.wr pgKiln Reg.KILN.KILN_STAT_UNIT (srcBank b)
         let S := if v = 1 then S.modSrc (srcBank b) fun x => { x with kilnPass := true } else S
         let S := (S.wr pgKiln Reg.PAGE.PROGRESS_BUSY 0).wr pgKiln Reg.PAGE.PROGRESS_PERCENT 100
         (S.wr pgKiln Reg.PAGE.PROGRESS_POSITION (srcBank b * 2 ^ 14 + max 1 (S.rd pgKiln Reg.KILN.EXP_PATTERNS))).zeroed b)
       (fun _ t => t.latched pgKiln 8 ∧ (seed = false → f.sig ≠ Config.gold 2 1 → t.latched pgKiln 9)) ∧
     Does (.kilnRunComplete g f) s g (fun S => S.kiln.run = none) (fun S => S) ∧
     Writes (.kilnAbort g r) s g r pgKiln 0x100 (fun S => S.kiln.run = some (op, false, srcBank b, n, seed))
       (fun S =>
         let S := { S.setWord pgKiln 0x100 4 with kiln := { S.kiln with run := none } }
         (((S.wr pgKiln Reg.KILN.KILN_STAT_BUSY 0).wr pgKiln Reg.KILN.KILN_STAT_VERDICT 4).wr pgKiln
           Reg.PAGE.PROGRESS_BUSY 0).zeroed b)
       (fun _ t => t.latched pgKiln 10) ∧
     Writes (.kilnAbort g r) s g r pgKiln 0x100 (fun S => S.kiln.run = none) (fun S => S.setWord pgKiln 0x100 4) ∧
     Writes (.kilnApply g r) s g r pgKiln 0x100
       (fun S => S.flag pgKiln Reg.KILN.KILN_STAT_BUSY = false ∧ S.solSel = b.val ∧ S.solStat b % 4 = 3 ∧ S.expertEn = true ∧
         (S.enabled (pgBank b) = false ∨ S.saggared (pgBank b) = true))
       (fun S =>
         let T := (S.setWord pgKiln 0x100 5).wr pgKiln Reg.KILN.KILN_STAT_RESULT 1
         let T := T.each (List.range 8) fun T i => (T.setWord (pgBank b) (0x400 + 4 * i)
           (repairWord (SMap.get 0 S.kiln.sols (8 * b.val + i)))).heal (pgBank b) (0x400 + 4 * i)
         T.startZeroing b true))

/-- Factory test mode: the two keys in order and in time, then ENTER, while TEST_MODE is sampled, the field is not locked, the
segment has not joined and MODE is test (R511); anything else starts over, and the eighth failure locks entry out. EXIT
returns every test control and the fuse pins to reset (R104, R512); a fuse command still running ends as an interrupted one
does (the model's choice, log 109). A fuse command raises the macro's pins and BUSY; its end adds the bits programmed to the
word, never taking one away, and reads them back; PROG_REPAIR needs a repairable solution (R513). (The model's readings: logs
9, 36, 109.) -/
def Obligations.FactoryModeAndFuses : Prop :=
  (∀ (s : State) (g : Fin 4) (r : Requester) (key : BitVec 16) (late : Bool),
     Writes (.factoryKeyWrite g r key late) s g r pgKiln 0x160
       (fun S => S.factoryOk = true ∧ S.rd pgKiln Reg.KILN.KILN_BOOT_KEY_STEP = 0 ∧ key.toNat = S.keyA)
       (fun S => { S.wr pgKiln Reg.KILN.KILN_BOOT_KEY_STEP 1 with kiln := { S.kiln with keyAt := S.now } }) ∧
     Writes (.factoryKeyWrite g r key false) s g r pgKiln 0x160
       (fun S => S.factoryOk = true ∧ S.rd pgKiln Reg.KILN.KILN_BOOT_KEY_STEP = 1 ∧ key.toNat = S.keyB ∧ S.keyLate = false)
       (fun S => { S.wr pgKiln Reg.KILN.KILN_BOOT_KEY_STEP 2 with kiln := { S.kiln with keyAt := S.now } }) ∧
     (∀ fail : Seg → Seg, fail = (fun S =>
         let n := min 8 (S.rd pgKiln Reg.KILN.KILN_BOOT_KEY_FAILS + 1)
         let S := (S.wr pgKiln Reg.KILN.KILN_BOOT_KEY_STEP 0).wr pgKiln Reg.KILN.KILN_BOOT_KEY_FAILS n
         if n = 8 then S.wr pgKiln Reg.KILN.KILN_BOOT_LOCKOUT 1 else S) →
       Writes (.factoryKeyWrite g r key late) s g r pgKiln 0x160
         (fun S => S.rd pgKiln Reg.KILN.KILN_BOOT_KEY_STEP = 0 ∧ (S.factoryOk = false ∨ key.toNat ≠ S.keyA))
         (fun S => { fail S with kiln := { S.kiln with keyAt := S.now } }) (fun _ t => t.latched pgKiln 15) ∧
       Writes (.factoryEnter g r late) s g r pgKiln 0x168
         (fun S => S.factoryOk = false ∨ S.rd pgKiln Reg.KILN.KILN_BOOT_KEY_STEP ≠ 2 ∨ late = true ∨ S.keyLate = true) fail
         (fun _ t => t.latched pgKiln 15)) ∧
     Writes (.factoryEnter g r false) s g r pgKiln 0x168
       (fun S => S.factoryOk = true ∧ S.rd pgKiln Reg.KILN.KILN_BOOT_KEY_STEP = 2 ∧ S.keyLate = false)
       (fun S => (S.wr pgSeg Reg.SEG.SEG_STAT_FACTORY 1).wr pgKiln Reg.KILN.KILN_BOOT_KEY_STEP 0)
       (fun _ t => t.latched pgKiln 14) ∧
     Writes (.factoryExit g r) s g r pgKiln 0x168 (fun _ => True)
       (fun S =>
         let S := S.fuseInterrupt
         ({ S with
           regs := S.regs.filter (fun e => e.1 % 1024 < 960),
           ctl := { S.ctl with inj := none, injFlit := false }
           kiln := { S.kiln with fuseCmd := none } }.modPins fun p =>
             { p with fuseClk := false, fuseCs := false, fusePgm := false, fuseAddr := 0, fusePbit := 0 }).wr pgSeg
           Reg.SEG.SEG_STAT_FACTORY 0)) ∧
  (∀ (s : State) (g : Fin 4) (r : Requester) (a : BitVec 10) (stuck : Word),
     Writes (.fuseProgram g r a) s g r pgKiln 0xF00
       (fun S => S.factory = true ∧ S.flag pgKiln Reg.KILN.FUSE_STAT_BUSY = false)
       (fun S => ({ (S.setWord pgKiln 0xF00 (BitVec.ofNat 32 (1024 + a.toNat))).wr pgKiln Reg.KILN.FUSE_STAT_BUSY 1 with
         kiln := { S.kiln with fuseCmd := some (1, a.toNat) } }).modPins fun p =>
           let due := S.word pgKiln Reg.KILN.FUSE_DATA.off &&& ~~~S.fuse a.toNat
           { p with
             fuseClk := true, fuseCs := true, fuseAddr := a, fusePgm := p.fusePgm || due != 0
             fusePbit := if due = 0 then p.fusePbit else
               BitVec.ofNat 5 (((List.range 32).find? fun i => due.getLsbD i).getD 0) }) ∧
     Writes (.fuseProgRepair g r) s g r pgKiln 0xF00
       (fun S => S.factory = true ∧ S.flag pgKiln Reg.KILN.FUSE_STAT_BUSY = false ∧ S.solStat S.solSel % 4 = 3 ∧
         S.progWords S.solSel = some [])
       (fun S => ({ (S.setWord pgKiln 0xF00 2048).wr pgKiln Reg.KILN.FUSE_STAT_BUSY 1 with
         kiln := { S.kiln with fuseCmd := some (2, S.solSel) } }).modPins fun p =>
           { p with fuseClk := true, fuseCs := true, fuseAddr := 0 }) ∧
     (∀ e i rest, e.2 &&& ~~~(s.seg g).fuse e.1 ≠ 0 → e.1 < 1024 →
       (List.range 32).find? (fun j => (e.2 &&& ~~~(s.seg g).fuse e.1).getLsbD j) = some i →
       Writes (.fuseProgRepair g r) s g r pgKiln 0xF00
         (fun S => S.factory = true ∧ S.flag pgKiln Reg.KILN.FUSE_STAT_BUSY = false ∧ S.solStat S.solSel % 4 = 3 ∧
           S.progWords S.solSel = some (e :: rest))
         (fun S => ({ (S.setWord pgKiln 0xF00 2048).wr pgKiln Reg.KILN.FUSE_STAT_BUSY 1 with
           kiln := { S.kiln with fuseCmd := some (2, S.solSel) } }).modPins fun p =>
             { p with fuseClk := true, fuseCs := true, fusePgm := true, fuseAddr := BitVec.ofNat 10 e.1,
                      fusePbit := BitVec.ofNat 5 i })) ∧
     Writes (.fuseProgRepair g r) s g r pgKiln 0xF00
       (fun S => S.factory = true ∧ S.flag pgKiln Reg.KILN.FUSE_STAT_BUSY = false ∧ S.solStat S.solSel % 4 ≠ 3)
       (fun S => (S.setWord pgKiln 0xF00 2048).wr pgKiln Reg.KILN.FUSE_STAT_RESULT 4) ∧
     Does (.fuseCmdComplete g stuck) s g (fun S => S.kiln.fuseCmd = some (1, a.toNat))
       (fun S =>
         let d := S.word pgKiln Reg.KILN.FUSE_DATA.off
         let f := S.fuse a.toNat
         let S := { S.setFuse a.toNat (f ||| (d &&& ~~~stuck)) with kiln := { S.kiln with fuseCmd := none } }
         let S := S.modPins fun p => { p with fuseClk := false, fuseCs := false, fusePgm := false, fuseAddr := 0, fusePbit := 0 }
         (S.wr pgKiln Reg.KILN.FUSE_STAT_BUSY 0).wr pgKiln Reg.KILN.FUSE_STAT_RESULT
           (if d &&& stuck &&& ~~~f ≠ 0 then 2 else 1))
       (fun _ t => t.latched pgKiln 16) ∧
     Does (.fuseCmdComplete g stuck) s g (fun S => S.kiln.fuseCmd = none) (fun S => S))

/-- A tile with a running, locked clock takes a new code by a ramp once its quadrant's voltage allows it: CLK_TILE shows the
limits and the ramp (R348, R351); where the voltage must rise first, VREQ rises and the ramp waits (R99). Off or out of lock
it keeps its code (R353, R374). Here for a tile that carries no C1 traffic; the end of a ramp also for one that does (R352). A
DCO out of lock holds its code and shows DCO_FAULT until the last one locks again (R353). A quadrant's temperature sets its
thermal limit code (R349). VACK's level starts the quadrant's waiting ramps and ends the wait for it; a fall is only shown,
and one that lasts is the collector's cause 0x82 (R99, R351, R418). (The model's readings: logs 29, 30, 85.) -/
def Obligations.CodesTemperatureAndVack : Prop :=
  (∀ (s : State) (g : Fin 4) (t : Fin 144),
     (∀ run : Seg → Prop, run = (fun S => S.stTile t < 2 ∧ SMap.get false S.dcoLost t = false ∧
         S.mismatched pgClk 0x110 = false ∧ S.c1Tile t = false ∧
         S.effCode t ≠ S.rd pgClk (Reg.CLK.CLK_TILE_CUR.at t) ∧ S.rd pgClk (Reg.CLK.CLK_TILE_STATE.at t) = 1) →
       ∀ shown : Seg → Seg, shown = (fun S => ((S.wr pgClk (Reg.CLK.CLK_TILE_BOUND.at t) (S.boundOf t)).wr pgClk
         (Reg.CLK.CLK_TILE_FLOOR.at t) 0).setRamp t (S.effCode t)) →
       Does (.tileCodeChange g t) s g
         (fun S => run S ∧ S.vreq (quadOf t) ≠ 63 ∧ (S.setRamp t (S.effCode t)).vreqNeed (quadOf t) ≤ S.vreq (quadOf t) ∧
           S.vwaits (quadOf t) = false)
         (fun S =>
           let q := quadOf t
           let n := (S.setRamp t (S.effCode t)).vreqNeed q
           let T := (shown S).wr pgClk (Reg.CLK.CLK_V_VREQ.at q) n
           let T := if n < S.vreq q then T.setVgood q (min (S.vgood q) (n + 1)) else T
           (T.modCtl fun c => { c with rampC1 := SMap.put false c.rampC1 t false }).wr pgClk (Reg.CLK.CLK_TILE_STATE.at t) 2) ∧
       Does (.tileCodeChange g t) s g
         (fun S => run S ∧ S.vreq (quadOf t) < (S.setRamp t (S.effCode t)).vreqNeed (quadOf t) ∧
           S.rd pgClk (Reg.CLK.CLK_TILE_CUR.at t) < S.effCode t ∧ S.vgood (quadOf t) ≤
             min 40 (needOf (S.effCode t) + min 6 (S.rd pgClk (Reg.CLK.CLK_VOFS_VOFFSET.at (quadOf t)))))
         (fun S => ((shown S).wr pgClk (Reg.CLK.CLK_V_VREQ.at (quadOf t))
           ((S.setRamp t (S.effCode t)).vreqNeed (quadOf t))).setVwait (quadOf t) true)) ∧
     Does (.tileCodeChange g t) s g
       (fun S => 2 ≤ S.stTile t ∨ SMap.get false S.dcoLost t = true ∨ S.mismatched pgClk 0x110 = true) (fun S => S) ∧
     Does (.dcoRampDone g t) s g
       (fun S => S.rd pgClk (Reg.CLK.CLK_TILE_STATE.at t) = 2 ∧ S.c1Tile t = false ∧ S.rampOf t ≠ 0 ∧ S.stTile t < 2 ∧
         SMap.get false S.dcoLost t = false ∧ S.mismatched pgClk 0x110 = false ∧ S.effCode t = S.rampOf t)
       (fun S => (((((((S.wr pgClk (Reg.CLK.CLK_TILE_CUR.at t) (S.rampOf t)).setRamp t 0).setAligned t false).wr pgClk
         (Reg.CLK.CLK_TILE_STATE.at t) (if S.stTile t = 1 then 6 else 1)).wr (pgRt t) Reg.ROUTER.C1_STAT_RATE
         0).wr pgClk (Reg.CLK.CLK_TILE_BOUND.at t) (S.boundOf t)).wr pgClk
         (Reg.CLK.CLK_TILE_FLOOR.at t) 0).followV (quadOf t))
       (fun S u => S.rd pgClk (Reg.CLK.CLK_TILE_CUR.at t) ≠ S.rampOf t → Counted S u pgClk 0x800 1) ∧
     Does (.dcoRampDone g t) s g
       (fun S => S.rd pgClk (Reg.CLK.CLK_TILE_STATE.at t) = 2 ∧ S.c1Tile t = true ∧ SMap.get false S.ctl.rampC1 t = true)
       (fun S => S.wr pgClk (Reg.CLK.CLK_TILE_STATE.at t) 3) ∧
     Does (.dcoRampDone g t) s g
       (fun S => S.rd pgClk (Reg.CLK.CLK_TILE_STATE.at t) = 2 ∧ S.c1Tile t = true ∧ SMap.get false S.ctl.rampC1 t = false)
       (fun S => S.codeReached t false) ∧
     Does (.dcoRampDone g t) s g (fun S => S.rd pgClk (Reg.CLK.CLK_TILE_STATE.at t) ≠ 2) (fun S => S)) ∧
  (∀ (s : State) (g : Fin 4) (t : Fin 144) (q : Fin 4) (temp : BitVec 9),
     Does (.dcoLockLost g t) s g (fun S => S.stTile t < 2 ∧ SMap.get false S.dcoLost t = false)
       (fun S =>
         let st := S.rd pgClk (Reg.CLK.CLK_TILE_STATE.at t)
         let S := { S with dcoLost := SMap.put false S.dcoLost t true, ramp := SMap.put 0 S.ramp t 0 }
         let S := if st = 2 ∨ st = 3 then S.wr pgClk (Reg.CLK.CLK_TILE_STATE.at t) (S.restState t) else S
         (S.followV (quadOf t)).wr pgClk Reg.CLK.CLK_STAT_DCO_FAULT 1) (fun _ u => u.latched pgClk 13) ∧
     Does (.dcoLockLost g t) s g (fun S => 2 ≤ S.stTile t ∨ SMap.get false S.dcoLost t = true) (fun S => S) ∧
     Does (.dcoLockRegained g t) s g (fun S => SMap.get false S.dcoLost t = true)
       (fun S => ({ S with dcoLost := SMap.put false S.dcoLost t false }).wr pgClk Reg.CLK.CLK_STAT_DCO_FAULT
         (b2n (SMap.put false S.dcoLost t false != []))) ∧
     Does (.tempSample g q temp) s g (fun _ => True)
       (fun S => ((S.wr pgClk (Reg.CLK.CLK_TEMP_TEMP.at q) temp.toNat).wr pgClk (Reg.CLK.CLK_TEMP_TCODE.at q)
         (if temp.toInt ≤ 125 then 48 else max 36 (48 - ceilDiv (12 * (temp.toInt - 125).toNat) 25))).limitsMoved (quadTiles q))
       (fun S u => 125 < temp.toInt → S.tcode q = 48 → u.latched pgClk 11) ∧
     (∀ up : Seg → Seg, up = (fun S =>
       let T := ((S.wr pgClk (Reg.CLK.CLK_V_VACK.at q) 1).setVwait q false).modCtl fun c =>
         { c with vlow := c.vlow &&& ~~~(BitVec.ofNat 4 (2 ^ q.val)) }
       if S.vreq q = 63 then T else T.setVgood q (S.vreq q + 1)) →
      Does (.vackRise g q) s g (fun S => S.ctl.tileCmd = none ∧ ∀ u : Fin 144, quadOf u = q.val → S.rampOf u = 0)
       up ∧
      Does (.vackRise g q) s g
       (fun S => S.ctl.tileCmd = none ∧ quadOf t = q.val ∧ S.rampOf t ≠ 0 ∧ S.c1Tile t = false ∧
         S.rd pgClk (Reg.CLK.CLK_TILE_STATE.at t) = 1 ∧ ∀ u : Fin 144, u ≠ t → quadOf u = q.val → S.rampOf u = 0)
       (fun S => ((up S).modCtl fun c => { c with rampC1 := SMap.put false c.rampC1 t false }).wr pgClk
         (Reg.CLK.CLK_TILE_STATE.at t) 2)) ∧
     Does (.vackFall g q) s g (fun _ => True) (fun S => S.wr pgClk (Reg.CLK.CLK_V_VACK.at q) 0) ∧
     Does (.vackTimeout g q) s g
       (fun S => S.flag pgClk (Reg.CLK.CLK_V_VACK.at q) = false ∧ S.vreq q ≠ 63 ∧ S.ctl.vlow.getLsbD q.val = false ∧
         (S.pulse 7).phase = 0)
       (fun S => S.modCtl fun c => { c with vlow := c.vlow ||| BitVec.ofNat 4 (2 ^ q.val) })
       (fun _ u => (u.pulse 7).flight = some ⟨0x82, BitVec.ofNat 32 q.val, false⟩) ∧
     Does (.vackTimeout g q) s g (fun S => S.flag pgClk (Reg.CLK.CLK_V_VACK.at q) = true ∨ S.vreq q = 63 ∨
       S.ctl.vlow.getLsbD q.val = true) (fun S => S))

/-- The clock switch: committed once, with a good REFCLK it starts the tick generator, with a bad one it shows REFCLK_BAD and
is tried again (R496); the lock of the tick generator completes it and starts the master FTB at 0 (R369, R372, R534), and the
times of the bays go on in ticks (R477, log 125). A tile's copy of the FTB counts at its slot ticks once loaded, is loaded and
corrected at its boundary with an event for a slip (R371); CLK_OVR bits clear by writing ones, with the lost counts of their
tiles (R364). An aligned C1 tile takes its new code at a tick (R352). (The model's readings: logs 13, 125.) -/
def Obligations.ClockSwitchAndTimeBase : Prop :=
  (∀ (s : State) (g : Fin 4) (r : Requester),
     Writes (.clkSwitch g r true) s g r pgClk 0x104
       (fun S => S.flag pgClk Reg.CLK.CLK_SW_SWITCH = false ∧ S.switched = false ∧ S.ctl.tickStart = false)
       (fun S => (((S.wr pgClk Reg.CLK.CLK_SW_SWITCH 1).heal pgClk 0x104).wr pgKiln Reg.KILN.KILN_BOOT_REFCLK_BAD 0).modCtl
         fun c => { c with tickStart := true }) ∧
     Writes (.clkSwitch g r false) s g r pgClk 0x104
       (fun S => S.flag pgClk Reg.CLK.CLK_SW_SWITCH = false ∧ S.switched = false ∧ S.ctl.tickStart = false)
       (fun S => ((S.wr pgClk Reg.CLK.CLK_SW_SWITCH 1).heal pgClk 0x104).wr pgKiln Reg.KILN.KILN_BOOT_REFCLK_BAD 1)
       (fun _ t => t.latched pgKiln 13) ∧
     (∀ ok, Writes (.clkSwitch g r ok) s g r pgClk 0x104 (fun S => S.flag pgClk Reg.CLK.CLK_SW_SWITCH = true) (fun S => S)
       (fun _ t => t.flag pgClk Reg.PAGE.PAGE_FLAGS_LOCK_HIT = true)) ∧
     Does (.refclkCheckRetry g true) s g
       (fun S => S.flag pgClk Reg.CLK.CLK_SW_SWITCH = true ∧ S.switched = false ∧ S.ctl.tickStart = false)
       (fun S => (S.wr pgKiln Reg.KILN.KILN_BOOT_REFCLK_BAD 0).modCtl fun c => { c with tickStart := true }) ∧
     Does (.refclkCheckRetry g false) s g
       (fun S => S.flag pgClk Reg.CLK.CLK_SW_SWITCH = true ∧ S.switched = false ∧ S.ctl.tickStart = false)
       (fun S => S.wr pgKiln Reg.KILN.KILN_BOOT_REFCLK_BAD 1) (fun _ t => t.latched pgKiln 13) ∧
     Does (.tickLock g) s g (fun S => S.ctl.tickStart = true ∧ S.ftbRuns = false)
       (fun S =>
         let S := { S with
           ftb := 0
           srcs := SMap.mapNorm {} (fun _ (x : Src) => { x with wstart := 0, lastFault := 0, activeEnd := 0 }) S.srcs
           bays := SMap.mapNorm {} (fun _ (x : Bay) => { x with
             strikes := x.strikes.map fun t => -((S.bisque - t) * 6), retryFrom := -((S.bisque - x.retryFrom) * 6) }) S.bays }
         let S := S.modCtl fun c => { c with tickStart := false }
         (((S.wr pgClk Reg.CLK.CLK_STAT_TICK_LOCK 1).wr pgClk Reg.CLK.CLK_STAT_FTB_RUN 1).wr pgClk
           Reg.CLK.CLK_STAT_SWITCHED 1).wr pgSeg Reg.SEG.SEG_STAT_BISQUE 0)
       (fun _ t => t.latched pgClk 15)) ∧
  (∀ (s : State) (g : Fin 4) (r : Requester) (t : Fin 144) (w : Fin 5) (bits : Word),
     Does (.slotTick g t) s g
       (fun S => S.ftbRuns = true ∧ S.stTile t ≠ 4 ∧ SMap.get false S.synced t = true ∧
         (S.c1Tile t = false ∨ S.rampOf t = 0))
       (fun S => S.setTftb t (S.tftb t + 1)) ∧
     Does (.slotTick g t) s g
       (fun S => S.ftbRuns = true ∧ S.stTile t ≠ 4 ∧ SMap.get false S.synced t = true ∧ S.c1Tile t = true ∧
         (S.rd pgClk (Reg.CLK.CLK_TILE_STATE.at t) = 3 ∨ S.isAligned t = true) ∧ S.supplyOk t = true ∧ S.rampOf t ≠ 0)
       (fun S => (S.setTftb t (S.tftb t + 1)).codeReached t true) ∧
     Does (.slotTick g t) s g (fun S => S.ftbRuns = false ∨ S.stTile t = 4) (fun S => S) ∧
     Does (.ftbSyncBoundary g t) s g
       (fun S => S.ftbRuns = true ∧ S.stTile t ≠ 4 ∧ S.ftb.toNat % 64 = 0 ∧ SMap.get false S.synced t = false)
       (fun S => { S.setTftb t S.ftb with synced := SMap.put false S.synced t true }) ∧
     Does (.ftbSyncBoundary g t) s g
       (fun S => S.ftbRuns = true ∧ S.stTile t ≠ 4 ∧ S.ftb.toNat % 64 = 0 ∧ SMap.get false S.synced t = true ∧
         S.tftb t ≠ S.ftb)
       (fun S => S.setTftb t S.ftb) (fun S u => Counted S u pgClk 0x830 1 ∧ u.latched pgClk 8) ∧
     Does (.ftbSyncBoundary g t) s g
       (fun S => S.ftbRuns = true ∧ SMap.get false S.synced t = true ∧ S.tftb t = S.ftb) (fun S => S) ∧
     Writes (.clkOvrClear g r w bits) s g r pgClk (0x380 + 4 * w.val) (fun _ => True) (fun S => S)
       (fun S u => u.word pgClk (0x380 + 4 * w.val) = S.word pgClk (0x380 + 4 * w.val) &&& ~~~bits ∧
         ∀ l t, srcTile l = some t → t / 32 = w.val → bits.getLsbD (t % 32) = true → (u.pulse l).lost = 0 ∧ (u.pulse l).prev = 0))

/-- Insertion: presence, debounce, the insertion delay (not in SOAK), precharge, the gate, power good (R478, R480). (The
model's readings: logs 31, 103.) -/
def Obligations.BayInsertion : Prop :=
  ∀ (s : State) (g : Fin 4) (n : Fin 8),
    Does (.bayPresenceFall g n) s g (fun S => S.ctl.halted = false ∧ S.bayState n = bayEmpty)
      (fun S => S.wr (pgBay n) Reg.BAY.BAY_STAT_STATE 2) ∧
    Does (.bayPresenceFall g n) s g (fun S => S.ctl.halted = false ∧ S.bayState n ≠ bayEmpty) (fun S => S) ∧
    Does (.bayDebounceExpiry g n) s g (fun S => S.ctl.halted = false ∧ S.bayState n = bayDebounce)
      (fun S => (S.wr (pgBay n) Reg.BAY.BAY_STAT_PRES 1).wr (pgBay n) Reg.BAY.BAY_STAT_STATE 3)
      (fun _ t => t.latched (pgBay n) 8) ∧
    Does (.bayDebounceExpiry g n) s g
      (fun S => S.ctl.halted = false ∧ S.bayState n = bayRetry ∧ S.flag (pgBay n) Reg.BAY.BAY_STAT_PRES = false)
      (fun S => S.wr (pgBay n) Reg.BAY.BAY_STAT_PRES 1) (fun _ t => t.latched (pgBay n) 8) ∧
    Does (.bayInsertionDelayExpiry g n) s g
      (fun S => S.ctl.halted = false ∧ S.bayState n = bayWait ∧ S.soak = false ∧ S.bayBad n = false)
      (fun S => ((((S.wr (pgBay n) Reg.BAY.BAY_STAT_UV_OK 1).wr (pgBay n) Reg.BAY.BAY_STAT_OV_OK 1).wr (pgBay n)
        Reg.BAY.BAY_STAT_OC 0).wr (pgBay n) Reg.BAY.BAY_STAT_PRE_EN 1).wr (pgBay n) Reg.BAY.BAY_STAT_STATE 4) ∧
    Does (.bayInsertionDelayExpiry g n) s g
      (fun S => S.ctl.halted = true ∨ S.bayState n ≠ bayWait ∨ S.soak = true ∨ S.bayBad n = true) (fun S => S) ∧
    Does (.bayPrechargeExpiry g n) s g (fun S => S.ctl.halted = false ∧ S.bayState n = bayPrecharge)
      (fun S => (S.wr (pgBay n) Reg.BAY.BAY_STAT_GATE_EN 1).wr (pgBay n) Reg.BAY.BAY_STAT_STATE 5) ∧
    Does (.bayPowerGood g n) s g (fun S => S.ctl.halted = false ∧ S.bayState n = bayRamp)
      (fun S => (((S.wr (pgBay n) Reg.BAY.BAY_STAT_GATE_UP 1).wr (pgBay n) Reg.BAY.BAY_STAT_VOUT_DET 1).wr (pgBay n)
        Reg.BAY.BAY_STAT_PRE_EN 0).wr (pgBay n) Reg.BAY.BAY_STAT_STATE 6)
      (fun _ t => t.latched (pgBay n) 9)

/-- Power off: both enables fall, a bound site's NI page is disabled and drains, a read ends, and the bay goes where the event
says; a removal leaves it empty, a window loss waiting (R478, R482); a saggared bay ignores both (R491). Of a halted
controller the sequences stand still and the enables hold (R481). Faults: a gate that does not rise, is lost, or an output
without a gate saggars the bay with its cause (R483, R484, R491); a gate without output and an overcurrent are strikes, of
which the last allowed saggars it and each other starts the retry timer (R485); near a removal or without power an overcurrent
is only counted (R90). (The model's readings: logs 31, 124.) -/
def Obligations.BayPowerOffAndFaults : Prop :=
  (∀ (s : State) (g : Fin 4) (r : Requester) (n : Fin 8) (uv ov : Bool),
     (∀ off : Seg → Seg, off = (fun S => ((S.wr (pgBay n) Reg.BAY.BAY_STAT_PRE_EN 0).wr (pgBay n) Reg.BAY.BAY_STAT_GATE_EN 0).i2cEnd n) →
       Does (.bayRemoval g n) s g (fun S => S.ctl.halted = false ∧ 4 ≤ S.bayState n ∧ S.bayState n < 8)
         (fun S => (off (S.wr (pgBay n) Reg.BAY.BAY_STAT_PRES 0)).wr (pgBay n) Reg.BAY.BAY_STAT_STATE 1)
         (fun S t => S.flag (pgBay n) Reg.BAY.BAY_STAT_PRES = true → t.latched (pgBay n) 10) ∧
       Does (.bayWindowLoss g n uv ov) s g (fun S => S.ctl.halted = false ∧ 4 ≤ S.bayState n ∧ S.bayState n < 8 ∧ (uv && ov) = false)
         (fun S => (off ((S.wr (pgBay n) Reg.BAY.BAY_STAT_UV_OK (b2n uv)).wr (pgBay n) Reg.BAY.BAY_STAT_OV_OK (b2n ov))).wr
           (pgBay n) Reg.BAY.BAY_STAT_STATE 3) (fun _ t => t.latched (pgBay n) 13) ∧
       Writes (.bayDisable g r n) s g r (pgBay n) 0x008
         (fun S => S.flag (pgBay n) Reg.PAGE.PAGE_CTRL_ENABLE = true ∧ 4 ≤ S.bayState n ∧ S.bayState n < 8)
         (fun S => (off (S.wr (pgBay n) Reg.PAGE.PAGE_CTRL_ENABLE 0)).wr (pgBay n) Reg.BAY.BAY_STAT_STATE 0)) ∧
     Does (.bayRemoval g n) s g (fun S => S.ctl.halted = false ∧ S.bayState n = bayBound)
       (fun S => (S.wr (pgBay n) Reg.BAY.BAY_STAT_PRES 0).bayOff n 1) (fun _ t => t.latched (pgBay n) 16) ∧
     Does (.bayRemoval g n) s g (fun S => S.ctl.halted = false ∧ S.bayState n = bayDebounce)
       (fun S => (S.wr (pgBay n) Reg.BAY.BAY_STAT_PRES 0).wr (pgBay n) Reg.BAY.BAY_STAT_STATE 1) ∧
     Does (.bayWindowLoss g n uv ov) s g
       (fun S => S.ctl.halted = false ∧ S.bayState n ≠ baySaggared ∧ (bayPowered (S.bayState n) = false ∨ (uv && ov) = true))
       (fun S => (S.wr (pgBay n) Reg.BAY.BAY_STAT_UV_OK (b2n uv)).wr (pgBay n) Reg.BAY.BAY_STAT_OV_OK (b2n ov)) ∧
     Does (.bayRemoval g n) s g (fun S => S.ctl.halted = false ∧ (S.bayState n < 2 ∨ S.bayState n = bayWait ∨ S.bayState n = bayRetry))
       (fun S => S.wr (pgBay n) Reg.BAY.BAY_STAT_PRES 0)
       (fun S t => S.flag (pgBay n) Reg.BAY.BAY_STAT_PRES = true → t.latched (pgBay n) 10) ∧
     (∀ c : Instr, c ∈ [.bayRemoval g n, .bayWindowLoss g n uv ov] →
       Does c s g (fun S => S.ctl.halted = false ∧ S.bayState n = baySaggared) (fun S => S)) ∧
     Does (.bayRemoval g n) s g (fun S => S.ctl.halted = true) (fun S => S) (fun S t => Counted S t pgPwr 0x840 1) ∧
     (∀ c : Instr, c ∈ [.bayWindowLoss g n uv ov, .bayGateLost g n, .bayPrechargeExpiry g n, .bayRetryExpiry g n] →
       Does c s g (fun S => S.ctl.halted = true) (fun S => S)) ∧
     Writes (.bayEnable g r n) s g r (pgBay n) 0x008
       (fun S => S.flag (pgBay n) Reg.PAGE.PAGE_CTRL_ENABLE = false ∧ S.bayState n = bayDisabled)
       (fun S => (S.wr (pgBay n) Reg.PAGE.PAGE_CTRL_ENABLE 1).wr (pgBay n) Reg.BAY.BAY_STAT_STATE
         (if S.flag (pgBay n) Reg.BAY.BAY_STAT_TIMER then 9 else 1))) ∧
  (∀ (s : State) (g : Fin 4) (n : Fin 8),
     (∀ sag : Nat → Seg → Seg, sag = (fun c S => ((S.bayOff n 10).wr (pgBay n) Reg.PAGE.PAGE_STAT_SAGGARED 1).wr (pgBay n)
         Reg.BAY.BAY_STAT_SAG_CAUSE c) →
       Does (.bayGateRiseTimeout g n false) s g (fun S => S.ctl.halted = false ∧ S.bayState n = bayRamp)
         (fun S => sag 1 (S.wr (pgBay n) Reg.BAY.BAY_STAT_GATE_UP 0)) (fun _ t => t.latched (pgBay n) 12) ∧
       Does (.bayGateLost g n) s g
         (fun S => S.ctl.halted = false ∧ (S.bayState n = bayIdWait ∨ S.bayState n = bayReady ∨ S.bayState n = bayBound))
         (fun S => sag 4 (S.wr (pgBay n) Reg.BAY.BAY_STAT_GATE_UP 0)) (fun _ t => t.latched (pgBay n) 12) ∧
       Does (.bayOutputWithoutGate g n) s g
         (fun S => S.ctl.halted = false ∧ (S.bayState n = bayEmpty ∨ S.bayState n = bayDebounce ∨ S.bayState n = bayWait ∨
           S.bayState n = bayRetry))
         (fun S => sag 2 (S.wr (pgBay n) Reg.BAY.BAY_STAT_VOUT_DET 1)) (fun _ t => t.latched (pgBay n) 12) ∧
       ∀ strike : Seg → Seg, strike = (fun S =>
           let T := S.modBay n fun b => { b with strikes := lastN 7 (b.strikes ++ [S.now]) }
           let k := T.strikesNow n
           let T := T.wr (pgBay n) Reg.BAY.BAY_STAT_STRIKES k
           if max 1 (T.rd (pgBay n) Reg.BAY.BAY_T1_STRIKES_MAX) ≤ k then sag 3 T
           else ((T.bayOff n 9).wr (pgBay n) Reg.BAY.BAY_STAT_TIMER 1).modBay n fun b => { b with retryFrom := S.now }) →
         Does (.bayGateRiseTimeout g n true) s g (fun S => S.ctl.halted = false ∧ S.bayState n = bayRamp)
           (fun S => strike (S.wr (pgBay n) Reg.BAY.BAY_STAT_GATE_UP 1)) (fun _ t => t.latched (pgBay n) 11) ∧
         Does (.bayOvercurrent g n false) s g (fun S => 4 ≤ S.bayState n ∧ S.bayState n ≤ 8)
           (fun S => strike (S.wr (pgBay n) Reg.BAY.BAY_STAT_OC 1)) (fun _ t => t.latched (pgBay n) 11)) ∧
     (∀ near, Does (.bayOvercurrent g n near) s g (fun S => near = true ∨ S.bayState n < 4 ∨ 8 < S.bayState n)
       (fun S => S.wr (pgBay n) Reg.BAY.BAY_STAT_OC 1) (fun S t => Counted S t (pgBay n) 0x820 1)) ∧
     Does (.bayRetryExpiry g n) s g
       (fun S => S.ctl.halted = false ∧ S.flag (pgBay n) Reg.BAY.BAY_STAT_TIMER = true ∧ S.bayState n = bayRetry ∧ S.bayBad n = false)
       (fun S => (S.wr (pgBay n) Reg.BAY.BAY_STAT_TIMER 0).wr (pgBay n) Reg.BAY.BAY_STAT_STATE
         (if S.flag (pgBay n) Reg.BAY.BAY_STAT_PRES then 3 else 1)) ∧
     Does (.bayRetryExpiry g n) s g (fun S => S.ctl.halted = false ∧ S.flag (pgBay n) Reg.BAY.BAY_STAT_TIMER = true ∧ S.bayState n ≠ bayRetry)
       (fun S => S.wr (pgBay n) Reg.BAY.BAY_STAT_TIMER 0) ∧
     Does (.bayStrikeAgeOut g n) s g (fun S => S.ctl.halted = false)
       (fun S => S.wr (pgBay n) Reg.BAY.BAY_STAT_STRIKES (S.strikesNow n)))

/-- The identity read: asked for after its delay, one at a time in the order asked (R486); a sound record sets ID_VALID and
ends in READY (R487, R488), and a bay that may bind itself does (R490); a failed attempt is retried, the third ends the read
without ID_VALID (R92, R486). BAY_CMD: BIND takes a READY bay with a valid identity whose site may be bound, enables the
site's NI page, and names its refusal otherwise (R489); UNBIND disables the page again; REREAD asks for another read (R488). A
command out of its states answers NOT_READY (log 11). -/
def Obligations.BayIdentityAndBinding : Prop :=
  (∀ (s : State) (g : Fin 4) (n : Fin 8) (rec : BitVec 2048) (stretch : Bool),
     Does (.bayIdentityDelayExpiry g n) s g
       (fun S => S.ctl.halted = false ∧ S.bayState n = bayIdWait ∧ S.ctl.i2cAsked = [] ∧ ∀ m : Fin 8, (S.bay m).idBusy = false)
       (fun S => (((S.each (List.range 64) fun T k => T.setWord (pgBay n) (0x200 + 4 * k) 0).wr (pgBay n)
         Reg.BAY.BAY_STAT_ID_VALID 0).modBay n fun b => { b with idBusy := true, attempts := 0 }).modPins
         fun p => { p with i2cSel := some n.val }) ∧
     (∀ m, m ≠ n.val → Does (.bayIdentityDelayExpiry g n) s g
       (fun S => S.ctl.halted = false ∧ S.bayState n = bayIdWait ∧ (S.bay n).idBusy = false ∧ S.ctl.i2cAsked.contains n.val = false ∧ m < 8 ∧
         (S.bay m).idBusy = true)
       (fun S => S.modCtl fun c => { c with i2cAsked := c.i2cAsked ++ [n.val] })) ∧
     Does (.bayIdentityReadEnd g n rec) s g
       (fun S => S.ctl.halted = false ∧ S.pins.i2cSel = some n.val ∧ S.bayState n = bayIdWait ∧ recordCode rec = 0 ∧
         S.flag (pgBay n) Reg.BAY.BAY_CFG_AUTO_BIND = false)
       (fun S => (((((S.each (List.range 64) fun T k => T.setWord (pgBay n) (0x200 + 4 * k)
         (BitVec.ofNat 32 (slice rec.toNat (32 * k) 32))).wr (pgBay n) Reg.BAY.BAY_STAT_ID_VALID 1).wr (pgBay n)
         Reg.BAY.BAY_STAT_PRE_SHORT (b2n (decide (max 1 (S.rd (pgBay n) Reg.BAY.BAY_T0_PRECHARGE) < recByte rec 0x28)))).i2cEnd
         n).wr (pgBay n) Reg.BAY.BAY_STAT_STATE 7)) ∧
     Does (.bayIdentityReadEnd g n rec) s g
       (fun S => S.ctl.halted = false ∧ S.pins.i2cSel = some n.val ∧ S.bayState n = bayIdWait ∧ recordCode rec ≠ 0)
       (fun S => ((((S.each (List.range 64) fun T k => T.setWord (pgBay n) (0x200 + 4 * k)
         (BitVec.ofNat 32 (slice rec.toNat (32 * k) 32))).wr (pgBay n) Reg.BAY.BAY_STAT_ID_VALID 0).i2cEnd n).wr (pgBay n)
         Reg.BAY.BAY_STAT_STATE 7)) (fun _ t => t.latched (pgBay n) 14) ∧
     Does (.identityAttemptFailed g n stretch) s g
       (fun S => S.ctl.halted = false ∧ S.pins.i2cSel = some n.val ∧ (S.bay n).attempts < 2)
       (fun S => (S.modBay n fun b => { b with attempts := (S.bay n).attempts + 1 }).modPins fun p => { p with i2cSel := none }) ∧
     Does (.identityAttemptFailed g n stretch) s g
       (fun S => S.ctl.halted = false ∧ S.pins.i2cSel = some n.val ∧ (S.bay n).attempts = 2 ∧ S.bayState n = bayIdWait ∧
         S.flag (pgBay n) Reg.BAY.BAY_STAT_ID_VALID = false)
       (fun S => (S.i2cEnd n).wr (pgBay n) Reg.BAY.BAY_STAT_STATE 7) (fun _ t => t.latched (pgBay n) 14) ∧
     Does (.bayIdAttemptRetry g n) s g
       (fun S => S.ctl.halted = false ∧ (S.bay n).idBusy = true ∧ 0 < (S.bay n).attempts ∧ S.pins.i2cSel = none)
       (fun S => S.modPins fun p => { p with i2cSel := some n.val })) ∧
  (∀ (s : State) (g : Fin 4) (r : Requester) (n : Fin 8),
     Writes (.bayBind g r n) s g r (pgBay n) 0x114 (fun S => S.bayBad n = false ∧ S.bindCheck n = 1)
       (fun S =>
         let site := S.rd (pgBay n) Reg.BAY.BAY_CFG_SITE
         let T := (((S.wr (pgBay n) Reg.BAY.BAY_CMD_OP 1).heal (pgBay n) 0x114).wr (pgBay n) Reg.BAY.BAY_RESULT_RESULT 1)
         let T := (T.wr (pgNi site) Reg.PAGE.PAGE_CTRL_ENABLE 1).wr (pgNi site) Reg.PAGE.PAGE_STAT_ENABLED 0
         ((T.wr (pgBay n) Reg.BAY.BAY_STAT_STATE 8).wr (pgBay n) Reg.BAY.BAY_STAT_BOUND 1).modBay n fun b => { b with site := site })
       (fun _ t => t.latched (pgBay n) 15) ∧
     Writes (.bayBind g r n) s g r (pgBay n) 0x114 (fun S => S.bayBad n = false ∧ S.bindCheck n ≠ 1)
       (fun S => ((S.wr (pgBay n) Reg.BAY.BAY_CMD_OP 1).heal (pgBay n) 0x114).wr (pgBay n) Reg.BAY.BAY_RESULT_RESULT
         (S.bindCheck n)) ∧
     Writes (.bayUnbind g r n) s g r (pgBay n) 0x114
       (fun S => S.bayState n = bayBound ∧ (S.bay n).site < 0x120 ∧
         S.flag (pgNi (S.bay n).site) Reg.PAGE.PAGE_CTRL_ENABLE = true)
       (fun S =>
         let site := (S.bay n).site
         let T := ((S.wr (pgBay n) Reg.BAY.BAY_CMD_OP 2).heal (pgBay n) 0x114).wr (pgBay n) Reg.BAY.BAY_RESULT_RESULT 1
         let T := (T.wr (pgNi site) Reg.PAGE.PAGE_CTRL_ENABLE 0).wr (pgNi site) Reg.PAGE.PAGE_STAT_ENABLED 1
         (T.wr (pgBay n) Reg.BAY.BAY_STAT_STATE 7).wr (pgBay n) Reg.BAY.BAY_STAT_BOUND 0)
       (fun _ t => t.latched (pgBay n) 16) ∧
     Writes (.bayUnbind g r n) s g r (pgBay n) 0x114 (fun S => S.bayState n ≠ bayBound)
       (fun S => ((S.wr (pgBay n) Reg.BAY.BAY_CMD_OP 2).heal (pgBay n) 0x114).wr (pgBay n) Reg.BAY.BAY_RESULT_RESULT 2) ∧
     Writes (.bayReread g r n) s g r (pgBay n) 0x114
       (fun S => (S.bayState n = bayReady ∨ S.bayState n = bayBound) ∧ S.ctl.i2cAsked = [] ∧ ∀ m : Fin 8, (S.bay m).idBusy = false)
       (fun S => ((((((S.wr (pgBay n) Reg.BAY.BAY_CMD_OP 3).heal (pgBay n) 0x114).wr (pgBay n) Reg.BAY.BAY_RESULT_RESULT 1).each
         (List.range 64) fun T k => T.setWord (pgBay n) (0x200 + 4 * k) 0).wr (pgBay n) Reg.BAY.BAY_STAT_ID_VALID 0).modBay n
         fun b => { b with idBusy := true, attempts := 0 }).modPins fun p => { p with i2cSel := some n.val }) ∧
     Writes (.bayReread g r n) s g r (pgBay n) 0x114 (fun S => S.bayState n ≠ bayReady ∧ S.bayState n ≠ bayBound)
       (fun S => ((S.wr (pgBay n) Reg.BAY.BAY_CMD_OP 3).heal (pgBay n) 0x114).wr (pgBay n) Reg.BAY.BAY_RESULT_RESULT 2))

/-- A quiet domain goes down through IDLE, DROWSY and RETAIN as far as its target allows (R453, R454); from DROWSY on a bank's
reservations are gone (R171), into RETAIN its canary rows are written (R335); a tile takes its bank with it (R451), unless the
floor holds it, which is counted (R458). (The model's readings: logs 58, 71, 105.) -/
def Obligations.DomainsGoDown : Prop :=
  ∀ (s : State) (g : Fin 4) (d : Fin 1024) (t : Fin 144) (b : Fin 72) (v : Nat),
    (d.val = 0x40 + t.val →
      (∀ bankToo : Seg → Seg, bankToo = (fun S => S.when (tileBank t == some b.val && S.stBank b == 0) (·.setStBank b 1)) →
        (tileBank t).all (· == b.val) = true →
        Does (.autoIdleEntry g d) s g
          (fun S => S.stTile t = 0 ∧ S.tileQuiet t = true ∧ S.rd pgClk (Reg.CLK.CLK_TILE_STATE.at t) ∉ [2, 3])
          (fun S => bankToo ((S.setStTile t 1).wr pgClk (Reg.CLK.CLK_TILE_STATE.at t) 6)) ∧
        Does (.autoIdleEntry g d) s g
          (fun S => S.stTile t = 0 ∧ S.tileQuiet t = true ∧ S.rd pgClk (Reg.CLK.CLK_TILE_STATE.at t) ∈ [2, 3])
          (fun S => bankToo (S.setStTile t 1))) ∧
      Does (.autoIdleEntry g d) s g (fun S => S.stTile t ≠ 0 ∨ S.tileQuiet t = false) (fun S => S) ∧
      (∀ down : Seg → Seg, down = (fun S => ((((S.setStTile t v).setAligned t false).wr pgClk (Reg.CLK.CLK_TILE_STATE.at t)
        7).setRamp t 0).followV (quadOf t)) →
       ∀ c, (c, v) ∈ [(Instr.autoDrowsyEntry g d, 2), (.autoRetainEntry g d, 3)] →
        ∀ may : Seg → Prop, may = (fun S => v ≤ S.tgtTile t + 1 ∧ S.stTile t < v ∧ S.tileQuiet t = true) →
        Does c s g (fun S => may S ∧ S.floorHeld t = false ∧ tileBank t = none) down ∧
        Does c s g (fun S => may S ∧ S.floorHeld t = false ∧ tileBank t = some b.val ∧ S.stBank b < v)
          (fun S => (((down S).when (v == 3) (·.writeCanaries b)).modBank b Bank.clearRes).setStBank b v) ∧
        Does c s g (fun S => may S ∧ S.floorHeld t = true) (fun S => S) (fun S u => Counted S u pgPwr 0x898 1) ∧
        Does c s g (fun S => S.tgtTile t + 1 < v ∨ S.tileQuiet t = false) (fun S => S))) ∧
    (d.val = 0x100 + b.val →
      Does (.autoIdleEntry g d) s g (fun S => S.stBank b = 0 ∧ S.bankQuiet b = true) (fun S => S.setStBank b 1) ∧
      ∀ c, (c, v) ∈ [(Instr.autoDrowsyEntry g d, 2), (.autoRetainEntry g d, 3)] →
        Does c s g (fun S => v ≤ S.tgtBank b + 1 ∧ S.stBank b < v ∧ S.bankQuiet b = true ∧ S.feHeld b = false)
          (fun S => ((S.when (v == 3) (·.writeCanaries b)).modBank b Bank.clearRes).setStBank b v) ∧
        Does c s g (fun S => S.tgtBank b + 1 < v ∨ S.bankQuiet b = false) (fun S => S))

/-- A domain that is needed wakes: from IDLE at once, from below through the waking state, which ends the level in force
(R455, R464), each wake counted; a bank wakes its tile with it (R451), and under an OFF tile it stays (R460). Ready, it is
ACTIVE, a bank once its tile is; a bank out of RETAIN checks its canary rows and then scrubs (R336, R337). A rise of WAKE at
an OFF tile only leaves a mark (R462). (The model's readings: logs 34, 101.) -/
def Obligations.DomainsWake : Prop :=
  ∀ (s : State) (g : Fin 4) (d : Fin 1024) (t : Fin 144) (b : Fin 72) (n : Fin 288) (bad : Option (Fin 4)) (hold : Bool),
    (d.val = 0x40 + t.val →
      Does (.domainWake g d) s g (fun S => S.stTile t = 1) (fun S => S.setTilePower t 0)
        (fun S u => Counted S u pgPwr 0x828 1) ∧
      Does (.domainWake g d) s g (fun S => S.stTile t = 2 ∨ S.stTile t = 3 ∨ S.stTile t = 5)
        (fun S => ((((S.setStTile t 6).setAligned t false).wr pgClk (Reg.CLK.CLK_TILE_STATE.at t) 7).followV (quadOf t)).wr
          pgPwr Reg.PWR.PWR_SEG_STAT_LEVEL 0)
        (fun S u => Counted S u pgPwr 0x828 1) ∧
      Does (.domainWakeDone g d bad) s g (fun S => S.stTile t = 6 ∧ S.rd pgClk (Reg.CLK.CLK_TILE_CUR.at t) ≠ 0 ∧
          S.vwaits (quadOf t) = false)
        (fun S => ((({ S with synced := SMap.put false S.synced t false }).setTilePower t 0).codeChange t).bankWithTile t) ∧
      Does (.domainWakeDone g d bad) s g (fun S => S.stTile t ≠ 6 ∨ S.rd pgClk (Reg.CLK.CLK_TILE_CUR.at t) = 0 ∨
          S.vwaits (quadOf t) = true) (fun S => S)) ∧
    (d.val = 0x100 + b.val →
      (∀ tileToo : Seg → Seg, tileToo = (fun S => S.when (sleeps (S.stTile (bankTile b))) (·.tileWakes (bankTile b))) →
        ∀ n : Seg → Nat, n = (fun S => 1 + b2n (sleeps (S.stTile (bankTile b)))) →
        Does (.domainWake g d) s g (fun S => S.stTile (bankTile b) ≠ 4 ∧ (S.stBank b = 2 ∨ S.stBank b = 3 ∨ S.stBank b = 5))
          (fun S => (((tileToo S).modBank b fun x => { x with restoring := S.stBank b == 3 }).setStBank b 6).wr pgPwr
            Reg.PWR.PWR_SEG_STAT_LEVEL 0) (fun S u => Counted S u pgPwr 0x828 (n S)) ∧
        Does (.domainWake g d) s g (fun S => S.stTile (bankTile b) ≠ 4 ∧ S.stBank b = 1)
          (fun S => (tileToo S).setStBank b 0) (fun S u => Counted S u pgPwr 0x828 (n S))) ∧
      Does (.domainWake g d) s g (fun S => S.stTile (bankTile b) = 4 ∨ S.stBank b = 0) (fun S => S) ∧
      Does (.domainWakeDone g d bad) s g (fun S => S.stBank b = 6 ∧ S.stTile (bankTile b) = 0 ∧ (S.bank b).restoring = false) (fun S => S.setStBank b 0) ∧
      Does (.domainWakeDone g d none) s g
        (fun S => S.stBank b = 6 ∧ S.stTile (bankTile b) = 0 ∧ (S.bank b).restoring = true ∧ S.flag (pgBank b) Reg.BANK.EXP_CFG_CANARY_EN = true ∧
          S.canaryFails b = none)
        (fun S => (((S.setStBank b 0).modBank b fun x => { x with restoring := false, wakeRow := some 0, noIdle := 0 }).wr
          (pgBank b) Reg.BANK.BANK_STAT_WAKE_SCRUB 1).bankProgress b)
        (fun S u => Counted S u (pgBank b) 0x8A0 1) ∧
      (∀ row q, bad = some row → Does (.domainWakeDone g d bad) s g
        (fun S => S.stBank b = 6 ∧ S.stTile (bankTile b) = 0 ∧ (S.bank b).restoring = true ∧ S.flag (pgBank b) Reg.BANK.EXP_CFG_CANARY_EN = true ∧
          (S.canaryLost b row).canaryFails b = some q)
        (fun S => (((S.setStBank b 0).canaryLost b row).modBank b fun x => { x with restoring := false }).retentionLost b 1 q 0)
        (fun S u => Counted S u (pgBank b) 0x8A0 1)) ∧
      Does (.domainWakeDone g d bad) s g (fun S => S.stBank b ≠ 6 ∨ S.stTile (bankTile b) ≠ 0) (fun S => S)) ∧
    Does (.agentWake g n hold) s g (fun S => (S.ni n).wake = true) (fun S => S.modNi n fun x => { x with wake := hold }) ∧
    Does (.agentWake g n hold) s g (fun S => (S.ni n).wake = false ∧ S.stTile (n / 2) = 0)
      (fun S => S.modNi n fun x => { x with wake := hold }) ∧
    Does (.agentWake g n hold) s g (fun S => (S.ni n).wake = false ∧ S.stTile (n / 2) = 1)
      (fun S => (S.modNi n fun x => { x with wake := hold }).setTilePower (n / 2) 0) (fun S u => Counted S u pgPwr 0x830 1) ∧
    Does (.agentWake g n hold) s g (fun S => (S.ni n).wake = false ∧ (S.stTile (n / 2) = 2 ∨ S.stTile (n / 2) = 3))
      (fun S => (S.modNi n fun x => { x with wake := hold }).tileWakes (n / 2)) (fun S u => Counted S u pgPwr 0x830 1) ∧
    Does (.agentWake g n hold) s g (fun S => (S.ni n).wake = false ∧ S.stTile (n / 2) = 4)
      (fun S => (S.modNi n fun x => { x with wake := hold }).setBit pgPwr (0x280 + 4 * (n / 32)) (n % 32) true)
      (fun _ u => u.latched pgPwr 13)

/-- A TILE_CMD pair: refused, with what and whom (R459, R468), or accepted: OFF commands ask their voters, WAKE commands start
their tiles or banks (R460, R461). While an entry, another one or a segment-scope kiln run is under way the write is ignored
with LOCK_HIT. The rows of a waking range switch on one by one; the last one, with every tile of the range up, asks for the
map without the range (R461). A finished TILE_CMD shows it and ends (R459). (The model's readings: logs 71, 86.) -/
def Obligations.TileCommands : Prop :=
  (∀ (s : State) (g : Fin 4) (r : Requester) (i : Instr) (first last : Byte) (c : TileCmd) (w : Word),
     (i, c) ∈ [(.tileOff g r first last true, ⟨1, first.toNat, last.toNat, true, 0, 0⟩),
       (.tileOff g r first last false, ⟨1, first.toNat, last.toNat, false, 0, 0⟩),
       (.tileWake g r first last, ⟨2, first.toNat, last.toNat, false, 0, 0⟩),
       (.bankOff g r first last, ⟨3, first.toNat, last.toNat, false, 0, 0⟩),
       (.bankWake g r first last, ⟨4, first.toNat, last.toNat, false, 0, 0⟩)] →
     w = BitVec.ofNat 32 (c.op * 2 ^ 24 + c.last * 2 ^ 16 + c.first * 2 ^ 8 + b2n c.keep) →
     Writes i s g r pgPwr 0x180 (fun S => S.powerBusy = true ∨ S.kiln.run.any (fun r => r.2.1) = true) (fun S => S)
       (fun _ u => u.flag pgPwr Reg.PAGE.PAGE_FLAGS_LOCK_HIT = true) ∧
     (∀ why src, Writes i s g r pgPwr 0x180
       (fun S => S.powerBusy = false ∧ S.kiln.run.all (fun r => !r.2.1) = true ∧ S.tileCheck c = some (why, src))
       (fun S => (S.setWord pgPwr 0x180 w).wr pgPwr Reg.PWR.TILE_STAT_RESULT why)
       (fun S u => Counted S u pgPwr 0x818 1 ∧ u.latched pgPwr 9)) ∧
     (∀ go : Seg → Prop, go = (fun S => S.powerBusy = false ∧ S.kiln.run.all (fun r => !r.2.1) = true ∧ S.tileCheck c = none) →
       ∀ took : Seg → TileCmd → Seg, took = (fun S x => (S.setWord pgPwr 0x180 w).tileAccept x) →
       (c.op = 1 → Writes i s g r pgPwr 0x180 go
         (fun S => (took S c).modCtl fun x =>
           let ts := (cmdRange c.first c.last).filter (fun t => S.stTile t != 4)
           { x with voters := voterList ts (ts.filterMap tileBank), votes := [], prepared := [] })) ∧
       (c.op = 3 → Writes i s g r pgPwr 0x180 go
         (fun S => (took S c).modCtl fun x =>
           { x with voters := voterList [] ((cmdRange c.first c.last).filter (fun b => S.stBank b != 4)), votes := [], prepared := [] })) ∧
       (c.op = 2 → Writes i s g r pgPwr 0x180 go
         (fun S =>
           let on := (cmdRange c.first c.last).filter (fun t => S.stTile t == 4)
           let T := (took S { c with stage := 2 }).modCtl fun x =>
             { x with mapped := true, dormant := if x.mapped then x.dormant else List.range 144 }
           let T := T.each on fun U t => ((U.setStTile t 6).setRamp t (U.effCode t)).levelEnds
           (T.each (List.range 4) fun U q =>
             if (cmdRange c.first c.last).any (fun t => quadOf t == q) then U.followV q else U).tileWakeSupply)) ∧
       (c.op = 4 → Writes i s g r pgPwr 0x180 go
         (fun S =>
           let n := (cmdRange c.first c.last).length
           (((took S { c with stage := 4 }).each (cmdRange c.first c.last) fun U b =>
             (U.tileWakes (bankTile b)).bankReturns b).wr pgPwr Reg.PAGE.PROGRESS_POSITION n).wr pgPwr Reg.PAGE.PROGRESS_PERCENT
               (100 * n / max 1 n))))) ∧
  (∀ (s : State) (g : Fin 4) (c : TileCmd),
     (∀ row : Seg → Seg, row = (fun S => (S.each ((cmdRange c.first c.last).filter (fun t => tileY t == c.row)) Seg.tileUp).tileProgress
         ((cmdRange c.first c.last).filter (fun t => tileY t ≤ c.row)).length (cmdRange c.first c.last).length) →
       Does (.tileWakeRowStep g) s g (fun S => S.ctl.tileCmd = some c ∧ c.op = 2 ∧ c.stage = 3 ∧
           (c.row < c.last / 12 ∨ ∃ t ∈ cmdRange c.first c.last, (row S).stTile t = 4 ∨ (row S).stTile t = 6))
         (fun S => (row S).modCtl fun x => { x with tileCmd := some { c with row := c.row + 1 } }) ∧
       Does (.tileWakeRowStep g) s g (fun S => S.ctl.tileCmd = some c ∧ c.op = 2 ∧ c.stage = 3 ∧
           c.last / 12 ≤ c.row ∧ ∀ t ∈ cmdRange c.first c.last, (row S).stTile t ≠ 4 ∧ (row S).stTile t ≠ 6)
         (fun S => (row S).modCtl fun x =>
           { x with
             tileCmd := some { c with stage := 4 }, wantMap := true
             dormant := x.dormant.filter (fun t => !(cmdRange c.first c.last).contains t) })) ∧
     Does (.tileWakeRowStep g) s g (fun S => S.ctl.tileCmd = none) (fun S => S) ∧
     Does (.tileCmdComplete g) s g
       (fun S => S.ctl.tileCmd = some c ∧ c.stage = 4 ∧ S.ctl.wantMap = false ∧
         ∀ b ∈ (if c.op ≤ 2 then (cmdRange c.first c.last).filterMap tileBank else cmdRange c.first c.last), 
           (S.bank b).zeroing = false ∧ S.stBank b ≠ 6 ∧ (c.op % 2 = 1 ∨ S.stBank b ≠ 4))
       (fun S => ((((S.wr pgPwr Reg.PWR.TILE_STAT_BUSY 0).wr pgPwr Reg.PWR.TILE_STAT_RESULT 1).wr pgPwr
         Reg.PAGE.PROGRESS_BUSY 0).wr pgPwr Reg.PAGE.PROGRESS_PERCENT 100).modCtl fun x =>
           { x with tileCmd := none, voters := [], votes := [] })
       (fun _ u => u.latched pgPwr 12) ∧
     Does (.tileCmdComplete g) s g (fun S => S.ctl.tileCmd = some c ∧ c.stage ≠ 4) (fun S => S))

/-- A segment-wide entry: refused with reason and refuser, or the prepare phase with every domain that is on as a voter, at
level AON each bundle direction of the bridges also (R464, R465). -/
def Obligations.SegmentEntryCommits : Prop :=
  ∀ (s : State) (g : Fin 4) (r : Requester) (i : Instr) (lvl : Nat) (halt : Bool),
    (i, lvl, halt) ∈ [(Instr.segEntryDrowsy g r, 1, false), (.segEntryRetain g r, 2, false), (.segEntryAon g r false, 3, false),
      (.segEntryAon g r true, 3, true)] →
    (∀ why u, Writes i s g r pgPwr 0x100
      (fun S => S.powerBusy = false ∧ S.kiln.run.all (fun r => !r.2.1) = true ∧ S.entryCheck lvl = some (why, u))
      (fun S => (((((S.setWord pgPwr 0x100 (BitVec.ofNat 32 (lvl + 4 * b2n halt))).wr pgPwr Reg.PWR.PWR_REFUSE_VALID 1).wr pgPwr
        Reg.PWR.PWR_REFUSE_REASON why).wr pgPwr Reg.PWR.PWR_REFUSE_LEVEL lvl).wr pgPwr Reg.PWR.PWR_REFUSE_UNIT u).wr pgPwr
        Reg.PWR.PWR_SEG_CMD_LEVEL 0)
      (fun S t => Counted S t pgPwr 0x818 1 ∧ t.latched pgPwr 9)) ∧
    Writes i s g r pgPwr 0x100 (fun S => S.powerBusy = false ∧ S.kiln.run.all (fun r => !r.2.1) = true ∧ S.entryCheck lvl = none)
      (fun S => ((S.setWord pgPwr 0x100 (BitVec.ofNat 32 (lvl + 4 * b2n halt))).wr pgPwr Reg.PWR.PWR_SEG_STAT_PHASE 2).modCtl
        fun x =>
          { x with
            voters := voterList ((List.range 144).filter (fun t => S.stTile t != 4))
              ((List.range 72).filter (fun b => S.stBank b != 4 && (S.stTile (bankTile b) != 4 || lvl == 3))) ++
              (if lvl = 3 then bridgeVoters else [])
            votes := [], prepared := [], halt := halt }) ∧
    Writes i s g r pgPwr 0x100 (fun S => S.powerBusy = true ∨ S.kiln.run.any (fun r => r.2.1) = true) (fun S => S)
      (fun _ t => t.flag pgPwr Reg.PAGE.PAGE_FLAGS_LOCK_HIT = true)

/-- The vote: on PREPARE the units quiesce in order, an NI by injecting no more; a unit that has quiesced votes to commit
where it is quiet, an NI where it holds no store and WAKE is 0, or refuses and says why; another unit that is not quiet
refuses with REASON 6 (R179, R466). Votes collected: a refusal, or a vote still missing at the timeout, aborts the entry with
its reason and the refuser; commit votes from all commit it (R466, R468). Each unit takes the commit by entering the level, or
the abort by resuming, and the last one ends the phase (R179, R464). (The model's readings: logs 34, 86.) -/
def Obligations.UnitsVoteAndCommit : Prop :=
  (∀ (s : State) (g : Fin 4) (u : VoteUnit) (n : Fin 288),
     srcOk u.src = true →
     (∀ turn : Seg → Prop, turn = (fun S => S.voting = true ∧ u.key ∈ S.ctl.voters ∧ u.key ∉ S.ctl.prepared ∧
         ∀ v ∈ S.ctl.voters, quiesceRank v < quiesceRank u.key → v ∈ S.ctl.prepared ∨ S.voteOf v = 8) →
       (u.src.val = srcNi n → Does (.prepareReceive g u) s g turn
         (fun S => (S.modCtl fun x => { x with prepared := u.key :: x.prepared }).modNi n fun x =>
           { x with hold := true, voted := false })) ∧
       (u.src.val < 0x200 → Does (.prepareReceive g u) s g turn
         (fun S => S.modCtl fun x => { x with prepared := u.key :: x.prepared })) ∧
       Does (.prepareReceive g u) s g (fun S => S.voting = false ∨ u.key ∉ S.ctl.voters ∨ u.key ∈ S.ctl.prepared ∨
         ∃ v ∈ S.ctl.voters, quiesceRank v < quiesceRank u.key ∧ v ∉ S.ctl.prepared ∧ S.voteOf v ≠ 8) (fun S => S)) ∧
     (∀ asked : Seg → Prop, asked = (fun S => S.voting = true ∧ u.key ∈ S.ctl.voters ∧ u.key ∈ S.ctl.prepared) →
       (u.src.val = srcNi n →
         Does (.sleepVote g u) s g
           (fun S => asked S ∧ (S.ni n).hold = true ∧ (S.ni n).stores = [] ∧ (S.ni n).wake = false)
           (fun S => ((S.vote u.key 8).modNi n fun x => { x with voted := true }).wr (pgNi n) Reg.NI.SLEEP_STAT_REFUSED 0) ∧
         Does (.sleepVote g u) s g
           (fun S => asked S ∧ ((S.ni n).hold = false ∨ (S.ni n).stores ≠ [] ∨ (S.ni n).wake = true)) (fun S => S)) ∧
       (u.src.val < 0x200 →
         Does (.sleepVote g u) s g asked (fun S => S.vote u.key (if S.canCommit u.key then 8 else 6))) ∧
       Does (.sleepVote g u) s g (fun S => S.voting = false ∨ u.key ∉ S.ctl.voters ∨ u.key ∉ S.ctl.prepared) (fun S => S)) ∧
     Does (.niSleepRefuse g n) s g
       (fun S => S.voting = true ∧ srcNi n ∈ S.ctl.voters ∧ srcNi n ∈ S.ctl.prepared ∧ (S.ni n).voted = false ∧
         ((S.ni n).stores ≠ [] ∨ (S.ni n).wake = true))
       (fun S => ((S.vote (srcNi n) (if (S.ni n).stores.isEmpty then 5 else 4)).wr (pgNi n) Reg.NI.SLEEP_STAT_REFUSED 1).wr
         (pgNi n) Reg.NI.SLEEP_STAT_REASON (b2n (!(S.ni n).stores.isEmpty) + 2 * b2n (S.ni n).wake))
       (fun S t => Counted S t (pgNi n) 0xA68 1 ∧ t.latched (pgNi n) 17) ∧
     Does (.niSleepRefuse g n) s g (fun S => S.voting = false) (fun S => S)) ∧
  (∀ (s : State) (g : Fin 4) (u : VoteUnit) (n : Fin 288) (why who : Nat),
     srcOk u.src = true →
     (∀ stop : Seg → Seg, stop = (fun S => ((((((S.wr pgPwr Reg.PWR.PWR_REFUSE_VALID 1).wr pgPwr Reg.PWR.PWR_REFUSE_REASON why).wr
         pgPwr Reg.PWR.PWR_REFUSE_LEVEL (S.rd pgPwr Reg.PWR.PWR_SEG_CMD_LEVEL)).wr pgPwr Reg.PWR.PWR_REFUSE_UNIT (voterSrc who)).wr pgPwr
         Reg.PWR.PWR_SEG_STAT_PHASE 4).wr pgPwr Reg.PWR.PWR_SEG_CMD_LEVEL 0).modCtl fun c =>
           { c with votes := [], prepared := [], halt := false }) →
       ∀ asked : Seg → Prop, asked = (fun S => S.rd pgPwr Reg.PWR.PWR_SEG_STAT_PHASE = 2 ∧ S.ctl.tileCmd = none) →
       Does (.voteCollect g) s g
         (fun S => asked S ∧ S.ctl.voters.find? (fun x => S.voteOf x != 8 && S.voteOf x != 0) = some who ∧ why = S.voteOf who)
         stop (fun S t => Counted S t pgPwr 0x820 1 ∧ t.latched pgPwr 10) ∧
       Does (.voteTimeout g) s g
         (fun S => asked S ∧ S.ctl.voters.find? (fun x => S.voteOf x != 8) = some who ∧
           why = if S.voteOf who = 0 then 7 else S.voteOf who)
         stop (fun S t => Counted S t pgPwr 0x820 1 ∧ t.latched pgPwr 10) ∧
       ∀ commits : Seg → Seg, commits = (fun S => (S.wr pgPwr Reg.PWR.PWR_SEG_STAT_PHASE 3).when
           (S.rd pgPwr Reg.PWR.PWR_SEG_CMD_LEVEL == 3) (·.modCtl fun c => { c with wantMap := true, dormant := List.range 144 })) →
       ∀ ends : Seg → Seg, ends = (fun S => ((S.wr pgPwr Reg.PWR.PWR_SEG_STAT_PHASE 0).wr pgPwr Reg.PWR.PWR_SEG_STAT_LEVEL
           (S.rd pgPwr Reg.PWR.PWR_SEG_CMD_LEVEL)).wr pgPwr Reg.PWR.PWR_SEG_CMD_LEVEL 0) →
       Does (.voteCollect g) s g (fun S => asked S ∧ S.ctl.voters ≠ [] ∧ ∀ x ∈ S.ctl.voters, S.voteOf x = 8) commits
         (fun _ t => t.latched pgPwr 8) ∧
       Does (.voteCollect g) s g (fun S => asked S ∧ S.ctl.voters = []) (fun S => ends (commits S)) (fun _ t => t.latched pgPwr 8) ∧
       (∀ enters : Seg → Seg, enters = (fun S => (if u.src.val < 0x200 then S.enterLevel u.key (S.rd pgPwr Reg.PWR.PWR_SEG_CMD_LEVEL)
             else S.modNi (u.src - 0x200) fun x => { x with hold := false }).modCtl fun x => { x with voters := x.voters.erase u.key }) →
         Does (.commitReceive g u) s g
           (fun S => S.rd pgPwr Reg.PWR.PWR_SEG_STAT_PHASE = 3 ∧ u.key ∈ S.ctl.voters ∧ S.ctl.voters ≠ [u.key]) enters ∧
         Does (.commitReceive g u) s g (fun S => S.rd pgPwr Reg.PWR.PWR_SEG_STAT_PHASE = 3 ∧ S.ctl.voters = [u.key])
           (fun S => (((enters S).wr pgPwr Reg.PWR.PWR_SEG_STAT_PHASE 0).wr pgPwr Reg.PWR.PWR_SEG_STAT_LEVEL
             (S.rd pgPwr Reg.PWR.PWR_SEG_CMD_LEVEL)).wr pgPwr Reg.PWR.PWR_SEG_CMD_LEVEL 0)) ∧
       (∀ resumes : Seg → Seg, resumes = (fun S => (S.when (decide (0x200 ≤ u.src.val)) (·.modNi (u.src - 0x200) fun x =>
             { x with hold := false, voted := false })).modCtl fun x => { x with voters := x.voters.erase u.key }) →
         ∀ turn : Seg → Prop, turn = (fun S => S.rd pgPwr Reg.PWR.PWR_SEG_STAT_PHASE ≠ 3 ∧ S.voting = false ∧ u.key ∈ S.ctl.voters ∧
           ∀ v ∈ S.ctl.voters, quiesceRank v ≤ quiesceRank u.key) →
         Does (.abortReceive g u) s g (fun S => turn S ∧ S.ctl.voters ≠ [u.key]) resumes ∧
         Does (.abortReceive g u) s g (fun S => turn S ∧ S.ctl.voters = [u.key])
           (fun S => (resumes S).wr pgPwr Reg.PWR.PWR_SEG_STAT_PHASE 0) ∧
         Does (.abortReceive g u) s g (fun S => ∃ v ∈ S.ctl.voters, quiesceRank u.key < quiesceRank v) (fun S => S))))

/-- The AON regulator's halt and return (R470, R481), a loss of page SRAM (R472), the step of the power cap (R473), whose
estimate adds the static power, a free value, to that of the energy spent (log 6), and the residency sample (R476). (The
model's readings: log 6.) -/
def Obligations.RegulatorCapAndResidency : Prop :=
  ∀ (s : State) (g : Fin 4),
    Does (.aonHalt g) s g
      (fun S => S.ctl.halt = true ∧ S.ctl.halted = false ∧ S.rd pgPwr Reg.PWR.PWR_SEG_STAT_LEVEL = 3 ∧
        (∀ t : Fin 144, S.stTile t = 4) ∧ (∀ b : Fin 72, S.stBank b = 4) ∧
        (∀ (b : Fin 2) (n : Fin 24), S.bunTx b n ∈ [0, 4, 5] ∧ S.bunRx b n ∈ [0, 4, 5]) ∧ ∀ n : Fin 8, S.bayState n ∉ [2, 3, 4, 5, 6, 9])
      (fun S => { S with mp := {}, ctl := { S.ctl with halted := true, lowPower := true } }) ∧
    Does (.aonHalt g) s g (fun S => S.ctl.halt = false ∨ S.rd pgPwr Reg.PWR.PWR_SEG_STAT_LEVEL ≠ 3) (fun S => S) ∧
    Does (.regulatorFullModeReturn g) s g (fun S => S.ctl.lowPower = true)
      (fun S => { S with
        mp := { S.mp with ready := true }
        ctl := { S.ctl with halted := false, halt := false, lowPower := false } }) (fun _ t => t.latched pgPwr 17) ∧
    (∀ lost : Seg → List Nat × List Nat, lost = (fun S =>
        ((List.range 144).filter (fun t => S.stTile t != 4), (List.range 72).filter (fun b => S.stBank b != 4))) →
      Does (.pgSramLoss g) s g (fun S => lost S ≠ ([], []))
        (fun S => ((S.markLost ((lost S).1.map srcRt ++ (lost S).2.map srcBank)).each (lost S).1 fun U t =>
          ((U.clearTilePages t).freqLock t).codeChange t).each (List.range 4) Seg.followV)
        (fun S t => Counted S t pgPwr 0x860 ((lost S).1.length + (lost S).2.length) ∧ t.latched pgPwr 14 ∧ t.latched pgPwr 18) ∧
      Does (.pgSramLoss g) s g (fun S => lost S = ([], [])) (fun S => S)) ∧
    (∀ now : Seg → Nat, now = (fun S => S.staticPower + S.ctl.spent / 10000) →
      ∀ window : Seg → List Nat, window = (fun S =>
        (now S :: S.ctl.estimates).take (max 1 (max 1 (S.rd pgPwr Reg.PWR.PWR_EXP2_AVG) * 4096 / 12000))) →
      ∀ est : Seg → Nat, est = (fun S => (window S).sum / (window S).length / 1000) →
      ∀ sampled : Seg → Seg, sampled = (fun S => (S.modCtl fun x =>
        { x with spent := 0, estimates := window S, energyRest := (S.ctl.energyRest + now S) % 100000 }).wr pgPwr
          Reg.PWR.PWR_EST_EST (min 255 (est S / 250))) →
      ∀ budget : Seg → Nat, budget = (fun S =>
        max 40 (min 120 (S.rd pgPwr Reg.PWR.PWR_CAP_CAP_W)) * S.rd pgPwr Reg.PWR.PWR_CAP_SHARE * 1000 / 16) →
      ∀ code : Seg → Nat, code = (fun S =>
        let c := S.rd pgPwr Reg.PWR.PWR_EST_CAPCODE
        if budget S < est S ∧ 12 < c then c - 1 else if est S * 100 < budget S * 95 ∧ c < 48 then c + 1 else c) →
      Does (.powerCapStep g) s g
        (fun S => S.ctl.halted = false ∧ S.flag pgPwr Reg.PWR.PWR_CAP_CAP_EN = true ∧ S.mismatched pgPwr 0x110 = false)
        (fun S =>
          let T := ((sampled S).wr pgPwr Reg.PWR.PWR_EST_CAPCODE (code S)).wr pgPwr Reg.PWR.PWR_EST_LIMITING
            (b2n (decide (code S < 48)))
          let T := if code S = S.rd pgPwr Reg.PWR.PWR_EST_CAPCODE then T else T.limitsMoved (List.range 144)
          T.wr pgPwr Reg.PWR.PWR_EST_UNMET (b2n (decide (budget S < est S) && code S == 12)))
        (fun S t => Counted S t pgPwr 0x8A0 ((S.ctl.energyRest + now S) / 100000) ∧
          (code S ≠ S.rd pgPwr Reg.PWR.PWR_EST_CAPCODE → Counted S t pgPwr 0x890 1)) ∧
      Does (.powerCapStep g) s g (fun S => S.ctl.halted = false ∧ S.flag pgPwr Reg.PWR.PWR_CAP_CAP_EN = false) sampled) ∧
    Does (.powerCapStep g) s g (fun S => S.ctl.halted = true) (fun S => S) ∧
    Does (.residencySample g) s g (fun S => S.ctl.halted = false) (fun S => S)
      (fun S t => ∀ v, v < 5 → Counted S t pgPwr (0x868 + 8 * v) ((List.range 144).filter (fun t => S.stTile t == v)).length)

/-- A descriptor on RQ: a FENCE enters the header store (R165); a request whose lookup succeeds enters it with what the lookup
gives (R108, R128), one that fails completes with its code; one with a parity error completes POISON (R69). The record of the
last LDRES completion is passed (R173). A beat makes an IDLE tile ACTIVE (R453). A draining NI takes none (R149), nor does one
whose UP is 0. (The model's readings: log 38.) -/
def Obligations.RequestDescriptors : Prop :=
  ∀ (s : State) (g : Fin 4) (n : Fin 288) (data : BitVec 1024) (par : BitVec 16) (h : Hdr), h = Hdr.ofBits (data.truncate 256) →
    ∀ taken : Seg → Prop, taken = (fun S => (S.ni n).up = true ∧ (S.ni n).resetting = false ∧ S.niDraining n = false) →
    ∀ base : Seg → Seg, base = (fun S => { S.beatIn n with order := S.order + 1 }) →
    ∀ ok : Prop, ok = (parityOk 16 data.toNat par.toNat = true) →
    Does (.rqBeat g n data par) s g (fun S => taken S ∧ ok ∧ h.type = tFence)
      (fun S => (base S).modNi n fun x => Ni.enter { x with ldAt := none }
        { id := 0, hdr := h.agentPart, phase := .fence, since := S.unitTime n, ord := S.order + 1 }) ∧
    Does (.rqBeat g n data par) s g
      (fun S => taken S ∧ ok ∧ h.type.toNat < 0xA ∧ h.type ∉ [tFence, tStcond, tCpl] ∧ S.lookupCode n h = cOk ∧
        0 < wdBeats h.type h.len.toNat ∧ (S.ni n).wd = [])
      (fun S => (base S).modNi n fun x => Ni.enter (Ni.launched { x with ldAt := none } (h.dest.truncate 8))
        { id := 0, hdr := S.stamped n h false, imm := data.extractLsb' 256 768, need := wdBeats h.type h.len.toNat,
          bind := h.dest.truncate 8, alt := bindAlt (S.bindEntry n h), altEn := bindHasAlt (S.bindEntry n h),
          bindClass := bindClassOf (S.bindEntry n h), phase := .data, since := S.unitTime n
          ord := S.order + 1 }) ∧
    Does (.rqBeat g n data par) s g
      (fun S => taken S ∧ ok ∧ h.type.toNat < 0xA ∧ h.type ∉ [tFence, tStcond, tCpl] ∧ S.lookupCode n h ≠ cOk ∧
        wdBeats h.type h.len.toNat = 0)
      (fun S => (base S).modNi n fun x =>
        { x with ldAt := none, rs := x.rs ++ [cplBeat (S.eid n) (S.eid n) h.tag (S.lookupCode n h)] }) ∧
    Does (.rqBeat g n data par) s g (fun S => taken S ∧ ¬ ok ∧ wdBeats h.type h.len.toNat = 0)
      (fun S => (S.beatIn n).modNi n fun x => { x with ldAt := none, rs := x.rs ++ [cplBeat (S.eid n) (S.eid n) h.tag cPoison] })
      (fun S t => Counted S t (pgNi n) 0x860 1 ∧ t.latched (pgNi n) 8) ∧
    Does (.rqBeat g n data par) s g
      (fun S => (S.ni n).up = false ∨ (S.ni n).resetting = true ∨ S.niDraining n = true ∧ h.type ≠ tCpl) (fun S => S)

/-- Beats on WD, SR and MG gather until LAST, a parity error marking the beat (R69). With its burst an answer may go (R125); a
snoop is looked up and may go at once (R107, R128); a register access is stamped and sent (R54, R114), one at a time (R210). A
descriptor whose burst does not come raises an event (R119). (The model's readings: logs 38, 41, 127.) -/
def Obligations.InputBeats : Prop :=
  ∀ (s : State) (g : Fin 4) (n : Fin 288),
    (∀ taken : Seg → Prop, taken = (fun S => (S.ni n).up = true ∧ (S.ni n).resetting = false ∧ S.niDraining n = false) →
      (∀ (data : BitVec 1024) (par : BitVec 16) (bad : Bool), bad = !parityOk 16 data.toNat par.toNat →
        Does (.wdBeat g n data par false) s g (fun S => taken S ∧ ∀ b ∈ (S.ni n).wd, b.2 = false)
          (fun S => (S.beatIn n).modNi n fun x => { x with wd := x.wd ++ [(⟨data, bad⟩, false)] })
          (fun S t => bad = true → Counted S t (pgNi n) 0x860 1 ∧ t.latched (pgNi n) 8) ∧
        ∀ e : Entry, Does (.wdBeat g n data par true) s g
          (fun S => taken S ∧ bad = false ∧ (S.ni n).wd = [] ∧ (S.ni n).store.find? (fun e => e.phase == .data) = some e ∧
            e.answer = true ∧ e.dead = false ∧ e.need = 1)
          (fun S => (S.beatIn n).modEntry n e.id fun f => { f with data := [⟨data, false⟩], phase := .eligible, since := S.unitTime n })) ∧
      (∀ (data : BitVec 256) (par : BitVec 4) (bad : Bool) (h : Hdr), bad = !parityOk 4 data.toNat par.toNat → h = Hdr.ofBits data →
        Does (.srBeat g n data par false) s g taken (fun S => (S.beatIn n).modNi n fun x => { x with sr := x.sr ++ [(data, bad)] })
          (fun S t => bad = true → Counted S t (pgNi n) 0x860 1 ∧ t.latched (pgNi n) 8) ∧
        Does (.srBeat g n data par true) s g
          (fun S => taken S ∧ bad = false ∧ (S.ni n).sr = [] ∧ (h.type = tSnoop ∨ h.type = tBackInval) ∧ S.lookupCode n h = cOk)
          (fun S => (S.beatIn n).modNi n fun x => Ni.enter (Ni.launched { x with sr := [] } (h.dest.truncate 8))
            { id := 0, hdr := { S.stamped n h true with yellow := false, poison := h.poison }, bind := h.dest.truncate 8,
              alt := bindAlt (S.bindEntry n h), altEn := bindHasAlt (S.bindEntry n h), bindClass := (S.stamped n h true).cls
              phase := .eligible, since := S.unitTime n }))) ∧
    (∀ (data : BitVec 64) (par bad : Bool), bad = !parityOk 1 data.toNat (b2n par) →
      Does (.mgInputBeat g n data par false) s g
        (fun S => (S.ni n).up = true ∧ (S.ni n).resetting = false ∧ ((S.ni n).mgIn ≠ [] ∨ (S.ni n).regacc = none))
        (fun S => (S.beatIn n).modNi n fun x => { x with mgIn := x.mgIn ++ [(data, bad)] })
        (fun S t => bad = true → Counted S t (pgNi n) 0x860 1 ∧ t.latched (pgNi n) 8) ∧
      (∀ last, Does (.mgInputBeat g n data par last) s g
        (fun S => (S.ni n).mgIn = [] ∧ (S.ni n).regacc.isSome = true ∧ (MgtHdr.ofBits data 0).type = tRegacc) (fun S => S)) ∧
      ∀ (first : BitVec 64) (h : Seg → MgtHdr), h = (fun S => { MgtHdr.ofBits first (S.siteDom n) with
          src := S.eid n, fab := false, epoch := (S.ni n).epoch, domBad := S.mismatched pgTen (0x100 + 8 * (n.val / 4)) }) →
        Does (.mgInputBeat g n data par true) s g
          (fun S => (S.ni n).up = true ∧ (S.ni n).resetting = false ∧ bad = false ∧ (S.ni n).mgIn = [(first, false)] ∧
            (h S).type = tRegacc ∧ S.mgtDestOk n (h S).dest = true)
          (fun S => ((S.beatIn n).modNi n fun x =>
            { x with mgIn := [], regacc := some (h S).tag, regaccRd := !data.getLsbD 34 }).injectMgt n (h S) [data])
          (fun S t => Counted S t (pgNi n) 0x800 1)) ∧
    Does (.wdStallTimeout g n) s g
      (fun S => S.niRuns n = true ∧ (S.ni n).wd = [] ∧ ∃ e ∈ (S.ni n).store, e.phase = .data) (fun S => S)
      (fun _ t => t.latched (pgNi n) 14) ∧
    Does (.wdStallTimeout g n) s g (fun S => S.niRuns n = false ∨ ∀ e ∈ (S.ni n).store, e.phase ≠ .data) (fun S => S)

/-- The agent takes the first beat that waits on RS, SN or MG, where UP is 1: a packet's last beat delivers it, and its
acknowledgement becomes due once every earlier packet of its source and plane is delivered (R123, R133); the last beat of an
LDRES completion is remembered (R173). The CPL with which an NI reset answers a fence counts when it is taken (R177, R181,
R182); one that the NI made itself is no packet delivered (R151). -/
def Obligations.AgentTakesBeats : Prop :=
  ∀ (s : State) (g : Fin 4) (n : Fin 288) (b : Beat) (rest : List Beat) (src : BitVec 12) (key : Nat) (seq : BitVec 16),
    (∀ (c : Instr) (q : Ni → List Beat) (set : Ni → List Beat → Ni),
      (c = .rsBeatTaken g n ∧ q = Ni.rs ∧ set = fun x l => { x with rs := l }) ∨
      (c = .snBeatTaken g n ∧ q = Ni.sn ∧ set = fun x l => { x with sn := l }) →
      ∀ front : Seg → Prop, front = (fun S => (S.ni n).up = true ∧ q (S.ni n) = b :: rest ∧ (S.ni n).wait = []) →
      Does c s g (fun S => front S ∧ b.deliv = none ∧ b.fence = false)
        (fun S => S.modNi n fun x => { set x rest with ldAt := if b.ld then some (S.unitTime n) else x.ldAt }) ∧
      Does c s g
        (fun S => front S ∧ b.deliv = some (src, key, seq) ∧ b.old = false ∧ b.fence = false ∧ b.ld = false ∧
          ((S.ep n).recvOf src key).ahead = [] ∧ seq = ((S.ep n).recvOf src key).del + 1 ∧
          ((S.ep n).recvOf src key).owed + 1 < S.ackEvery n)
        (fun S =>
          let r := (S.ep n).recvOf src key
          (S.modNi n fun x => set x rest).modEp n fun e => e.setRecv src key
            { r with
              del := seq, owed := r.owed + 1, oldest := if r.owed = 0 then S.unitTime n else r.oldest
              noGrant := r.noGrant || b.noGrant })
        (fun S t => Counted S t (pgNi n) 0x808 1) ∧
      Does c s g
        (fun S => front S ∧ b.deliv = some (src, key, seq) ∧ b.old = false ∧ b.fence = false ∧ b.ld = false ∧
          ((S.ep n).recvOf src key).ahead = [] ∧ seq ≠ ((S.ep n).recvOf src key).del + 1 ∧
          ((S.ep n).recvOf src key).owed < S.ackEvery n)
        (fun S => (S.modNi n fun x => set x rest).modEp n fun e => e.setRecv src key
          { (S.ep n).recvOf src key with ahead := [(seq, b.noGrant)] })
        (fun S t => Counted S t (pgNi n) 0x808 1) ∧
      Does c s g (fun S => front S ∧ b.deliv = none ∧ b.fence = true ∧ b.ld = false)
        (fun S => S.modNi n fun x => set x rest)
        (fun S t => Counted S t (pgNi n) 0xA20 1 ∧ Counted S t (pgNi n) 0xA28 1 ∧ t.latched (pgNi n) 18) ∧
      Does c s g (fun S => (S.ni n).up = false ∨ q (S.ni n) = []) (fun S => S)) ∧
    (∀ (w : MgBeat) rest, Does (.mgOutputTaken g n) s g (fun S => (S.ni n).up = true ∧ (S.ni n).mgOut = w :: rest)
      (fun S => S.modNi n fun x => { x with mgOut := rest })
      (fun S t => Counted S t (pgNi n) 0x808 (if w.last ∧ w.own = false then 1 else 0))) ∧
    Does (.mgOutputTaken g n) s g (fun S => (S.ni n).up = false ∨ (S.ni n).mgOut = []) (fun S => S)

/-- UP falls when the agent's clock stops or its reset is asserted; the reset discards what has come only in part and counts
it (R71, R72, R176). UP rises where R73 allows it, with the credit beats ahead of what waits (R121). (The model's readings:
logs 33, 41.) -/
def Obligations.AgentClockResetAndUp : Prop :=
  ∀ (s : State) (g : Fin 4) (n : Fin 288),
    Does (.agentClockStop g n) s g (fun S => (S.ni n).clk = true) (fun S => S.modNi n fun x => { x with clk := false })
      (fun S t => (t.ni n).up = false ∧ (S.enabled (pgNi n) = true → t.latched (pgNi n) 15)) ∧
    Does (.agentClockStop g n) s g (fun S => (S.ni n).clk = false) (fun S => S) ∧
    Does (.agentClockReturn g n) s g (fun _ => True) (fun S => S.modNi n fun x => { x with clk := true }) ∧
    (∀ part : Ni → List Entry, part = (fun x => x.store.filter (fun e => e.phase == .data && !e.dead)) →
      Does (.agentResetAssert g n) s g (fun S => (S.ni n).arstN = true)
        (fun S => S.modNi n fun x => ((part x).filter (fun e => !e.answer)).foldl (fun y e => y.landed e.bind)
          { x with arstN := false, wd := [], sr := [], mgIn := [], store := x.store.filter (fun e => e.phase != .data) })
        (fun S t => (t.ni n).up = false ∧ Counted S t (pgNi n) 0x890 (((part (S.ni n)).filter (fun e => !e.answer)).length +
          b2n ((S.ni n).wd != [] && ((S.ni n).store.filter (fun e => e.phase == .data)).isEmpty)))) ∧
    Does (.agentResetAssert g n) s g (fun S => (S.ni n).arstN = false) (fun S => S) ∧
    Does (.agentResetRelease g n) s g (fun _ => True) (fun S => S.modNi n fun x => { x with arstN := true }) ∧
    Does (.apUpRise g n) s g
      (fun S => (S.ni n).up = false ∧ (S.ni n).resetting = false ∧ S.upAllowed n (S.ni n) = true ∧ (S.ni n).wait = [])
      (fun S => S.modNi n fun x =>
        { x with
          up := true, retReq := 0, retWd := 0, retTun := 0, retSnp := 0, rs := (S.initialBeats n).1 :: x.rs
          sn := (S.initialBeats n).2 :: x.sn }) (fun _ t => (t.ni n).up = true) ∧
    Does (.apUpRise g n) s g (fun S => (S.ni n).up = true ∨ S.upAllowed n (S.ni n) = false) (fun S => S)

/-- An NI reset through NI_RST keeps clock, reset, binding and map, discards the rest and starts every sequence afresh; where
UP is 1 it answers every open fence with RETRYLOST behind the beats the agent already sees (R68, R177, R536), and a fence's
CPL that is dropped leaves its report to the next (R166); it ends, and RESET with it. A draining NI's inbound requests are
released (R149). A probe shows a flow's place in the cache (R311). A REGACC taken from the controller's arrivals runs as the
register access it spells, its requester the source with the domain stamped on it, its answer a CPL with its tag (R22, R114,
R210); with PAIR, a whole guarded pair (R45). (The model's readings: logs 14, 33, 107, 110.) -/
def Obligations.NiRowsAndRegacc : Prop :=
  (∀ (s : State) (g : Fin 4) (r : Requester) (n : Fin 288) (idx : BitVec 18),
     Writes (.niReset g r n) s g r (pgNi n) 0x220
       (fun S => (S.ni n).resetting = false ∧ (∀ e ∈ (S.ep n).recv, e.2.owed = 0) ∧ (S.ni n).stores = [])
       (fun S =>
         let x := S.ni n
         let fences := x.store.filter (fun e => e.phase == .fence)
         let answer := x.up && !fences.isEmpty
         let unsent := if answer then x.rs.drop 1 else x.rs
         let T := (S.wr (pgNi n) Reg.NI.NI_RST_RESET 1).setNi n
           { clk := x.clk, arstN := x.arstN, wake := x.wake, up := x.up, bind := x.bind, epoch := x.epoch, ringVer := x.ringVer,
             hold := x.hold, voted := x.voted, nextId := x.nextId, resetting := true,
             demDests := x.demDests
             rs := if answer then heldBeat x.rs ++ fences.map fun f =>
                 { cplBeat (S.eid n) (S.eid n) f.hdr.tag cRetrylost with fence := true, lost := true } else []
             sn := if answer then heldBeat x.sn else []
             mgOut := if answer then x.mgOut.take 1 else []
             fenceRefused := (x.fenceRefused || unsent.any (·.refused)) && !answer
             fenceLost := !answer && (x.fenceLost || unsent.any (·.lost) || !fences.isEmpty) }
         ((((T.setEp n { rxLost := true, txFresh := true }).wr (pgNi n) Reg.NI.NI_RES_STAT_VALID 0).wr (pgNi n)
           Reg.NI.NI_RES_STAT_DEST 0).setWord (pgNi n) 0x20C 0).setWord (pgNi n) 0x210 0)
       (fun S t => Counted S t (pgNi n) 0xA60 1) ∧
     Does (.niResetComplete g n) s g (fun S => (S.ni n).resetting = true)
       (fun S => (S.modNi n fun x =>
         { x with
           resetting := false, rs := [], sn := [], mgOut := [], fenceLost := x.fenceLost || x.rs.any (·.lost)
           fenceRefused := x.fenceRefused || x.rs.any (·.refused)
           up := false }).wr (pgNi n) Reg.NI.NI_RST_RESET 0) ∧
     Does (.niResetComplete g n) s g (fun S => (S.ni n).resetting = false) (fun S => S) ∧
     Does (.niDrainRelease g n) s g (fun S => S.niDraining n = true) (fun S => S.modNi n fun x => { x with inb := [] }) ∧
     Does (.niDrainRelease g n) s g (fun S => S.niDraining n = false) (fun S => S) ∧
     (∀ w, Writes (.probeLookup g r n idx) s g r (pgNi n) 0x288
       (fun S => (S.ni n).way idx.toNat = some w ∧ w.fetch = false)
       (fun S =>
         let q := (S.ni n).qcount idx.toNat
         (((S.wr (pgNi n) Reg.NI.PROBE_IDX idx.toNat).setWord (pgNi n) 0x28C
           (putFields 0 [(Reg.NI.PROBE_STAT_HIT, 1), (Reg.NI.PROBE_STAT_DIRTY, b2n w.dirty),
             (Reg.NI.PROBE_STAT_UNAVAIL, b2n w.unavail), (Reg.NI.PROBE_STAT_QCOUNT, q)])).setWord64 (pgNi n) 0x290
           ((w.toBank q).truncate 64)).setWord64 (pgNi n) 0x298 ((w.toBank q >>> 64).truncate 64))) ∧
     Writes (.probeLookup g r n idx) s g r (pgNi n) 0x288 (fun S => (S.ni n).way idx.toNat = none)
       (fun S => (S.wr (pgNi n) Reg.NI.PROBE_IDX idx.toNat).setWord (pgNi n) 0x28C
         (putFields 0 [(Reg.NI.PROBE_STAT_QCOUNT, (S.ni n).qcount idx.toNat)]))) ∧
  (∀ (s : State) (g : Fin 4) (src : BitVec 12) (k : Nat) (h : MgtHdr) (fs rest : List Flit) (a0 : BitVec 64),
     ∀ sound : Seg → Prop, sound = (fun S => S.regaccOf src = some (k, h, fs, rest) ∧ S.mp.ready = true ∧ h.glazeOk = true ∧
       h.poison = false ∧ (∀ f ∈ fs, f.poison = false ∧ f.trunc = false ∧ f.upset ≠ 2) ∧ S.reachable h.src = true ∧
       (wordsOf fs)[0]? = some a0) →
     ∀ a : Access, a = {
         req := .agent h.src h.dom, wr := a0.getLsbD 34, size := a0.extractLsb' 32 2, addr := a0.truncate 32
         data := ((wordsOf fs)[1]?).getD 0, pair := a0.getLsbD 35, cpl := some h.tag, badDom := h.domBad } →
     Does (.regaccReceive g src) s g (fun S => sound S ∧ (a.pair = true → a.wr = true ∧ a.size = 2))
       (fun S => (S.mgtTaken 0x3F0 k rest).submit a) ∧
     Does (.regaccSinglePacketPair g src) s g (fun S => sound S ∧ a.pair = true ∧ a.wr = true ∧ a.size = 2)
       (fun S => (S.mgtTaken 0x3F0 k rest).submit a) ∧
     Does (.regaccReceive g src) s g (fun S => S.regaccOf src = none ∨ S.mp.ready = false) (fun S => S) ∧
     Does (.regaccSinglePacketPair g src) s g (fun S => S.regaccOf src = none ∨ S.mp.ready = false) (fun S => S))

/-- An eligible READ, alone at its NI, is numbered, kept until it is acknowledged, and injected (R132, R140, R156); a C1
packet's copy goes into VC3 on its path, the second one also after the first was acknowledged (R138, R254). A fence is
answered once no earlier access is left, with what was lost or refused (R165, R166). (The model's readings: logs 49, 112.) -/
def Obligations.PacketsLeaveAnNi : Prop :=
  ∀ (s : State) (g : Fin 4) (n : Fin 288) (e : Entry) (path : Bool) (p : Packet) (o : Nat) (tag : Nat),
    Does (.requestInject g n .req) s g
      (fun S => S.niRuns n = true ∧ (S.ni n).store = [e] ∧ e.access = true ∧ e.hdr.type = tRead ∧ e.hdr.cls ≠ 1 ∧
        S.canInject n .req e = true ∧ S.noTarget n e = false ∧ S.overlapWaits n e = false)
      (fun S =>
        let T := S.number n e.hdr.dest (e.packet .req) (some e.id) e.altDest
        (T.1.modEntry n e.id fun f =>
          { f with
            phase := .sent, path0 := false, path1 := false, slots := rspSlots f.hdr.type f.hdr.len.toNat
            since := S.unitTime n }).injectPkt n (S.injectVc n T.2.plane T.2.hdr) T.2)
      (fun S t => Counted S t (pgNi n) 0x800 1) ∧
    (∀ pl, Does (.requestInject g n pl) s g
      (fun S => S.niRuns n = false ∨ ∀ f ∈ (S.ni n).store, f.phase ≠ .queued ∧ f.phase ≠ .eligible) (fun S => S)) ∧
    Does (.c1CopyRelease g n path) s g
      (fun S => S.niRuns n = true ∧ (S.ni n).store = [e] ∧ (S.ni n).late = [] ∧ e.phase = .copies ∧ (if path then e.path1 else e.path0) = false ∧
        S.sentAs n e = some p ∧ S.copyStart n e path < 512 ∧ S.goesC1 n e = true ∧ S.copyBlocked n e path = false ∧
        S.firstHop n e path = some o ∧ S.tagFor (n.val / 2) e.plane.code o e.hdr.fid path = .inl tag ∧ S.copyTurn n e = true ∧
        ((if path then e.path0 else e.path1) = true ∨ S.copyStart n e path ≤ S.copyStart n e (!path)))
      (fun S => ((S.modEp n fun x => x.setSend e.hdr.dest e.plane.code { S.sendFor n e with c1 := some true }).injectPkt n 3 { p with hdr := { p.hdr with path := path } }).modEntry n e.id fun f =>
        let f := if path then { f with path1 := true } else { f with path0 := true }
        if f.path0 && f.path1 then { f with phase := .sent } else f) ∧
    Does (.c1CopyRelease g n path) s g
      (fun S => S.niRuns n = true ∧ (S.ni n).store = [] ∧ (S.ni n).late = [(e, p)] ∧ e.phase = .copies ∧
        (if path then e.path1 else e.path0) = false ∧ (if path then e.path0 else e.path1) = true ∧
        (∀ u ∈ (S.sendFor n e).unacked, u.entry ≠ some e.id) ∧ S.copyStart n e path < 512 ∧ S.copyBlocked n e path = false ∧
        S.firstHop n e path = some o ∧ S.tagFor (n.val / 2) e.plane.code o e.hdr.fid path = .inl tag)
      (fun S => (S.injectPkt n 3 { p with hdr := { p.hdr with path := path } }).modNi n fun x => { x with late := [] }) ∧
    Does (.c1CopyRelease g n path) s g (fun S => ∀ f ∈ (S.ni n).store ++ (S.ni n).late.map (·.1), f.phase ≠ .copies) (fun S => S) ∧
    (∀ code : Seg → BitVec 3, code = (fun S => if (S.ni n).fenceLost then cRetrylost else if (S.ni n).fenceRefused then cDenied
        else cOk) →
      Does (.fenceCplSend g n) s g
        (fun S => (S.ni n).store.find? (fun e => e.phase == .fence) = some e ∧ (S.ni n).resetting = false ∧ (S.ni n).up = true ∧
          ∀ f ∈ S.earlier n e, f.access = false)
        (fun S => S.modNi n fun x =>
          { x.drop e.id with
            fenceLost := false, fenceRefused := false
            rs := x.rs ++ [{ cplBeat (S.eid n) (S.eid n) e.hdr.tag (code S) with
              lost := (S.ni n).fenceLost, refused := (S.ni n).fenceRefused }] })
        (fun S t => Counted S t (pgNi n) 0xA20 1 ∧
          (code S ≠ cOk → Counted S t (pgNi n) 0xA28 1 ∧ t.latched (pgNi n) 18))) ∧
    Does (.fenceCplSend g n) s g (fun S => (S.ni n).up = false ∨ ∀ f ∈ (S.ni n).store, f.phase ≠ .fence) (fun S => S)

/-- A sound packet next in its sequence is taken at a bank, behind those that wait, a double error in a data flit as its
poison (R112, R137, R318); one whose header fails its checks, or a flit of it its control parity, is consumed unacknowledged
(R111, R113). Deliveries not yet acknowledged are, after the delay (R133), and an acknowledgement lets go what it covers
(R133, R134). (The model's readings: logs 42, 51, 127.) -/
def Obligations.PacketsArrive : Prop :=
  ∀ (s : State) (g : Fin 4) (ep : Fin 1024) (pl : Plane) (b : Fin 72) (p : Packet) (rest : List Packet) (src : BitVec 12)
      (single double : List (Fin 8)) (cpar : Bool) (ack : AckLook),
    ep.val = 0x200 + b.val → ack.ep = ep →
    ∀ next : Seg → Seg, next = (fun S => S.modEp ep fun e => { e with inq := SMap.put [] e.inq pl.code rest }) →
    (pl ≠ .mgt →
      (∀ r : Seg → Recv, r = (fun S => (S.ep ep).recvOf p.hdr.src p.plane.code) →
        Does (.packetArrivalEgress g ep ⟨pl, single, double, cpar⟩) s g
          (fun S => S.epRuns ep = true ∧ SMap.get [] (S.ep ep).inq pl.code = p :: rest ∧ p.hdr.ack = false ∧
            p.hdrErr = false ∧ 0 ∉ double ∧ cpar = false ∧ p.hdr.glazeOk = true ∧ p.trunc = false ∧ p.hdr.sync = false ∧ (r S).active = true ∧
            (r S).held = [] ∧ p.hdr.seq = (r S).next)
          (fun S =>
            let T := (next S).modEp ep fun e => e.setRecv p.hdr.src p.plane.code { r S with bySync := false, lastPkt := S.unitTime ep }
            let T := T.modEp ep fun e => e.setRecv p.hdr.src p.plane.code
              ({ r S with bySync := false, lastPkt := S.unitTime ep, next := (r S).next + 1 }.expectTwin p.hdr)
            let q := { p with data := p.data.zipIdx.map fun (d, i) =>
              { d with poison := d.poison || double.any fun k => k.val == i + 1 } }
            T.modBank b fun x =>
              if directPair (eidLocal p.hdr.src) ep && eidSeg p.hdr.src == S.strap then { x with pb := { x.pb with q := x.pb.q ++ [q] } }
              else { x with pa := { x.pa with q := x.pa.q ++ [q] } })) ∧
      Does (.packetArrivalEgress g ep ⟨pl, single, double, cpar⟩) s g
        (fun S => S.epRuns ep = true ∧ SMap.get [] (S.ep ep).inq pl.code = p :: rest ∧ p.hdr.ack = false ∧
          (p.hdrErr = true ∨ 0 ∈ double ∨ cpar = true ∨ p.hdr.glazeOk = false))
        next (fun S t => Counted S t (pgBank b) 0x8B8 1 ∧ t.latched (pgBank b) 16) ∧
      Does (.packetArrivalEgress g ep ⟨pl, single, double, cpar⟩) s g (fun S => S.epRuns ep = false ∨ SMap.get [] (S.ep ep).inq pl.code = [])
        (fun S => S)) ∧
    Does (.ackDelayExpiry g ep src pl) s g
      (fun S => S.epRuns ep = true ∧ 0 < ((S.ep ep).recvOf src pl.code).owed ∧
        ((S.ep ep).recvOf src (pl.code + twinKey)).owed = 0)
      (fun S =>
        let r := (S.ep ep).recvOf src pl.code
        let give := !r.grant && !r.noGrant && decide ((S.ep ep).grants < 16)
        (S.modEp ep fun e => e.setRecv src pl.code { r with grant := r.grant || give, owed := 0, noGrant := false }).sendAck ep
          src pl.code r.del give false false false) ∧
    Does (.ackDelayExpiry g ep src pl) s g
      (fun S => S.epRuns ep = false ∨
        ((S.ep ep).recvOf src pl.code).owed = 0 ∧ ((S.ep ep).recvOf src (pl.code + twinKey)).owed = 0) (fun S => S) ∧
    Does (.ackReceive g ack) s g
      (fun S => S.epRuns ep = true ∧ pl = .rsp ∧ SMap.get [] (S.ep ep).inq 1 = p :: rest ∧ p.hdr.ack = true ∧ ack.upset.val < 2 ∧
        p.hdrErr = false ∧ p.hdr.glazeOk = true ∧ p.hdr.viaTwin = false ∧ p.hdr.aux.toNat / 2 % 2 = 0)
      (fun S =>
        let k := p.hdr.aux.toNat / 4 % 4
        let st := (S.ep ep).sendOf p.hdr.src k
        let done := st.unacked.filter (fun u => (p.hdr.seq - u.pkt.hdr.seq).toNat < 32768)
        let sync := st.sync && !done.any (fun u => u.pkt.hdr.seq == 0)
        ((next S).modEp ep fun e => e.setSend p.hdr.src k
          { st with
            unacked := st.unacked.filter (fun u => ¬ (p.hdr.seq - u.pkt.hdr.seq).toNat < 32768)
            sync := sync, resends := if done = [] then st.resends else 0
            grant := st.grant || (p.hdr.aux.toNat % 2 == 1 && !sync && !S.homeFenced ep p.hdr.src) }).sendReady ep) ∧
    Does (.ackReceive g ack) s g
      (fun S => S.epRuns ep = true ∧ SMap.get [] (S.ep ep).inq 1 = p :: rest ∧ p.hdr.ack = true ∧ pl = .rsp ∧
        (2 ≤ ack.upset.val ∨ p.hdrErr = true ∨ p.hdr.glazeOk = false))
      next (fun S t => Counted S t (pgBank b) 0x8B8 1 ∧ t.latched (pgBank b) 16) ∧
    Does (.ackReceive g ack) s g (fun S => S.epRuns ep = false ∨ ∀ k : Fin 3, SMap.get [] (S.ep ep).inq k.val = []) (fun S => S)

/-- A timeout resends everything unacknowledged, up to RETRY_MAX times without progress, and then gives the sequence up (R140,
R141). Grants are released and reclaimed (R135). A rejected C1 flow is demoted (R253, R266). A completion goes to RS and
completes its request (R142, R154); a request acknowledged and never answered, of the agent or of the flow engine, or a
register access, completes RETRYLOST at the timeout (R142); the data of a read that fails is a free value (log 14). (The
model's readings: logs 72, 111, 112.) -/
def Obligations.RetryGrantsAndCompletions : Prop :=
  (∀ (s : State) (g : Fin 4) (ep : Fin 1024) (d : BitVec 12) (pl : Plane) (n : Fin 288) (k : Nat) (fs rest : List Flit)
       (w : BitVec 64), epOk ep = true →
     (∀ st : Seg → Send, st = (fun S => (S.ep ep).sendOf d pl.code) →
       Does (.retryTimeout g ep d pl) s g (fun S => S.epRuns ep = true ∧ (st S).unacked ≠ [] ∧ (st S).resends < S.retryMax ep)
         (fun S => (S.modEp ep fun e => e.setSend d pl.code { st S with resends := (st S).resends + 1 }).goBack ep d pl.code) ∧
       (0x200 ≤ ep.val → Does (.retryTimeout g ep d pl) s g
         (fun S => S.epRuns ep = true ∧ (st S).unacked ≠ [] ∧ S.retryMax ep ≤ (st S).resends)
         (fun S => (S.modEp ep fun e => e.setSend d pl.code
           { freshDue := true, lastSent := (st S).lastSent, c1 := (st S).c1, failedOver := (st S).failedOver }).sendReady ep)) ∧
       Does (.retryTimeout g ep d pl) s g (fun S => S.epRuns ep = false ∨ (st S).unacked = []) (fun S => S) ∧
       Does (.sourceGrantRelease g ep d pl) s g (fun _ => True)
         (fun S => (S.modEp ep fun e => e.setSend d pl.code { st S with grant := false }).sendReady ep)) ∧
     Does (.egressGrantReclaim g ep d pl) s g (fun _ => True)
       (fun S => S.each [pl.code, pl.code + twinKey] fun T k =>
         T.modEp ep fun e => e.setRecv d k { e.recvOf d k with grant := false }) ∧
     (∀ j, Does (.rejectNoticeReceive g n) s g
       (fun S => S.mgtArrived n true = some (k, fs, rest) ∧ (wordsOf fs).head? = some w ∧
         S.demoted n (w.truncate 20) (w.getLsbD 21) = false ∧
         (List.range 16).find? (fun j => !(S.word (pgRt (n.val / 2)) (demOff n j)).getLsbD 31) = some j)
       (fun S => (((S.mgtTaken n k rest).each ((S.ep n).send.filter fun e => e.1 % 4 == b2n (w.getLsbD 21) &&
           e.2.unacked.any fun u => u.pkt.hdr.cls == 1 && u.pkt.hdr.fid == (w.truncate 20 : BitVec 20)) fun T e =>
         T.noteDemDest n (BitVec.ofNat 12 (e.1 / 4)) (w.getLsbD 21)).each ((S.ni n).rspDests.filter fun e =>
           w.getLsbD 21 && e.1 == (w.truncate 20 : BitVec 20)) fun T e => T.noteDemDest n e.2 true).setWord (pgRt (n.val / 2)) (demOff n j) (BitVec.ofNat 32
         (2 ^ 31 + (if w.getLsbD 22 then 2 else 1) * 2 ^ 24 + b2n (w.getLsbD 21) * 2 ^ 20 + (w.truncate 20 : BitVec 20).toNat)))
       (fun _ t => t.latched (pgRt (n.val / 2)) 23)) ∧
     Does (.rejectNoticeReceive g n) s g (fun S => S.mgtArrived n true = none) (fun S => S)) ∧
  (∀ (s : State) (g : Fin 4) (n : Fin 288) (e : Entry) (p : Packet) (rest : List Packet) (tag : BitVec 12),
     Does (.cplReceive g n) s g
       (fun S => S.niRuns n = true ∧ (S.ni n).cplIn = p :: rest ∧ (S.ni n).outstanding p.hdr.tag = some e ∧ e.phase = .bound ∧
         e.plane ≠ .snp ∧ e.hdr.dest = p.hdr.src ∧ p.hdr.aux = 0)
       (fun S => S.modNi n fun x =>
         { ((Ni.landed { x with cplIn := rest } e.bind).drop e.id) with
           rs := x.rs ++ rsBeats p (S.recvKey n p) true true (e.hdr.type == tLdres) })
       (fun S t => p.hdr.code = cStfail → Counted S t (pgNi n) 0xA40 1) ∧
     Does (.cplReceive g n) s g (fun S => S.niRuns n = false ∨ (S.ni n).cplIn = []) (fun S => S) ∧
     Does (.cplTimeout g n tag) s g
       (fun S => (S.ni n).outstanding tag = some e ∧ e.phase = .bound ∧ e.acked = true ∧ e.plane ≠ .snp)
       (fun S => S.modNi n fun x =>
         { ((x.landed e.bind).drop e.id) with rs := x.rs ++ [cplBeat (S.eid n) (S.eid n) tag cRetrylost] })
       (fun S t => Counted S t (pgNi n) 0x820 1) ∧
     Does (.cplTimeout g n tag) s g
       (fun S => (S.ni n).outstanding tag = none ∧ (S.ni n).regacc = some (tag.truncate 8))
       (fun S =>
         let pay := if (S.ni n).regaccRd then [Config.failedRead S.free] else []
         (S.when (S.ni n).regaccRd Seg.tick1).modNi n fun x =>
           { x with
             regacc := none
             mgOut := x.mgOut ++ mgBeats { dest := S.eid n, src := S.eid n, type := tCpl, tag := tag.truncate 8, code := cRetrylost,
                                           epoch := x.epoch, len := BitVec.ofNat 3 pay.length } pay true })
       (fun S t => Counted S t (pgNi n) 0x820 1) ∧
     (∀ idle : Seg → Prop, idle = (fun S => (S.ni n).outstanding tag = none ∧ (S.ni n).regacc ≠ some (tag.truncate 8)) →
      ∀ asked : Seg → Bool, asked = (fun S => SMap.get (2 ^ 20) (S.ni n).feTags tag.toNat != 2 ^ 20 &&
         (S.ni n).feIn.all (fun q => q.hdr.tag != tag) && (S.ep n).send.all fun d =>
           d.2.unacked.all fun u => u.entry.isSome || u.pkt.plane != .req || u.pkt.hdr.tag != tag) →
      Does (.cplTimeout g n tag) s g (fun S => idle S ∧ asked S = true)
       (fun S => S.modNi n fun x => { x with feIn := x.feIn ++
         [{ plane := .rsp, hdr := { dest := S.eid n, src := S.eid n, type := tCpl, cls := 0, code := cRetrylost, tag := tag } }] })
       (fun S t => Counted S t (pgNi n) 0x820 1) ∧
      Does (.cplTimeout g n tag) s g (fun S => idle S ∧ asked S = false) (fun S => S)) ∧
     Does (.cplTimeout g n tag) s g (fun S => (S.ni n).outstanding tag = some e ∧ e.phase ≠ .bound) (fun S => S))

/-- A flit that arrives goes into its VC buffer, with a double error as poison (R112), its header's effective age worked out
(R224), and what cannot go on there is truncated (R205, as `Seg.scrub` says it); the rest of a truncated packet is discarded,
a header that fails its checks also (R111), and a flit whose control parity fails ends its packet (R113). (The model's
readings: logs 47, 108.) -/
def Obligations.FlitsArrive : Prop :=
  ∀ (s : State) (g : Fin 4) (t : Fin 144) (pl : Plane) (p : Port) (f : Flit) (q : List Flit) (u : Fin 4) (margin : Byte)
      (d : Nat × Nat),
    portOk t pl p = true →
    ∀ front : Seg → Prop, front = (fun S => S.rtRuns t = true ∧ S.landingOf t pl.code p.code = f :: q ∧
      (S.vcq t pl.code p.code f.vc).length < vcDepth pl f.vc) →
    ∀ got : Seg → Seg, got = (fun S => ((S.setLanding t pl.code p.code q).when (S.stTile t == 1)
      (·.tileWakeReq t 0x828)).samplePath t pl.code p.code margin.toNat) →
    ∀ kept : Seg → Prop, kept = (fun S =>
      (S.drops t pl.code p.code f.vc).find? (fun d => d.1 == f.id && !f.isHead) = none) →
    Does (.flitArrival g t pl p ⟨u, margin⟩) s g
      (fun S => front S ∧ kept S ∧ max f.upset u.val < 3 ∧ (f.isHead = true → max f.upset u.val < 2 ∧ f.glazeOk = true))
      (fun S =>
        let T := (got S).endDrop t pl.code p.code f.vc f.id
        let eff := match f.rhdr with | some h => T.effAge t h | none => 0
        ((T.setVcq t pl.code p.code f.vc (T.vcq t pl.code p.code f.vc ++
          [{ f with upset := 0, inj := false, poison := f.poison || max f.upset u.val == 2, eff := eff, seen := 0 }])).scrub t pl.code).bypass t
          pl.code p.code f.vc) ∧
    Does (.flitArrival g t pl p ⟨u, margin⟩) s g
      (fun S => front S ∧ (S.drops t pl.code p.code f.vc).find? (fun d => d.1 == f.id && !f.isHead) = some d)
      (fun S =>
        let T := (got S).when (d.2 != 0) (·.modOut t pl.code (d.2 - 1) fun x => { x with drain := x.drain ++ [none] })
        (T.freeSlots t pl.code p.code f.vc 1).when f.tail (·.endDrop t pl.code p.code f.vc f.id)) ∧
    Does (.flitArrival g t pl p ⟨u, margin⟩) s g
      (fun S => front S ∧ f.isHead = true ∧ (2 ≤ max f.upset u.val ∨ f.glazeOk = false))
      (fun S => (((got S).endDrop t pl.code p.code f.vc f.id).freeSlots t pl.code p.code f.vc 1).when (!f.tail)
        (·.addDrop t pl.code p.code f.vc f.id 0))
      (fun S v => Counted S v (pgRt t) (0xC28 + 0x40 * pl.code) 1 ∧ Counted S v (pgRt t) (0xC20 + 0x40 * pl.code) 1 ∧
        v.latched (pgRt t) 8 ∧ v.latched (pgRt t) 9) ∧
    Does (.flitArrival g t pl p ⟨u, margin⟩) s g
      (fun S => front S ∧ kept S ∧ f.isHead = false ∧ max f.upset u.val = 3)
      (fun S =>
        let T := (got S).endDrop t pl.code p.code f.vc f.id
        (T.setVcq t pl.code p.code f.vc (T.vcq t pl.code p.code f.vc ++ [{ f with upset := 0, inj := false }])).truncateLast t
          pl.code p.code f.vc f)
      (fun S v => Counted S v (pgRt t) (0xC28 + 0x40 * pl.code) 1 ∧ v.latched (pgRt t) 8) ∧
    Does (.flitArrival g t pl p ⟨u, margin⟩) s g
      (fun S => p ≠ .k ∧ (S.rtRuns t = false ∨ S.landingOf t pl.code p.code = [] ∧ portBridge t p = none)) (fun S => S)

/-- An output lets the flit granted before cross to the neighbour, its credit used and its VC free after the tail, withdraws a
grant whose flit is gone, and decides its next grant: a lone offer of the background wins (R219–R221, R224, R225, R228); here
where the next cycle is no slot cycle. A header that waits escapes where VC0 of its dimension-order output has room (R189);
the packets of an escape VC that stands still are truncated, and an ejection port that stands still is reported by its NI
(R212). (The model's readings: logs 46, 47, 89, 90, 91, 108, 115.) -/
def Obligations.OutputsArbitrate : Prop :=
  ∀ (s : State) (g : Fin 4) (t : Fin 144) (pl : Plane) (p : Port) (i v : Nat) (x : Head) (vc : Fin 6) (f : Flit) (q : List Flit)
      (h : RHdr) (r : Route) (lost : List (Fin 6)), portOk t pl p = true →
    (∀ T : Seg → Seg, T = (fun S => ((S.acceptCredits t pl.code p lost).scrub t pl.code).wakeNeighbour t pl.code p) →
      ∀ mark : Seg → Seg, mark = (fun S => S.modOut t pl.code p.code fun y =>
        { y with next := none, used := false, slot := none, at_ := some (S.tftb t), phase := S.phaseOf t pl.code p.code }) →
      ∀ base : Seg → Prop, base = (fun S => S.rtRuns t = true ∧ ((T S).out t pl.code p.code).drain = [] ∧
        (T S).slotDue t pl.code p.code = none) →
      Does (.outputArbitration g t pl ⟨p, lost⟩) s g
        (fun S => base S ∧ ((T S).out t pl.code p.code).next = none ∧ (mark (T S)).offers t pl.code p.code = [(i, v, x)] ∧
          ((T S).out t pl.code p.code).bg + 1 < (T S).starveN t)
        (fun S => (((mark (T S)).modOut t pl.code p.code fun y => { y with bg := y.bg + 1 }).modOut t pl.code p.code fun y =>
          { y with next := some (.bg i v), lastWin := i }).noteSeen t pl.code p.code) ∧
      Does (.outputArbitration g t pl ⟨p, lost⟩) s g
        (fun S => base S ∧ ((T S).out t pl.code p.code).next = none ∧ (mark (T S)).offers t pl.code p.code = [])
        (fun S => (mark (T S)).noteSeen t pl.code p.code) ∧
      Does (.outputArbitration g t pl ⟨p, lost⟩) s g
        (fun S => base S ∧ ((T S).out t pl.code p.code).next = some (.bg i v) ∧ (T S).headOf t pl.code i v true = none ∧
          (mark (T S)).offers t pl.code p.code = [])
        (fun S => (mark (T S)).noteSeen t pl.code p.code) ∧
      (∀ (nb : Nat) (gone : Seg → Seg), neighbour t p = some nb → portBridge t p = none → x.out = p.code → x.header = false →
          x.flit.tail = true → x.vc ≠ 3 → gone = (fun S =>
            let U := ((T S).modOut t pl.code p.code fun y => { y with next := none, used := false, slot := none }).popFlits t
              pl.code i v 1
            let U := ((U.setCredits t pl.code p.code x.vc (U.credits t pl.code p.code x.vc - 1)).spend
              (hopEnergy pl.code i p (x.flit.seen == 0) true)).endThru t pl.code i v x.flit.id
            let U := (U.setVcOwner t pl.code p.code x.vc 0).endWaits t pl.code i v
            U.setLanding nb pl.code p.facing.code (U.landingOf nb pl.code p.facing.code ++
              [{ x.flit with vc := x.vc, ring := x.ring, esc := x.esc, seen := 0, la := x.la }])) →
        Does (.outputArbitration g t pl ⟨p, lost⟩) s g
          (fun S => base S ∧ ((T S).out t pl.code p.code).next = some (.bg i v) ∧ (T S).headOf t pl.code i v true = some x ∧
            (T S).ready t pl.code i v x = true ∧ (mark (gone S)).offers t pl.code p.code = [])
          (fun S => (mark (gone S)).noteSeen t pl.code p.code) (fun S u => Counted S u (pgRt t) (0xC00 + 0x40 * pl.code) 1))) ∧
    Does (.outputArbitration g t pl ⟨p, lost⟩) s g (fun S => S.rtRuns t = false) (fun S => S) ∧
    (∀ held : Seg → Prop, held = (fun S => S.rtRuns t = true ∧ S.vcq t pl.code p.code vc = f :: q ∧
        S.thru t pl.code p.code vc = none ∧ f.rhdr = some h ∧ f.esc = false ∧
        S.headerRoute t pl.code vc { f with esc := true } h = some (some r) ∧ S.adaptOk t h = true ∧ h.c1 = false ∧
        S.granted t pl.code p.code vc = false) →
      Does (.escapeSwitch g t pl p vc) s g (fun S => held S ∧ S.escapeRoom t pl.code h r = true)
        (fun S => S.setVcq t pl.code p.code vc ({ f with esc := true } :: q))
        (fun S u => Counted S u (pgRt t) (0xC10 + 0x40 * pl.code) 1) ∧
      Does (.escapeSwitch g t pl p vc) s g (fun S => held S ∧ S.escapeRoom t pl.code h r = false) (fun S => S)) ∧
    Does (.escapeWatchdog g t pl p ⟨vc, false⟩) s g
      (fun S => S.vcq t pl.code p.code vc ≠ [] ∧ vc.val ∈ [0, 4, 5] ∧ S.rtRuns t = true)
      (fun S => (((S.truncateAll t pl.code p.code vc ((S.vcq t pl.code p.code vc).length + 1)).count (pgRt t) 0xD00).evt (pgRt t)
        10 (rtSynd p.code pl.code vc)).scrub t pl.code) (fun _ u => u.latched (pgRt t) 10) ∧
    Does (.escapeWatchdog g t pl p ⟨vc, false⟩) s g (fun S => S.vcq t pl.code p.code vc = [] ∨ vc.val ∉ [0, 4, 5]) (fun S => S) ∧
    (∀ (n : Fin 288) (e : BitVec 12), (p = .l0 ∧ n.val = 2 * t.val) ∨ (p = .l1 ∧ n.val = 2 * t.val + 1) →
      Does (.escapeWatchdog g t pl p ⟨vc, true⟩) s g
        (fun S => S.ejectWaits n pl = some e ∧ S.niRuns n = true ∧ S.ctl.halted = false ∧ (S.pulse (srcNi n)).phase = 0)
        (fun S => S) (fun _ u => (u.pulse (srcNi n)).flight =
          some ⟨0x83, BitVec.ofNat 32 (e.toNat + pl.code * 2 ^ 12 + n.val % 2 * 2 ^ 14), false⟩) ∧
      Does (.escapeWatchdog g t pl p ⟨vc, true⟩) s g (fun S => S.ejectWaits n pl = none ∨ S.niRuns n = false) (fun S => S)) ∧
    (p ≠ .l0 → p ≠ .l1 → Does (.escapeWatchdog g t pl p ⟨vc, true⟩) s g (fun _ => True) (fun S => S))

/-- LINK_DN stops a link: what came through it is discarded (R366); stated where no packet is in transfer through it. A
credit-init gives the link its credits back (R367). (The model's readings: logs 47, 100.) -/
def Obligations.LinksFallAndReturn : Prop :=
  ∀ (s : State) (g : Fin 4) (t nb : Fin 144) (p : Port), neighbour t p = some nb.val →
    Does (.linkDnRise g t p) s g
      (fun S => S.stTile t ≠ 4 ∧ (∀ (pl : Fin 4) (v : Fin 6), S.vcq t pl p.code v = []) ∧
        ∀ e ∈ S.inFlow, e.1 / 256 = t.val → e.2.out ≠ p.code ∧ e.1 / 8 % 8 ≠ p.code)
      (fun S =>
        let k := t.val * 8 + p.code
        let T := { S with linkDn := SMap.put false S.linkDn k true, initDue := SMap.put false S.initDue k true }
        T.each (List.range 4) fun U pl =>
          (U.each (List.range 6) fun W v => W.setDrops t pl p.code v []).setLanding t pl p.code [])
      (fun S u => Counted S u (pgRt t) 0xD18 1 ∧ Counted S u pgClk 0x828 1 ∧ u.latched (pgRt t) 14) ∧
    Does (.linkDnRise g t p) s g (fun S => S.stTile t = 4) (fun S => S) ∧
    Does (.creditInitReceive g t p) s g
      (fun S => S.stTile t ≠ 4 ∧ S.stTile nb ≠ 4 ∧ S.kilnIsolates (srcRt nb) = false)
      (fun S =>
        let mine := fun e : Nat => e / 256 == t.val && e / 8 % 8 == p.code
        { S with
          linkDn := SMap.put false S.linkDn (t.val * 8 + p.code) false
          initDue := SMap.put false S.initDue (t.val * 8 + p.code) false
          cred := S.cred.filter (fun e => !mine e.1)
          seenGray := S.seenGray.filter (fun e => !mine e.1)
          freed := S.freed.filter (fun e => !(e.1 / 256 == nb.val && e.1 / 8 % 8 == p.facing.code)) }) ∧
    Does (.creditInitReceive g t p) s g (fun S => S.stTile t = 4 ∨ S.stTile nb = 4) (fun S => S)

/-- One tile cycle of a bank (R217, R231, R316): each port takes up its next packet and the beats that do not conflict go. A
READ answers its bytes, line by line (R315, R323); a beat of a posted write stores its payload where its range says in its
line, and nowhere else (R317); what R324 refuses is completed with the code, and an access that another source's protected
entry covers is deferred, what is left of a burst also (R172, R330). Of two beats that conflict the port without the grant
stalls (R320, R321), and an emergency grant suspends both (R231, R334). (The model's readings: logs 55, 56, 75, 97, 126.) -/
def Obligations.BankAccesses : Prop :=
  ∀ (s : State) (g : Fin 4) (b : Fin 72) (q : Packet) (rest : List Packet) (code : BitVec 3) (x : Burst) (l : Nat) (ls : List Nat)
    (p : Bool),
    ∀ runs : Seg → Prop, runs = (fun S => S.bankClocked b = true ∧ S.stBank b = 0 ∧ S.bankHolds b = false ∧ (S.bank b).engine = false) →
    ∀ quiet : Seg → Prop, quiet = (fun S => runs S ∧ (S.bank b).urgent = [] ∧ (S.bank b).busy = [] ∧ (S.bank b).pb = {} ∧
      (S.bank b).defer = []) →
    ∀ due : Seg → Prop, due = (fun S => quiet S ∧ (S.bank b).pa = { q := q :: rest } ∧ (S.bank b).grant = none ∧
      S.fetchWaits b q = false) →
    ∀ took : Seg → Seg, took = (fun S => S.modBank b fun y =>
      { y with since := min 64 (y.since + 1), pa := { q := rest }, noIdle := 0 }) →
    ∀ way : Seg → Prop, way = (fun S => quiet S ∧ (S.bank b).pa = { q := rest, burst := some x } ∧ x.pkt = q ∧ x.lines = l :: ls ∧
      (S.bank b).grant = some false ∧ q.hdr.poison = false ∧ (∀ d ∈ q.data, d.poison = false) ∧
      ∀ w ∈ beatWords q.hdr l, S.marked b w = false) →
    ∀ went : Burst → Seg → Seg, went = (fun y S => S.modBank b fun z =>
      { z with since := min 64 (z.since + 1), noIdle := min 64 (z.noIdle + 1), pa := { q := rest, burst := some { y with lines := ls } } }) →
    Does (.bankPacketAccept g b [] []) s g
      (fun S => due S ∧ S.bankRefusal b q.hdr = none ∧ q.hdr.type = tRead ∧ linesOfRange q.hdr.addr.toNat q.hdr.len.toNat = [l] ∧
        ∀ w ∈ wordsOfRange q.hdr.addr.toNat q.hdr.len.toNat, S.marked b w = false)
      (fun S => (((took S).modBank b fun y => { y with noIdle := min 64 ((S.bank b).noIdle + 1), lastB := false }).bankAccepted b
        q).bankCpl b q cOk q.hdr.len.toNat (S.bBytes b q.hdr.addr.toNat q.hdr.len.toNat) (fun _ => false))
      (fun S t => Counted S t (pgBank b) 0x800 1) ∧
    Does (.bankPacketAccept g b [] []) s g (fun S => way S ∧ q.hdr.type = tRead ∧ ls ≠ [])
      (went { x with data := x.data + (s.seg g).bBytes b (beatLo q.hdr l) (beatLen q.hdr l) *
        2 ^ (8 * (beatLo q.hdr l - q.hdr.addr.toNat)) }) ∧
    Does (.bankPacketAccept g b [] []) s g (fun S => way S ∧ q.hdr.type = tRead ∧ ls = [] ∧ x.bad = false ∧ x.marks = [] ∧ x.full = false)
      (fun S => ((went x S |>.modBank b fun z => { z with pa := { q := rest }, grant := none }).bankAccepted b q).bankCpl b q cOk
        q.hdr.len.toNat (x.data + S.bBytes b (beatLo q.hdr l) (beatLen q.hdr l) * 2 ^ (8 * (beatLo q.hdr l - q.hdr.addr.toNat)))
        (fun _ => false)) ∧
    Does (.bankPacketAccept g b [] []) s g (fun S => way S ∧ q.hdr.type = tPosted ∧ (S.bank b).beatProtected false x = false)
      (fun S =>
        let T := (went x S).modBank b fun z => { z with busy := secondCycle q.hdr l false }
        let T := if ls = [] then (T.modBank b fun z => { z with pa := { q := rest }, grant := none }).bankAccepted b q else T
        (T.writeBeat b x l {}).1)
      (fun S t => ∀ (c : Fin 72) (i : Nat), i < 2 ^ 17 → t.bByte c i =
        if c = b ∧ i / 64 = l ∧ q.hdr.addr.toNat ≤ i ∧ i < q.hdr.addr.toNat + q.hdr.len.toNat then
          BitVec.ofNat 8 (payload q / 2 ^ (8 * (i - q.hdr.addr.toNat))) else S.bByte c i) ∧
    Does (.bankPacketAccept g b [] []) s g
      (fun S => due S ∧ S.bankRefusal b q.hdr = some code ∧ code ≠ cPoison ∧ q.plane = .req ∧ isPosted q.hdr.type = false ∧
        q.hdr.type ≠ tCpl ∧ q.hdr.type ≠ tSnpRsp)
      (fun S => ((took S).bankAccepted b q).bankCpl b q code 0 0 (fun _ => false))
      (fun S t => Counted S t (pgBank b) 0x8B0 1) ∧
    Does (.bankPacketAccept g b [] []) s g
      (fun S => due S ∧ S.bankRefusal b q.hdr = none ∧ (S.bank b).mustDefer false q.hdr (burstOf q false).lines = true)
      (fun S => ((took S).modBank b fun y => { y with defer := [(false, burstOf q true)] }).wr (pgBank b) Reg.BANK.BANK_STAT_DEFER_FULL 0)
      (fun S t => Counted S t (pgBank b) 0x878 1) ∧
    (∀ y : Burst, Does (.bankPacketAccept g b [] []) s g
      (fun S => quiet S ∧ (S.bank b).pa = { burst := some y } ∧ (S.bank b).beatProtected false y = true ∧ (S.bank b).grant = none)
      (fun S => (S.modBank b fun z => { z with
        since := min 64 (z.since + 1), pa := {}, noIdle := 0, defer := [(false, { y with released := true })] }).wr (pgBank b)
          Reg.BANK.BANK_STAT_DEFER_FULL 0) (fun S t => Counted S t (pgBank b) 0x878 1)) ∧
    ((s.seg g).inReset = false → runs (s.seg g) → ((s.seg g).bank b).urgent = [] → ((s.seg g).bank b).busy = [] →
      ((s.seg g).bank b).grant = some p → beatsClash ((s.seg g).beatOf b false) ((s.seg g).beatOf b true) = true →
      ∃ t, exec (.bankPacketAccept g b [] []) s = .next (s.setSeg g t) ∧
        ((t.bank b).port (!p)).burst = (((s.seg g).bank b).port (!p)).burst ∧
        ((t.bank b).port (!p)).wait = (((s.seg g).bank b).port (!p)).wait + 1 ∧
        Counted (s.seg g) t (pgBank b) (if p then 0x838 else 0x840) 1) ∧
    (∀ lost : Seg → Bool → BankPort, lost = (fun S o =>
        let y := (S.bank b).port o
        { y with wait := y.wait + b2n (S.portAsks b o).isSome }) →
      Does (.bankPacketAccept g b [] []) s g (fun S => runs S ∧ (S.bank b).urgent = l :: ls ∧ 63 ≤ (S.bank b).since)
        (fun S => S.modBank b fun y =>
          { y with
            pa := lost S false, pb := lost S true, busy := [], noIdle := min 64 (y.noIdle + 1), urgent := ls, since := 0
            engine := true, res := y.res.filter (fun r => r.gran.toNat != l) })
        (fun S t => Counted S t (pgBank b) 0x830 1)) ∧
    Does (.bankPacketAccept g b [] []) s g (fun S => S.bankClocked b = false) (fun S => S)

/-- Reservation entries expire (R169, R172). A BANK_OWN commit hands the bank over once what it accepted has left (R326);
zeroing writes 0 row by row to every byte of the bank and to no other (R326, R339, R343). The scrubs step row by row where
nothing is found, and yield to the ports (R321, R333, R334, R337), but for a wake scrub that has seen no idle cycle for 64
(R334); a REPAIR word of a disabled page with EXPERT_EN changes the columns it names (R340), whose contents are free values
(R342; log 8). (The model's readings: logs 55, 97, 123.) -/
def Obligations.BankOwnershipAndScrub : Prop :=
  (∀ (s : State) (g : Fin 4) (r : Requester) (b : Fin 72) (src : BitVec 12) (w : Word),
     Does (.reservationExpiry g b src) s g (fun _ => True)
       (fun S => S.modBank b fun x => { x with res := x.res.filter (fun r => !(r.src == src && !r.prot)) }) ∧
     Does (.protectedEntryExpiry g b src) s g (fun _ => True)
       (fun S => S.modBank b fun x => { x with res := x.res.filter (fun r => !(r.src == src && r.prot)) }) ∧
     Writes (.bankOwnCommit g r b w) s g r (pgBank b) 0x100
       (fun S => S.bankOwnLocked b w = false ∧ Reg.BANK.BANK_OWN_ZERO.get w = 0 ∧
         w &&& 0x00032FFF ≠ S.word (pgBank b) 0x100 &&& 0x00032FFF)
       (fun S => ((S.heal (pgBank b) 0x100).modBank b fun x => { x.clearRes with hand := some (w &&& 0x00032FFF) }).wr (pgBank b)
         Reg.BANK.BANK_STAT_HANDOVER 1) ∧
     Writes (.bankOwnCommit g r b w) s g r (pgBank b) 0x100 (fun S => S.bankOwnLocked b w = true) (fun S => S)
       (fun _ t => t.flag (pgBank b) Reg.PAGE.PAGE_FLAGS_LOCK_HIT = true) ∧
     Does (.handoverComplete g b) s g
       (fun S => (S.bank b).hand = some w ∧ (S.bank b).zeroing = false ∧ S.bankDone b = true)
       (fun S => ((S.modBank b fun x => { x with hand := none }).setWord (pgBank b) 0x100 w).wr (pgBank b)
         Reg.BANK.BANK_STAT_HANDOVER 0) (fun S t => Counted S t (pgBank b) 0x8A8 1 ∧ t.latched (pgBank b) 10) ∧
     Does (.handoverComplete g b) s g
       (fun S => (S.bank b).hand = none ∨ (S.bank b).zeroing = true ∨ S.bankDone b = false) (fun S => S) ∧
     Writes (.zeroCmd g r b) s g r (pgBank b) 0x110
       (fun S => (S.bank b).hand = none ∧ (S.bank b).zeroing = false)
       (fun S =>
         let T := (S.wr (pgBank b) Reg.BANK.ZERO_CMD 1).modBank b fun x => { x.clearRes with zeroing := true, zeroCmd := true, zeroPos := 0 }
         let T := T.wr (pgBank b) Reg.BANK.BANK_STAT_ZEROING 1
         ((T.wr (pgBank b) Reg.PAGE.PROGRESS_BUSY 1).wr (pgBank b) Reg.PAGE.PROGRESS_PERCENT 0).wr (pgBank b)
           Reg.PAGE.PROGRESS_POSITION 0) ∧
     Writes (.zeroCmd g r b) s g r (pgBank b) 0x110 (fun S => (S.bank b).hand ≠ none ∨ (S.bank b).zeroing = true) (fun S => S)
       (fun _ t => t.flag (pgBank b) Reg.PAGE.PAGE_FLAGS_LOCK_HIT = true) ∧
     (∀ row : Seg → Nat, row = (fun S => (S.bank b).zeroPos) →
       Does (.bankPacketAccept g b [] []) s g
         (fun S => (S.bank b).zeroing = true ∧ S.zeroMay b = true ∧ S.bankClocked b = true ∧ S.stBank b = 0 ∧ (S.bank b).engine = false ∧
           (S.bank b).urgent = [] ∧ (S.bank b).busy = [] ∧ (S.bank b).defer = [] ∧ (S.bank b).pa = {} ∧ (S.bank b).pb = {} ∧
           (S.bank b).grant = none ∧ row S < 256)
         (fun S => (S.modBank b fun x => { x with since := min 64 (x.since + 1), noIdle := 0 }).zeroRow b)
         (fun S t => t.rd (pgBank b) Reg.PAGE.PROGRESS_POSITION = row S + 1 ∧
           ∀ (c : Fin 72) (i : Nat), i < 2 ^ 17 → t.bByte c i = if c = b ∧ i / 512 = row S then 0 else S.bByte c i)) ∧
     Does (.zeroingComplete g b) s g
       (fun S => (S.bank b).zeroing = true ∧ S.zeroMay b = true)
       (fun S =>
         let T := (S.zeroed b).modBank b fun x => { x with zeroing := false, zeroCmd := false }
         ((T.wr (pgBank b) Reg.BANK.BANK_STAT_ZEROING 0).wr (pgBank b) Reg.BANK.ZERO_CMD 0).bankProgress b)
       (fun S t => t.latched (pgBank b) 11 ∧
         ∀ (c : Fin 72) (i : Nat), i < 2 ^ 17 → t.bByte c i = if c = b then 0 else S.bByte c i) ∧
     Does (.zeroingComplete g b) s g
       (fun S => (S.bank b).zeroing = false ∨ S.zeroMay b = false) (fun S => S)) ∧
  (∀ (s : State) (g : Fin 4) (r : Requester) (b : Fin 72) (sub : Fin 8) (w : Word) (i : Nat),
     (∀ run : Seg → Prop, run = (fun S => S.flag (pgBank b) Reg.BANK.SCRUB_CFG_SCRUB_EN = true ∧ S.bankRuns b = true ∧
         (S.bank b).zeroing = false ∧ (S.bank b).scrubRow = i) →
       Does (.scrubStep g b {}) s g (fun S => run S ∧ S.scrubYields b i = false)
         (fun S => (S.modBank b fun x => { x with scrubRow := if i + 1 = 2048 then 0 else i + 1 }).wr (pgBank b)
           Reg.BANK.SCRUB_STAT_ROW (if i + 1 = 2048 then 0 else i + 1))
         (fun S t => i + 1 = 2048 → Counted S t (pgBank b) 0x890 1) ∧
       Does (.scrubStep g b {}) s g (fun S => run S ∧ S.scrubYields b i = true) (fun S => S)
         (fun S t => Counted S t (pgBank b) 0x848 1)) ∧
     (∀ errs, Does (.scrubStep g b errs) s g (fun S => S.flag (pgBank b) Reg.BANK.SCRUB_CFG_SCRUB_EN = false) (fun S => S)) ∧
     (∀ (at_ urgent : Seg → Prop) (next : Seg → Seg),
         at_ = (fun S => (S.bank b).wakeRow = some i ∧ i < 2048 ∧ S.bankRuns b = true) →
         urgent = (fun S => S.scrubYields b i = true ∧ 64 ≤ (S.bank b).noIdle ∧ 64 ≤ (S.bank b).since ∧ (S.bank b).engine = false) →
         next = (fun S => (S.modBank b fun x => { x with wakeRow := some (i + 1), noIdle := 0 }).bankProgress b) →
       Does (.wakeScrubRow g b {}) s g (fun S => at_ S ∧ S.scrubYields b i = false) next ∧
       Does (.wakeScrubRow g b {}) s g (fun S => at_ S ∧ S.scrubYields b i = true ∧ ¬ urgent S) (fun S => S)
         (fun S t => Counted S t (pgBank b) 0x848 1) ∧
       Does (.wakeScrubRow g b {}) s g (fun S => at_ S ∧ urgent S)
         (fun S => next ((S.suspendedCycle b).modBank b fun x => { x with since := 0, engine := true }))
         (fun S t => Counted S t (pgBank b) 0x830 1)) ∧
     (∀ errs, Does (.wakeScrubRow g b errs) s g (fun S => (S.bank b).wakeRow = none) (fun S => S)) ∧
     Does (.wakeScrubComplete g b) s g (fun S => (S.bank b).wakeRow = some 2048)
       (fun S => ((S.modBank b fun x => { x with wakeRow := none }).wr (pgBank b) Reg.BANK.BANK_STAT_WAKE_SCRUB 0).bankProgress b)
       (fun _ t => t.latched (pgBank b) 15) ∧
     Does (.wakeScrubComplete g b) s g (fun S => (S.bank b).wakeRow ≠ some 2048) (fun S => S) ∧
     (∀ (off : Nat) (new : Seg → Word), off = 0x400 + 4 * sub.val →
         new = (fun S => (S.word (pgBank b) off &&& 0x7C007C00) ||| (w &&& 0x83FF83FF)) →
       Writes (.repairWrite g r b sub w) s g r (pgBank b) off
         (fun S => S.expertEn = true ∧ S.enabled (pgBank b) = false)
         (fun S => ((S.setWord (pgBank b) off (new S)).heal (pgBank b) off).repairChanged b sub (S.word (pgBank b) off) (new S)) ∧
       Writes (.repairWrite g r b sub w) s g r (pgBank b) off (fun S => S.expertEn = false) (fun S => S)
         (fun _ t => t.flag (pgBank b) Reg.PAGE.PAGE_FLAGS_LOCK_HIT = true)))

/-- SLOT_DATA and RES_DATA write the shadow tables at their address, which moves on, unless the address names the active bank
(R238, R252); COPY and CLEAR fill the shadow (R239). A write of STARVE_N starts every background count of the router anew
(R225, R244); CLEAR empties a site's demotion list (R266). (The model's readings: logs 20, 92, 116.) -/
def Obligations.SlotTablesAndStarvation : Prop :=
  (∀ (s : State) (g : Fin 4) (r : Requester) (t : Fin 144) (w : Word) (p : Nat), p = pgRt t →
     (∀ (pl o i : Seg → Nat), pl = (fun S => S.rd p Reg.ROUTER.SLOT_ADDR_PLANE) → o = (fun S => S.rd p Reg.ROUTER.SLOT_ADDR_OUT) →
         i = (fun S => S.rd p Reg.ROUTER.SLOT_ADDR_INDEX / 2 * 2) →
       Writes (.slotDataWrite g r t w) s g r p 0x408
         (fun S => S.expertEn = true ∧ S.flag p Reg.ROUTER.SLOT_ADDR_BANK = false ∧ hasTable t (pl S) (o S) = true ∧
           S.swapBusy t = false ∧ S.slotBusy t = false)
         (fun S =>
           let keep := fun v : Nat => v % 8 + v / 16 % 64 * 16
           (((S.setSlotEntry t (S.slotShadow t) (pl S) (o S) (i S) (keep (w.toNat % 65536))).setSlotEntry t (S.slotShadow t) (pl S)
             (o S) (i S + 1) (keep (w.toNat / 65536))).wr p Reg.ROUTER.SLOT_ADDR_INDEX (i S + 2)).c1Update t)) ∧
     Writes (.slotDataWrite g r t w) s g r p 0x408 (fun S => S.expertEn = true ∧ S.flag p Reg.ROUTER.SLOT_ADDR_BANK = true)
       (fun S => S) (fun _ u => u.flag p Reg.PAGE.PAGE_FLAGS_LOCK_HIT = true) ∧
     Writes (.resDataWrite g r t w) s g r p 0x244
       (fun S => S.flag p Reg.ROUTER.RES_ADDR_BANK = false ∧ S.swapBusy t = false ∧ S.slotBusy t = false ∧
         hasTable t (S.rd p Reg.ROUTER.RES_ADDR_PLANE) (S.rd p Reg.ROUTER.RES_ADDR_OUT) = true)
       (fun S => (S.setDesc t (S.slotShadow t) (S.rd p Reg.ROUTER.RES_ADDR_PLANE) (S.rd p Reg.ROUTER.RES_ADDR_OUT)
         (S.rd p Reg.ROUTER.RES_ADDR_RTAG) (w &&& 0x871FFFFF)).wr p Reg.ROUTER.RES_ADDR_RTAG (S.rd p Reg.ROUTER.RES_ADDR_RTAG + 1)) ∧
     (∀ (c : Instr) (f : Field), (c, f) ∈ [(Instr.slotCopy g r t, Reg.ROUTER.SLOT_CTRL_COPY), (.slotClear g r t, Reg.ROUTER.SLOT_CTRL_CLEAR)] →
       Writes c s g r p 0x400 (fun S => S.expertEn = true ∧ S.slotBusy t = false ∧ S.swapBusy t = false)
         (fun S => (((S.wr p f 1).wr p Reg.PAGE.PROGRESS_BUSY 1).wr p Reg.PAGE.PROGRESS_PERCENT 0).wr p
           Reg.PAGE.PROGRESS_POSITION 0) ∧
       Writes c s g r p 0x400 (fun S => S.expertEn = true ∧ S.swapBusy t = true) (fun S => S)
         (fun _ u => u.flag p Reg.PAGE.PAGE_FLAGS_LOCK_HIT = true)) ∧
     ((s.seg g).inReset = false → (s.seg g).slotBusy t = true →
       ∃ u, exec (.slotCopyClearDone g t) s = .next (s.setSeg g u) ∧ u.slotBusy t = false ∧ u.latched p 19 ∧
         (SMap.wf (fun _ => 7) (s.seg g).slots = true → ∀ pl o i, pl < 2 → o < 7 → i < 512 →
           u.slotEntry t ((s.seg g).slotShadow t) pl o i =
             if (s.seg g).flag p Reg.ROUTER.SLOT_CTRL_COPY then (s.seg g).slotEntry t ((s.seg g).slotActive t) pl o i else 7)) ∧
     Does (.slotCopyClearDone g t) s g (fun S => S.slotBusy t = false) (fun S => S)) ∧
  (∀ (s : State) (g : Fin 4) (r : Requester) (t : Fin 144) (n : BitVec 7),
     Writes (.starveNWrite g r t n) s g r (pgRt t) 0x300 (fun _ => True)
       (fun S =>
         let T := (S.wr (pgRt t) Reg.ROUTER.ARB_CFG_STARVE_N n.toNat).heal (pgRt t) 0x300
         { T with outs := SMap.mapNorm {} (fun k x => if k / 32 = t.val then { x with bg := 0 } else x) T.outs }) ∧
     Writes (.demoteClearL0 g r t) s g r (pgRt t) 0x2E0 (fun _ => True)
       (fun S => ((S.each (List.range 16) fun T j => T.setWord (pgRt t) (0x260 + 4 * j) 0).wr (pgRt t)
         Reg.ROUTER.DEMOTE_CTRL_ALL_L0 0).modNi (2 * t.val + 0) fun x => { x with demDests := [] }) ∧
     Writes (.demoteClearL1 g r t) s g r (pgRt t) 0x2E0 (fun _ => True)
       (fun S => ((S.each (List.range 16) fun T j => T.setWord (pgRt t) (0x2A0 + 4 * j) 0).wr (pgRt t)
         Reg.ROUTER.DEMOTE_CTRL_ALL_L1 0).modNi (2 * t.val + 1) fun x => { x with demDests := [] }))

/-- A swap: asked for, validated, refused or pending (R240, R261), and carried out at a period boundary unless a transfer
spans it, which counts as a delay (R240, R241). (The model's readings: logs 20, 92, 117.) -/
def Obligations.SlotSwaps : Prop :=
  ∀ (s : State) (g : Fin 4) (r : Requester) (t : Fin 144) (p : Nat) (pl o reason detail : Nat), p = pgRt t →
    Writes (.slotSwapReq g r t) s g r p 0x400 (fun S => S.expertEn = true ∧ S.swapBusy t = false)
      (fun S => ((S.wr p Reg.ROUTER.SLOT_CTRL_SWAP_REQ 1).wr p Reg.ROUTER.SLOT_STAT_VALIDATING 1).wr p
        Reg.ROUTER.SLOT_STAT_DELAYS 0) ∧
    (∀ bad : Seg → Option (Nat × Nat × Nat × Nat), bad = (fun S =>
        (tables t).findSome? fun x => (S.valTable t (S.slotShadow t) x.1 x.2).map fun e => (x.1, x.2, e)) →
      ∀ due : Seg → Prop, due = (fun S => S.flag p Reg.ROUTER.SLOT_STAT_VALIDATING = true ∧ S.slotBusy t = false ∧
          S.c1Ready t = true) →
      Does (.slotValidationDone g t) s g (fun S => due S ∧ bad S = some (pl, o, reason, detail))
        (fun S => ((((S.wr p Reg.ROUTER.SLOT_STAT_VALIDATING 0).wr p Reg.ROUTER.SLOT_CTRL_SWAP_REQ 0).wr p
          Reg.ROUTER.SLOT_STAT_SWAP_PEND 0).valStat t reason 0 pl o detail).wr p Reg.ROUTER.VAL_STAT_REFUSED 1)
        (fun _ u => u.latched p 20) ∧
      Does (.slotValidationDone g t) s g
        (fun S => due S ∧ bad S = none ∧ ∀ x ∈ tables t, S.valNotes t (S.slotShadow t) x.1 x.2 = [])
        (fun S => (((S.wr p Reg.ROUTER.SLOT_STAT_VALIDATING 0).wr p Reg.ROUTER.SLOT_STAT_SWAP_PEND 1).valStat t 0 0 0 0 0))) ∧
    Does (.slotValidationDone g t) s g
      (fun S => S.flag p Reg.ROUTER.SLOT_STAT_VALIDATING = false ∨ S.slotBusy t = true ∨ S.c1Ready t = false) (fun S => S) ∧
    (t.val ≠ 0 → t.val ≠ 11 →
      Does (.slotPeriodBoundary g t) s g
        (fun S => S.flag p Reg.ROUTER.SLOT_STAT_SWAP_PEND = true ∧ S.flag p Reg.ROUTER.SLOT_CTRL_AT_EN = false ∧
          S.slotTransfer t = false)
        (fun S => ((((S.wr p Reg.ROUTER.SLOT_STAT_ACTIVE (1 - S.slotActive t)).wr p Reg.ROUTER.SLOT_STAT_SWAP_PEND 0).wr p
          Reg.ROUTER.SLOT_CTRL_SWAP_REQ 0).wr p Reg.ROUTER.SLOT_STAT_FORCING 0).wr p Reg.ROUTER.SLOT_STAT_DELAYS 0)
        (fun _ u => u.latched p 16) ∧
      Does (.slotPeriodBoundary g t) s g
        (fun S => S.flag p Reg.ROUTER.SLOT_STAT_SWAP_PEND = true ∧ S.flag p Reg.ROUTER.SLOT_CTRL_AT_EN = false ∧
          S.slotTransfer t = true ∧ S.rd p Reg.ROUTER.SLOT_STAT_DELAYS + 1 < S.rd p Reg.ROUTER.ARB_EXP_SWAP_FORCE_AFTER)
        (fun S => S.wr p Reg.ROUTER.SLOT_STAT_DELAYS (min 255 (S.rd p Reg.ROUTER.SLOT_STAT_DELAYS + 1))) ∧
      Does (.slotPeriodBoundary g t) s g (fun S => S.flag p Reg.ROUTER.SLOT_STAT_SWAP_PEND = false) (fun S => S))

/-- A new map is broadcast under the next epoch, with the ring notice after it (R201, R202, R203); it spreads from the
attachment tile from router to router, and each router and NI it has reached adopts what the packet says once its flits are
read twice alike (R361), a router keeping the previous view until the packets of the previous epoch have drained (R199); when
every router has reported, the previous epoch retires. (The model's readings: logs 52, 53, 93, 99, 128.) -/
def Obligations.MapsAndEpochs : Prop :=
  ∀ (s : State) (g : Fin 4) (u : Fin 1024) (t : Fin 144) (n : Fin 288) (reads : List (Fin 4)),
    Does (.fenceMapChange g) s g
      (fun S => S.ctl.prevLive = false ∧ S.ctl.mapped = true ∧ S.ctl.wantMap = true ∧ S.soak = false ∧
        S.ctl.dormant.length < 144 ∧ (attachOf S.newMap.rects).isSome = true)
      (fun S => (((S.modCtl fun c =>
        { c with
          maps := SMap.put {} c.maps (c.epoch + 1).toNat S.newMap, epoch := c.epoch + 1, prevLive := true, wantMap := false
          rings := SMap.put {} c.rings c.ring.ver.toNat c.ring, adoptDue := S.mapUnits
          reportDue := (List.range 144).filter (fun t => S.stTile t != 4 && !S.newMap.tile t)
          mapFab := mapPayload S.newMap (c.epoch + 1), fabAt := [S.newMap.attach]
          ringFab := if S.newMap.ringVer != S.map.ringVer then ringPayload c.ring (c.epoch + 1) else []
          ringDue := if S.newMap.ringVer != S.map.ringVer then
              S.mapUnits.filter (fun u => 0x200 ≤ u || tileX (u - 0x40) == 0 || tileX (u - 0x40) == 11) else [] }).noteRows
        0).noteRows 1).reportRing)
      (fun _ v => ∀ br : Fin 2, v.rd (pgBr br) Reg.BR.BR_STAT_ROWS = v.rowMask br) ∧
    Does (.fenceMapChange g) s g (fun S => S.ctl.prevLive = true ∨ S.ctl.mapped = false) (fun S => S) ∧
    (u.val = srcNi n →
      Does (.fenceMapAdopt g ⟨u, reads⟩) s g
        (fun S => u.val ∈ S.ctl.adoptDue ∧ srcRt (n.val / 2) ∉ S.ctl.adoptDue ∧ S.stTile (n.val / 2) ≤ 1 ∧ S.kilnIsolates u = false ∧ (S.ep n).send = [] ∧
          (S.ni n).feTags = [] ∧ ∀ k ∈ reads, k.val < 3)
        (fun S => (S.modCtl fun c => { c with adoptDue := c.adoptDue.filter (· != u.val) }).modNi n fun x =>
          { x with epoch := (S.ctl.mapFab.getD 0 0).extractLsb' 0 4 })
        (fun S v => Counted S v pgClk 0x810 (reads.foldl (fun a k => a + k.val) 0)) ∧
      Does (.ringNoticeReceive g u) s g (fun S => u.val ∈ S.ctl.ringDue ∧ u.val ∉ S.ctl.adoptDue)
        (fun S => (S.modCtl fun c => { c with ringDue := c.ringDue.filter (· != u.val) }).modNi n fun x =>
          { x with ringVer := (S.mapOf ((S.ctl.ringFab.getD 0 0).extractLsb' 0 4)).ringVer })) ∧
    (u.val = srcRt t →
      Does (.fenceMapAdopt g ⟨u, []⟩) s g (fun S => u.val ∈ S.ctl.adoptDue ∧ t.val ∈ S.ctl.fabAt ∧ S.stTile t ≤ 1 ∧ S.kilnIsolates u = false)
        (fun S =>
          let T := S.modCtl fun c => { c with adoptDue := c.adoptDue.filter (· != u.val) }
          let T := (T.wr (pgRt t) Reg.ROUTER.RT_EPOCH_PREV (S.rd (pgRt t) Reg.ROUTER.RT_EPOCH_CUR)).wr (pgRt t)
            Reg.ROUTER.RT_EPOCH_PREV_LIVE 1
          let T := (T.wr (pgRt t) Reg.ROUTER.RT_EPOCH_CUR ((S.ctl.mapFab.getD 0 0).extractLsb' 0 4).toNat).wr (pgRt t)
            Reg.ROUTER.C1_STAT_BR_SUSP ((S.ctl.mapFab.getD 0 0).extractLsb' 4 4).toNat
          (((T.count (pgRt t) 0xD08).evt (pgRt t) 12).each (List.range 4) fun U pl => U.scrub t pl).forwardMap t) ∧
      Does (.fenceMapAdopt g ⟨u, 3 :: reads⟩) s g
        (fun S => u.val ∈ S.ctl.adoptDue ∧ t.val ∈ S.ctl.fabAt ∧ S.stTile t ≤ 1 ∧ S.kilnIsolates u = false) (fun S => S)
        (fun S v => Counted S v pgClk 0x810 3 ∧ Counted S v pgClk 0x818 1 ∧ v.latched pgClk 10)) ∧
    (mapOk u = true →
      Does (.fenceMapAdopt g ⟨u, reads⟩) s g
        (fun S => u.val ∉ S.ctl.adoptDue ∨ u.val = srcRt t ∧ t.val ∉ S.ctl.fabAt ∨ u.val = srcNi n ∧ srcRt (n.val / 2) ∈ S.ctl.adoptDue)
        (fun S => S) ∧
      Does (.ringNoticeReceive g u) s g (fun S => u.val ∉ S.ctl.ringDue) (fun S => S)) ∧
    Does (.epochDrainReport g t) s g
      (fun S => S.ctl.prevLive = true ∧ srcRt t ∉ S.ctl.adoptDue ∧ S.holdsEpoch t (S.rd (pgRt t) Reg.ROUTER.RT_EPOCH_PREV) = false)
      (fun S => S.modCtl fun c => { c with reportDue := c.reportDue.filter (· != t.val) }) ∧
    Does (.epochDrainReport g t) s g (fun S => S.ctl.prevLive = false) (fun S => S) ∧
    Does (.epochRetire g) s g (fun S => S.ctl.prevLive = true ∧ S.ctl.reportDue = [] ∧ S.ctl.tileCmd = none)
      (fun S => (S.each (List.range 144) fun T t => T.wr (pgRt t) Reg.ROUTER.RT_EPOCH_PREV_LIVE 0).modCtl fun c =>
        { c with prevLive := false }) ∧
    Does (.epochRetire g) s g (fun S => S.ctl.prevLive = false ∨ S.ctl.reportDue ≠ []) (fun S => S) ∧
    (∀ e : Seg → Nat, e = (fun S => S.rd (pgRt t) Reg.ROUTER.RT_EPOCH_PREV) →
      Does (.drainToExpiry g t) s g
        (fun S => S.flag (pgRt t) Reg.ROUTER.RT_EPOCH_PREV_LIVE = true ∧ S.holdsEpoch t (e S) = true)
        (fun S => (S.evt (pgRt t) 13).each (List.range 4) fun T pl => T.each (List.range 7) fun T i => T.each (List.range 6)
          fun T v => T.drainVc t pl i v (e S)) (fun _ v => v.latched (pgRt t) 13) ∧
      Does (.drainToExpiry g t) s g
        (fun S => S.flag (pgRt t) Reg.ROUTER.RT_EPOCH_PREV_LIVE = false ∨ S.holdsEpoch t (e S) = false) (fun S => S))

/-- At an age-unit boundary the one packet that waits leaves its queue: green, its tokens taken (R280, R281, R287), red, held
and counted (R283), or unpoliced (R276). A context returns, or its flow is unavailable (R295, R299); a dirty one is written
back, and dropped where the bank refuses it (R294); an old one is brought up to date (R286, R296). (The model's readings: logs
45, 114.) -/
def Obligations.FlowContexts : Prop :=
  ∀ (s : State) (g : Fin 4) (n : Fin 288) (idx : BitVec 18) (i : Nat) (e : Entry) (w : Way) (T : Seg) (p : Packet),
    i = idx.toNat →
    (∀ (one : Seg → Prop) (w' : Seg → Way) (need : Nat), need = costOf e.hdr.type e.hdr.len.toNat * 65536 →
        one = (fun S => S.niRuns n = true ∧ (S.ni n).store = [e] ∧ e.phase = .queued ∧ flowIdx e.hdr.fid = i) →
        w' = (fun S => (w.update (S.ageNow n) 1).touch (S.unitTime n)) →
      Does (.flowSendDecision g n idx) s g
        (fun S => one S ∧ S.policed n i = true ∧ (S.ni n).way i = some w ∧ w.fetch = false ∧ w.unavail = false ∧
          cfgShape w.cfg = 0 ∧ colourOf (w' S) e need = 0)
        (fun S => ((S.flowEvent n i).modWay n i fun v =>
            { v with
              tp := if cfgMeter v.cfg ≠ 0 then v.tp - need else v.tp
              tc := if cfgMeter v.cfg ≠ 0 then v.tc - need else v.tc
              credit := if 0 < v.credit then 0 else v.credit }).modEntry n e.id fun x =>
          { x with hdr := { x.hdr with cls := x.bindClass, yellow := false }, phase := .eligible, since := S.unitTime n })
        (fun S t => Counted S t (pgNi n) 0xB00 1) ∧
      Does (.flowSendDecision g n idx) s g
        (fun S => one S ∧ S.policed n i = true ∧ (S.ni n).way i = some w ∧ w.fetch = false ∧ w.unavail = false ∧
          cfgShape w.cfg = 0 ∧ colourOf (w' S) e need = 2 ∧ (isPosted e.hdr.type && cfgRedDrop w.cfg) = false ∧
          neverConforms (w' S) need = false ∧ e.redHeld = false)
        (fun S => (S.flowEvent n i).modEntry n e.id fun x => { x with redHeld := true })
        (fun S t => Counted S t (pgNi n) 0xB10 1) ∧
      Does (.flowSendDecision g n idx) s g (fun S => one S ∧ S.policed n i = false)
        (fun S => S.modEntry n e.id fun x =>
          { x with hdr := { x.hdr with cls := x.bindClass, yellow := false }, phase := .eligible, since := S.unitTime n })
        (fun S t => Counted S t (pgNi n) 0xB28 1)) ∧
    Does (.flowSendDecision g n idx) s g (fun S => S.niRuns n = false) (fun S => S) ∧
    Does (.flowContextReturn g n idx) s g (fun S => S.takeFe n i 0 = some (T, p) ∧ p.hdr.code = cOk ∧ p.hdr.poison = false)
      (fun _ => ((T.modWay n i fun v =>
          { Way.ofBank idx (BitVec.ofNat 128 (payload p)) with used := v.used, unavail := false }).flowEvent n i).each
        ((T.ni n).intake i) fun S x => S.modEntry n x.id fun x => { x with phase := .queued }) ∧
    Does (.flowContextReturn g n idx) s g
      (fun S => S.takeFe n i 0 = some (T, p) ∧ (p.hdr.code ≠ cOk ∨ p.hdr.poison = true) ∧ (T.ni n).intake i = [] ∧
        (T.ni n).queue i = [])
      (fun _ => T.modWay n i fun v => { v with fetch := false, unavail := true }) (fun _ t => t.latched (pgNi n) 24) ∧
    Does (.flowContextReturn g n idx) s g (fun S => S.takeFe n i 0 = none) (fun S => S) ∧
    Does (.flowWritebackTimer g n idx) s g
      (fun S => (S.ni n).way i = some w ∧ w.dirty = true ∧ w.wb = 0 ∧ w.unavail = false ∧ w.fetch = false ∧ S.niRuns n = true)
      (fun S => (((S.modWay n i fun v => { v with dirty := false, wb := v.wb + 1 }).count (pgNi n) 0xB48).fePacket n i 1 tStcond
        (w.stored ((S.ni n).qcount i)).toNat)) ∧
    Does (.flowWritebackTimer g n idx) s g (fun S => ∀ v, (S.ni n).way i = some v → v.dirty = false ∨ v.wb ≠ 0) (fun S => S) ∧
    Does (.flowWritebackResult g n idx) s g
      (fun S => S.takeFe n i 1 = some (T, p) ∧ p.hdr.code = cOk ∧ (T.ni n).way i = some w ∧ w.evict = false ∧
        (T.ni n).store.any (fun x => x.phase == .intake) = false)
      (fun _ => T.modWay n i fun v => { v with wb := v.wb - 1 }) ∧
    Does (.flowWritebackResult g n idx) s g
      (fun S => S.takeFe n i 1 = some (T, p) ∧ p.hdr.code = cStfail ∧ (T.ni n).store.any (fun x => x.phase == .intake) = false)
      (fun _ => T.modNi n fun x => { x with cache := x.cache.filter (fun v => v.idx != idx) })
      (fun _ t => t.latched (pgNi n) 26) ∧
    Does (.flowWritebackResult g n idx) s g (fun S => S.takeFe n i 1 = none) (fun S => S) ∧
    (∀ old : Seg → Prop, old = (fun S => 16384 ≤ (S.ageNow n - w.last).toNat ∧ w.fetch = false ∧ w.unavail = false) →
      Does (.flowRefresh g n idx) s g (fun S => (S.ni n).way i = some w ∧ old S)
        (fun S => S.modWay n i fun v => (v.update (S.ageNow n) ((S.ni n).qcount i)).touch (S.unitTime n)) ∧
      Does (.flowRefresh g n idx) s g (fun S => (S.ni n).way i = some w ∧ ¬ old S) (fun S => S)) ∧
    Does (.unavailFetchRetry g n idx) s g
      (fun S => (S.ni n).way i = some w ∧ w.unavail = true ∧ w.fetch = false ∧ S.flowOn = true)
      (fun S => ((S.modWay n i fun v => { v with unavail := false, fetch := true }).count (pgNi n) 0xB38).fePacket n i 0 tRead 0) ∧
    Does (.unavailFetchRetry g n idx) s g (fun S => (S.ni n).way i = none ∨ S.flowOn = false) (fun S => S)

/-- FW_CMD (R301): a command on a context the flow engine can use reads it, recalls it, or writes it and tells every NI (R302,
R304, R305); on another it leaves only its RESULT, and while one runs a second has no effect. The notices at an NI (R298,
R302–R305, R361) and the sweep (R296). (The model's readings: logs 44, 45, 98, 99.) -/
def Obligations.FlowWindow : Prop :=
  ∀ (s : State) (g : Fin 4) (r : Requester) (idx : BitVec 18) (i : Nat) (n : Fin 288) (w : Way) (c : Notice)
    (reads : List (Fin 4)) (reached : Seg → Prop), i = idx.toNat →
    reached = (fun S => S.noticed n = true ∧ S.stTile (n.val / 2) ≤ 1 ∧ (S.ni n).resetting = false) →
    (∀ (free : Seg → Prop) (start : Nat → Nat → Seg → Seg),
        free = (fun S => S.flag pgFlow Reg.FLOWWIN.FW_CMD_BUSY = false) →
        start = (fun op x S => (((S.wr pgFlow Reg.FLOWWIN.FW_CMD_OP op).wr pgFlow Reg.FLOWWIN.FW_CMD_INDEX x).wr pgFlow
          Reg.FLOWWIN.FW_CMD_BUSY 1).wr pgFlow Reg.PAGE.PROGRESS_BUSY (b2n (op == 5))) →
      Writes (.fwRead g r idx) s g r pgFlow 0x100 (fun S => free S ∧ S.fwCheck i = 0)
        (fun S => ((start 1 i S).wr pgFlow Reg.FLOWWIN.FW_STAT_RESULT 0).each (List.range 4) fun T k =>
          T.setWord pgFlow (0x110 + 4 * k) (BitVec.ofNat 32 (slice (S.bankCtx i) (32 * k) 32))) ∧
      (∀ (cmd : Instr) (op : Nat), (cmd, op) ∈ [(Instr.fwRead g r idx, 1), (.fwWriteCfg g r idx, 3), (.fwWriteRaw g r idx, 4)] →
        Writes cmd s g r pgFlow 0x100 (fun S => free S ∧ S.fwCheck i ≠ 0)
          (fun S => (start op i S).wr pgFlow Reg.FLOWWIN.FW_STAT_RESULT (S.fwCheck i))) ∧
      Writes (.fwReadSync g r idx) s g r pgFlow 0x100 free
        (fun S => (start 2 i S).modCtl fun x => { x with recalled := some idx, recallDue := S.noticeSites })
        (fun S t => Counted S t pgFlow 0x808 1) ∧
      (∀ (cmd : Instr) (op : Nat) (raw : Bool),
          (cmd, op, raw) ∈ [(Instr.fwWriteCfg g r idx, 3, false), (.fwWriteRaw g r idx, 4, true)] →
        Writes cmd s g r pgFlow 0x100 (fun S => free S ∧ S.fwCheck i = 0) (fun S => (start op i S).fwWriteCtx i raw)
          (fun _ t => ∃ x, t.ctl.notice = some x ∧ x.idx = idx ∧ x.raw = raw)) ∧
      Writes (.fwInit g r) s g r pgFlow 0x100
        (fun S => free S ∧ S.rd pgFlow Reg.FLOWWIN.INIT_LAST < S.rd pgFlow Reg.FLOWWIN.INIT_FIRST)
        (fun S => (start 5 0 S).wr pgFlow Reg.FLOWWIN.FW_STAT_RESULT 3) ∧
      Writes (.fwInit g r) s g r pgFlow 0x100
        (fun S => free S ∧ S.rd pgFlow Reg.FLOWWIN.INIT_FIRST ≤ S.rd pgFlow Reg.FLOWWIN.INIT_LAST)
        (fun S => (start 5 0 S).fwInitCtx) ∧
      (∀ cmd ∈ [Instr.fwRead g r idx, .fwReadSync g r idx, .fwWriteCfg g r idx, .fwWriteRaw g r idx, .fwInit g r],
        Writes cmd s g r pgFlow 0x100 (fun S => ¬ free S) (fun S => S)
          (fun _ t => t.flag pgFlow Reg.PAGE.PAGE_FLAGS_LOCK_HIT = true)) ∧
      Does (.fwCmdComplete g) s g (fun S => ¬ free S ∧ S.rd pgFlow Reg.FLOWWIN.FW_CMD_OP ≠ 2)
        (fun S => (S.fwInitWrite.wr pgFlow Reg.FLOWWIN.FW_CMD_BUSY 0).wr pgFlow Reg.PAGE.PROGRESS_BUSY 0) (fun _ t => t.latched pgFlow 8) ∧
      Does (.fwCmdComplete g) s g free (fun S => S)) ∧
    Does (.flowSweep g idx) s g
      (fun S => S.enabled pgFlow = true ∧ S.sliceUsable (sliceOf i) = true ∧ S.ctxPoisoned i = false ∧
        16384 ≤ (S.ctxNow i - (Way.ofBank idx (BitVec.ofNat 128 (S.bankCtx i))).last).toNat)
      (fun S =>
        let q := slice (S.bankCtx i % 2 ^ 128) 59 5
        S.setBankCtx i (((Way.ofBank idx (BitVec.ofNat 128 (S.bankCtx i))).update (S.ctxNow i) q).toBank q).toNat)
      (fun S t => Counted S t pgFlow 0x818 1) ∧
    Does (.flowSweep g idx) s g (fun S => S.enabled pgFlow = false ∨ S.sliceUsable (sliceOf i) = false) (fun S => S) ∧
    (∀ due : Seg → Prop, due = (fun S => S.ctl.notice = some c ∧ n.val ∈ S.ctl.noticeDue ∧ reached S ∧ c.idx = idx) →
      Does (.configNoticeReceive g ⟨n, 3 :: reads⟩) s g due (fun S => S) (fun S t => Counted S t pgClk 0x818 1) ∧
      Does (.configNoticeReceive g ⟨n, []⟩) s g (fun S => due S ∧ (S.ni n).way i = none)
        (fun S => S.modCtl fun x => { x with noticeDue := x.noticeDue.erase n.val }) ∧
      Does (.configNoticeReceive g ⟨n, []⟩) s g
        (fun S => due S ∧ (S.ni n).way i = some w ∧ w.fetch = false ∧ cfgOtag w.cfg ≠ c.otag.toNat ∧ c.raw = false ∧ c.shapeCh = false)
        (fun S => (((S.modCtl fun x => { x with noticeDue := x.noticeDue.erase n.val }).flowEvent n i).modNi n fun x =>
            { x with store := x.store.map (fun e => if flowIdx e.hdr.fid = i then { e with never := false } else e) }).modWay n i
          fun v => v.reconfigure c.cfg false c.meterCh) (fun S t => Counted S t (pgNi n) 0xB68 1)) ∧
    Does (.configNoticeReceive g ⟨n, reads⟩) s g (fun S => S.ctl.notice = none ∨ n.val ∉ S.ctl.noticeDue) (fun S => S) ∧
    Does (.recallReceive g n) s g (fun S => S.ctl.recalled = some idx ∧ n.val ∈ S.ctl.recallDue ∧ reached S)
      (fun S => (S.modCtl fun x => { x with recallDue := x.recallDue.erase n.val }).writeBack n i) ∧
    Does (.recallReceive g n) s g (fun S => S.ctl.recalled = none ∨ n.val ∉ S.ctl.recallDue) (fun S => S) ∧
    (∀ (lo hi : BitVec 18) (due : Seg → Prop) (drop : Seg → Seg),
        due = (fun S => S.ctl.recallAll = some (lo, hi) ∧ n.val ∈ S.ctl.recallAllDue ∧ reached S) →
        drop = (fun S => (S.modCtl fun x => { x with recallAllDue := x.recallAllDue.erase n.val }).modNi n fun x =>
          { x with cache := x.cache.filter (fun v => v.fetch || !(lo.toNat ≤ v.idx.toNat && v.idx.toNat ≤ hi.toNat)) }) →
      Does (.recallAllReceive g n) s g (fun S => due S ∧ (S.ctl.recallAllDue.erase n.val).any S.noticed = true) drop ∧
      Does (.recallAllReceive g n) s g (fun S => due S ∧ S.ctl.recallAllDue = [n.val]) (fun S => (drop S).fwInitWrite)) ∧
    Does (.recallAllReceive g n) s g (fun S => S.ctl.recallAll = none ∨ n.val ∉ S.ctl.recallAllDue) (fun S => S) ∧
    Does (.flowwinDisableNotice g n) s g
      (fun S => n.val ∈ S.ctl.disableDue ∧ reached S ∧ (S.ni n).cache.any (·.dirty) = false ∧
        (S.ni n).store.any (fun e => e.phase == .queued || e.phase == .intake) = false)
      (fun S => (S.modCtl fun x => { x with disableDue := x.disableDue.erase n.val }).modNi n fun x => { x with cache := [] }) ∧
    Does (.flowwinDisableNotice g n) s g (fun S => n.val ∉ S.ctl.disableDue) (fun S => S)

/-- A frame that comes in sequence is stored and its ACK and credits taken, a bad one refused with a NAK due (R385, R387,
R389); a NAK or a timeout replays every unacknowledged frame, RESYNC first, or retrains the direction (R388, R395). A block
slot carries the kindle pattern, a training block or a SLIP at its turn, or goes on with the frame in progress; where one
begins, LANE and NAK go first, then the replay, then the control frame that the replay abandoned (R232, R379, R383, R387,
R394). (The model's readings: logs 59, 60, 61, 118, 119, 120.) -/
def Obligations.FramesAndReplay : Prop :=
  ∀ (s : State) (g : Fin 4) (br : Fin 2) (b : Fin 24) (f : RxFrame) (fl : Flit) (fsn : Byte) (pl : Plane) (tx : TxFrame)
    (txs : List TxFrame) (cf : Frame),
    (∀ first : Seg → Seg,
        first = (fun S => if f.resync then (S.modBun br b fun x => { x with discard := false, resynced := true }).laneAdopt br b
          else S) →
      Does (.frameReceive g br b f) s g
        (fun S => running (S.bunRx br b) = true ∧ running ((first S).bunRx br b) = true ∧ f.good = true ∧ f.known = true ∧
          f.flit = some fl ∧ ((first S).bun br b).discard = false ∧ bunDepth f.plane f.vc ≠ 0 ∧ f.fsn = (S.bun br b).rxFsn)
        (fun S => ((first S).modBun br b fun x =>
          { ((x.acked f.ack).credited f.cidx f.ccnt).store f.plane.code { fl with vc := f.vc } f.tick with
            rxFsn := x.rxFsn + 1, resynced := false, ackOwed := true }).reportRing)
        (fun S t => t.cnt (pgBr br) b 0x8B0 = satAdd count48Max (S.cnt (pgBr br) b 0x8B0) 1) ∧
      Does (.frameReceive g br b f) s g
        (fun S => running (S.bunRx br b) = true ∧ running ((first S).bunRx br b) = true ∧ f.good = true ∧ f.known = true ∧
          f.flit = none ∧ ((first S).bun br b).discard = false)
        (fun S => ((first S).modBun br b fun x => (x.acked f.ack).credited f.cidx f.ccnt).reportRing) ∧
      Does (.frameReceive g br b f) s g
        (fun S => running (S.bunRx br b) = true ∧ running ((first S).bunRx br b) = true ∧ f.good = false)
        (fun S => ((first S).modBun br b fun x =>
          if x.discard then x else { x with discard := true, resynced := false, nakDue := true }).reportRing)
        (fun S t => t.cnt (pgBr br) b 0x860 = satAdd count48Max (S.cnt (pgBr br) b 0x860) 1)) ∧
    Does (.frameReceive g br b f) s g (fun S => running (S.bunRx br b) = false) (fun S => S.reportRing) ∧
    (∀ replay : Bundle → Bundle, replay = (fun x => { x with resend := x.replay, resyncDue := true, replays := x.replays + 1 }) →
      Does (.nakReceive g br b fsn) s g
        (fun S => running (S.bunTx br b) = true ∧ ((S.bun br b).acked fsn).replays < 16)
        (fun S => (S.modBun br b fun x => replay (x.acked fsn)).reportRing) ∧
      Does (.replayTimeout g br b) s g
        (fun S => running (S.bunTx br b) = true ∧ (S.bun br b).replay ≠ [] ∧ (S.bun br b).replays < 16)
        (fun S => (S.modBun br b replay).reportRing)) ∧
    (∀ c ∈ [Instr.replayTimeout g br b, .bridgeRetrainTimeout g br b],
      Does c s g
        (fun S => running (S.bunTx br b) = true ∧ (S.bun br b).replay ≠ [] ∧ 16 ≤ (S.bun br b).replays ∧ S.pins.bypOpen = true)
        (fun S => ((S.trainTx br b).noteBridge br).reportRing)
        (fun S t => t.bunTx br b = 1 ∧ t.bunRx br b = S.bunRx br b ∧ (t.bun br b).replay = [] ∧
          (t.bun br b).rxbuf = (S.bun br b).rxbuf)) ∧
    (∀ c ∈ [Instr.nakReceive g br b fsn, .replayTimeout g br b, .bridgeRetrainTimeout g br b],
      Does c s g (fun S => running (S.bunTx br b) = false) (fun S => S.reportRing)) ∧
    (∀ (x : Seg → Bundle) (out : Seg → BlockKind → Bundle → Seg), x = (fun S => { S.bun br b with slots := (S.bun br b).slots + 1 }) →
        out = (fun S k y => S.setBun br b ({ y with out := { kind := k } }.onLine (S.bunTx br b == 3))) →
      Does (.bundleBlockSlot g br b) s g (fun S => S.bunTx br b = 1 ∧ 0 < (S.bun br b).kindle)
        (fun S => (out S .kindle (S.bun br b)).modBun br b fun y => { y with kindle := y.kindle - 1 }) ∧
      Does (.bundleBlockSlot g br b) s g (fun S => S.bunTx br b = 1 ∧ (S.bun br b).kindle = 0 ∧ (x S).slots % 16 ≠ 0)
        (fun S => out S .idle (x S)) ∧
      Does (.bundleBlockSlot g br b) s g (fun S => S.bunTx br b = 1 ∧ (S.bun br b).kindle = 0 ∧ (x S).slots % 16 = 0)
        (fun S => out S .slip (x S)) ∧
      Does (.bundleBlockSlot g br b) s g (fun S => running (S.bunTx br b) = true ∧ (x S).slots % 1024 = 0)
        (fun S => (out S .slip (x S)).noteBundleWaits br b 8) ∧
      (∀ served : Seg → Prop, served = (fun S => running (S.bunTx br b) = true ∧ (x S).slots % 1024 ≠ 0) →
        Does (.bundleBlockSlot g br b) s g
          (fun S => served S ∧ (S.bun br b).resyncDue = false ∧ slotUnits (S.bunTx br b) ≤ (S.bun br b).left)
          (fun S =>
            (((S.setBun br b { x S with out := { kind := .data } }).modBun br b fun y =>
              y.putUnits (slotUnits (S.bunTx br b))).noteBundleWaits br b 8).modBun br b fun y => y.onLine (S.bunTx br b == 3)) ∧
        (∀ (pre : Seg → Prop) (fr : Seg → Frame),
          (pre, fr) ∈ [((fun S => (S.bun br b).laneDue.isSome = true),
              (fun S => match (S.bun br b).laneDue with | some (l, half, m) => .lane l half m | none => .idle)),
            ((fun S => (S.bun br b).laneDue = none ∧ (S.bun br b).nakDue = true), fun S => .nak (S.bun br b).rxFsn),
            ((fun S => (S.bun br b).laneDue = none ∧ (S.bun br b).nakDue = false ∧ (S.bun br b).resend = tx :: txs),
              fun _ => .flit tx),
            ((fun S => (S.bun br b).laneDue = none ∧ (S.bun br b).nakDue = false ∧ (S.bun br b).resend = [] ∧
                (S.bun br b).after = some cf), fun _ => cf)] →
          (s.seg g).inReset = false → served (s.seg g) → ((s.seg g).bun br b).left = 0 → pre (s.seg g) →
          ∃ t, exec (.bundleBlockSlot g br b) s = .next (s.setSeg g t) ∧
            (((t.bun br b).out.frames.head?).map (·.frame)) = some (fr (s.seg g)) ∧
            (t.bun br b).out.kind = (if ((s.seg g).bun br b).resyncDue then .resync else .data) ∧
            (t.bun br b).resyncDue = false))) ∧
    Does (.bundleBlockSlot g br b) s g (fun S => S.bunTx br b ≠ 1 ∧ running (S.bunTx br b) = false) (fun S => S) ∧
    Does (.bundleStartLapse g br b) s g (fun _ => True)
      (fun S => S.modBun br b fun x => if x.vc3Waiting.isNone then { x with claim := 0 } else x) ∧
    (∀ q tick, Does (.bridgeC1Release g br b pl) s g
      (fun S => (S.bun br b).got pl.code 3 = (fl, tick) :: q ∧ ((S.tftb (edgeTile br b)).toNat % 512 + 1024 - (tick.toNat + 23)) % 512 = 0)
      (fun S => (S.modBun br b fun x =>
          { x with
            rxbuf := SMap.put [] x.rxbuf (8 * pl.code + 3) q
            freed := SMap.put 0 x.freed (8 * pl.code + 3) ((SMap.get 0 x.freed (8 * pl.code + 3) + 1) % 256) }).setLanding
        (edgeTile br b) pl.code (edgePort br).code (S.landingOf (edgeTile br b) pl.code (edgePort br).code ++ [fl]))) ∧
    Does (.bridgeC1Release g br b pl) s g (fun S => (S.bun br b).got pl.code 3 = []) (fun S => S)

/-- Lanes fail, and the bundle goes on with what is left (R377, R396); a bundle trains at join, wake and retrain (R394, R395),
sleeps when idle (R397), and wakes with its map, FSN and credits kept (R395, R398). A pair that is lost is closed and
retrains; no bundle of it is saggared (R401). BSLOT_DATA writes eight shadow entries and the address moves on (R238, R411);
COPY and CLEAR fill the shadow table; a swap is refused with its reason, or is pending (R392). (The model's readings: logs 20,
61, 62, 64, 102.) -/
def Obligations.LanesSleepAndBundleSlots : Prop :=
  (∀ (s : State) (g : Fin 4) (r : Requester) (br : Fin 2) (b : Fin 24) (lane : Fin 17) (lf : Fin 32) (half : Bool) (look : TrainLook)
     (m m' : BitVec 17) (n : BitVec 5)
     (src dest : BitVec 12),
     (∀ (have_ good : Seg → BitVec 17), have_ = (fun S => ((S.bun br b).laneNext.map (·.1)).getD (S.bun br b).rxMap) →
         good = (fun S => have_ S &&& ~~~(BitVec.ofNat 17 (2 ^ lane.val))) →
       Does (.laneFail g br b lane) s g
         (fun S => running (S.bunRx br b) = true ∧ (have_ S).getLsbD lane = true ∧ widthOf (good S) ≠ 5)
         (fun S => ((S.failLanes br b (good S)).modBun br b fun x =>
           { x with
             laneDue := some (lane.val, widthOf (good S) != 2, good S), laneNext := some (good S, false), discard := true
             resynced := false, nakDue := false }).reportRing) ∧
       Does (.laneFail g br b lane) s g
         (fun S => running (S.bunRx br b) = true ∧ (have_ S).getLsbD lane = true ∧ widthOf (good S) = 5)
         (fun S =>
           let e : Sent := { frame := .lane lane.val true (good S) }
           ((S.rxWidth br b (good S)).modBun br b fun x =>
             { x with out := { kind := .data, frames := [e], units := e.words } }).reportRing)
         (fun _ t => t.bunTx br b = 5 ∧ t.latched (pgBr br) 11) ∧
       Does (.laneFail g br b lane) s g
         (fun S => running (S.bunRx br b) = false ∨ (have_ S).getLsbD lane = false) (fun S => S.reportRing)) ∧
     (∀ (map : BitVec 17) (st : Nat), map = m &&& ~~~(BitVec.ofNat 17 (2 ^ lf.val)) → st = (if half then 3 else widthOf m) →
       Does (.laneFrameReceive g br b lf half m) s g
         (fun S => S.bunRx br b ≠ 1 ∧ running (S.bunTx br b) = true ∧ widthOf m ≠ 5 ∧ (S.bun br b).replays < 16 ∧
           ((S.bun br b).txMap ≠ map ∨ S.bunTx br b ≠ st))
         (fun S => ((((S.modBun br b fun x => { x with txMap := map }).setBunTx br b st).modBun br b fun x =>
           { x with resend := x.replay, resyncDue := true, replays := x.replays + 1 }).noteBridge br).reportRing) ∧
       Does (.laneFrameReceive g br b lf half m) s g
         (fun S => S.bunRx br b ≠ 1 ∧ running (S.bunTx br b) = true ∧ widthOf m ≠ 5 ∧ (S.bun br b).txMap = map ∧ S.bunTx br b = st)
         (fun S => S.reportRing)) ∧
     Does (.laneFrameReceive g br b lf half m) s g (fun S => S.bunRx br b = 1 ∧ (S.bun br b).keepRx = true)
       (fun S => (S.trainRx br b).reportRing) (fun _ t => t.bunRx br b = 1 ∧ (t.bun br b).keepRx = false ∧ (t.bun br b).rxbuf = []) ∧
     Does (.laneFrameReceive g br b lf half m) s g
       (fun S => (S.bunRx br b = 1 ∧ (S.bun br b).keepRx = false) ∨ (S.bunRx br b ≠ 1 ∧ running (S.bunTx br b) = false))
       (fun S => S.reportRing) ∧
     Does (.bundleTrainStart g br b) s g
       (fun S => S.bunTx br b ≠ 1 ∧ S.bunRx br b ≠ 1 ∧ S.bunTx br b ≠ 5 ∧ S.pins.bypOpen = true ∧ S.joinState ≠ 1)
       (fun S => (S.trainStart br b).reportRing) (fun _ t => t.bunTx br b = 1 ∧ t.bunRx br b = 1) ∧
     Does (.bundleTrainStart g br b) s g (fun S => S.bunTx br b = 1 ∨ S.bunRx br b = 1) (fun S => S.reportRing) ∧
     (∀ done : Seg → Seg, done = (fun S => (((S.noteBridge br).pairTrained br).noteBridge br).reportRing) →
       (∀ good : Seg → BitVec 17,
           good = (fun S => if (S.bun br b).keepRx then (S.bun br b).rxMap &&& look.passed else look.passed) →
         Does (.bundleTrainComplete g br b look m') s g (fun S => S.bunRx br b = 1 ∧ S.bunTx br b ≠ 1)
           (fun S => done ((S.modBun br b fun x => if x.keepRx then { x with keepRx := false, discard := false }
             else { x with rxFsn := 0, discard := false, freed := [], laneDue := some (laneSays (good S)) }).rxWidth br b
           (good S)))) ∧
       Does (.bundleTrainComplete g br b look m') s g
         (fun S => S.bunRx br b ≠ 1 ∧ S.bunTx br b = 1 ∧ (S.bun br b).keepTx = false ∧ widthOf m' ≠ 5)
         (fun S => done ((S.modBun br b fun x => { x with fsn := 0, cred := [], seen := [], txMap := m' }).setBunTx br b
           (widthOf m'))) ∧
       Does (.bundleTrainComplete g br b look m') s g
         (fun S => S.bunRx br b ≠ 1 ∧ S.bunTx br b = 1 ∧ (S.bun br b).keepTx = true ∧ widthOf ((S.bun br b).txMap &&& m') ≠ 5)
         (fun S => done ((S.modBun br b fun x => { x with keepTx := false, txMap := x.txMap &&& m' }).setBunTx br b
           (widthOf ((S.bun br b).txMap &&& m'))))) ∧
     Does (.bundleTrainComplete g br b look m') s g (fun S => S.bunRx br b ≠ 1 ∧ S.bunTx br b ≠ 1) (fun S => S.reportRing) ∧
     (∀ put : Seg → Seg, put = (fun S =>
         ((S.wr (pgBr br) Reg.BR.LANE_CMD_OP 1).wr (pgBr br) Reg.BR.LANE_CMD_BUNDLE n.toNat).heal (pgBr br) 0x410) →
       Writes (.laneCmdRetrain g r br n) s g r (pgBr br) 0x410
         (fun S => S.expertEn = true ∧ n.toNat < 24 ∧ S.pins.bypOpen = true ∧ S.bunTx br n.toNat ≠ 5)
         (fun S => (((put S).setBr br { (put S).br br with laneRun := some n.toNat }).trainStart br n.toNat).noteBridge br)
         (fun _ t => t.flag (pgBr br) Reg.BR.LANE_CMD_BUSY = true) ∧
       Writes (.laneCmdRetrain g r br n) s g r (pgBr br) 0x410 (fun S => S.expertEn = true ∧ 24 ≤ n.toNat) put) ∧
     Does (.bundleSleepEntry g br b) s g
       (fun S => running (S.bunTx br b) = true ∧ S.sleepEn br = true ∧ S.timeBundle br ≠ some b.val ∧
         S.ownedStart br b = false ∧ running (S.bunTx br (rowMate b)) = true ∧ (S.bun br b).txq = [] ∧ (S.bun br b).replay = [] ∧
         (S.bun br b).cred = [] ∧ (S.bun br b).rxbuf = [] ∧ (S.bun br b).ackOwed = false ∧ (S.bun br b).nakDue = false ∧
         (S.bun br b).laneDue = none ∧ (S.bun br b).after = none ∧ (S.bun br b).resyncDue = false ∧ (S.bun br b).claim = 0 ∧
         ((S.bun br b).left = 0 ∨ (S.bun br b).cur.all (fun e => e.frame == .idle) = true))
       (fun S => (S.modBun br b fun x =>
         { x with out := { kind := .drowse }, cur := none, left := 0 }.onLine (S.bunTx br b == 3)).setBunTx br b 4)
       (fun _ t => t.txEi br b = BitVec.allOnes 17 ∧ t.txSleep br b = true) ∧
     Does (.bundleSleepEntry g br b) s g
       (fun S => running (S.bunTx br b) = false ∨ S.sleepEn br = false ∨ (S.bun br b).replay ≠ []) (fun S => S) ∧
     (∀ seen : Seg → Nat, seen = (fun S => ((laneMap (S.bun br b).rxMap (S.bunRx br b == 3)).filter fun l => m.getLsbD l).length) →
       Does (.drowseReceive g br ⟨b, m⟩) s g (fun S => running (S.bunRx br b) = true ∧ 9 ≤ seen S) (fun S => S.setBunRx br b 4)
         (fun _ t => t.rxSleep br b = true) ∧
       Does (.drowseReceive g br ⟨b, m⟩) s g (fun S => running (S.bunRx br b) = false ∨ seen S < 9) (fun S => S)) ∧
     Does (.bundleWake g br b) s g (fun S => S.bunTx br b = 4 ∧ S.rd pgPwr Reg.PWR.PWR_SEG_STAT_LEVEL ≠ 3)
       (fun S => (S.modBun br b fun x => { x with keepTx := true, out := {} }.newTraining S.ftb).setBunTx br b 1)
       (fun _ t => t.txEi br b = 0 ∧ t.txSleep br b = false) ∧
     Does (.bundleWake g br b) s g (fun S => S.bunTx br b ≠ 4) (fun S => S) ∧
     Does (.rxeiFallWake g br b) s g (fun S => S.bunRx br b = 4 ∧ S.stTile (edgeTile br b) = 0 ∧ S.ctl.halted = false ∧ S.rd pgPwr Reg.PWR.PWR_SEG_STAT_LEVEL ≠ 3)
       (fun S => (S.modBun br b fun x => { x with keepRx := true }).setBunRx br b 1) (fun S t => Counted S t pgPwr 0x838 1) ∧
     Does (.pairReturnHoldExpiry g br b src dest) s g
       (fun S => (src, dest) ∈ (S.bun br (rowMate b)).pairs ∧ S.holdsPair br (rowMate b) (src, dest) = true ∧
         (src, dest) ∉ (S.bun br (rowMate b)).stay)
       (fun S => S.modBun br (rowMate b) fun x => { x with stay := (src, dest) :: x.stay }) ∧
     Does (.pairReturnHoldExpiry g br b src dest) s g (fun S => (src, dest) ∉ (S.bun br (rowMate b)).pairs) (fun S => S) ∧
     (∀ live : Seg → List Nat, live = (fun S => (List.range 24).filter (fun b => S.bunTx br b != 5)) →
       Does (.pairDown g br) s g (fun S => S.joined = true ∧ (S.br br).up = true)
         (fun S =>
           let T := S.each (live S) fun T b => ((T.setBunTx br b 0).setBunRx br b 0).cutBundle br b fun _ => {}
           (((T.setBr br { T.br br with up := false, retrain := true, okRun := 0, msgs := [] }).wr (pgBr br)
             Reg.BR.BR_STAT_TIME_OK 0).noteBridge br).reportRing)
         (fun _ t => t.latched (pgBr br) 14 ∧ (t.br br).up = false) ∧
       Does (.pairDown g br) s g (fun S => S.joined = false ∨ (S.br br).up = false) (fun S => S.reportRing) ∧
       Does (.pairRetrainTimer g br) s g (fun S => (S.br br).retrain = true ∧ (S.br br).up = false ∧ S.pins.bypOpen = false)
         (fun S => S.reportRing) ∧
       Does (.pairRetrainTimer g br) s g (fun S => (S.br br).retrain = true ∧ (S.br br).up = false)
         (fun S => (S.each (live S) fun T b => T.retrain br b).reportRing) ∧
       Does (.pairRetrainTimer g br) s g (fun S => (S.br br).retrain = false) (fun S => S.reportRing))) ∧
  (∀ (s : State) (g : Fin 4) (r : Requester) (br : Fin 2) (w : Word) (reason b : Nat) (p : Nat), p = pgBr br →
     (∀ bk i : Seg → Nat, bk = (fun S => 1 - S.rd p Reg.BR.BSLOT_STAT_ACTIVE) → i = (fun S => S.rd p Reg.BR.BSLOT_ADDR_INDEX / 8 * 8) →
       Writes (.bslotDataWrite g r br w) s g r p 0x408
         (fun S => S.expertEn = true ∧ S.flag p Reg.BR.BSLOT_ADDR_BANK = false ∧ S.rd p Reg.BR.BSLOT_ADDR_BUNDLE < 24 ∧
           S.bswapBusy br = false)
         (fun S => (S.each (List.range 8) fun T n => { T with
           bslots := SMap.put 0 T.bslots (kBslot br (bk S) (S.rd p Reg.BR.BSLOT_ADDR_BUNDLE) (i S + n)) (w.toNat / 16 ^ n % 4) }).wr p
           Reg.BR.BSLOT_ADDR_INDEX (i S + 8)) ∧
       Writes (.brSlotClear g r br) s g r p 0x400 (fun S => S.expertEn = true ∧ S.bswapBusy br = false)
         (fun S => { S with bslots := S.bslots.filter (fun e => !(e.1 / 512 / 24 == br.val * 2 + bk S)) }) ∧
       ((s.seg g).Open r p 0x400 → s.stampBad r = false → (s.seg g).expertEn = true → (s.seg g).bswapBusy br = false →
         ∃ u, exec (.brSlotCopy g r br) s = .next (s.setSeg g u) ∧
           (SMap.wf (fun _ => 0) (s.seg g).bslots = true → ∀ b i, b < 24 → i < 512 →
             u.bslot br (bk (s.seg g)) b i = (s.seg g).bslot br (1 - bk (s.seg g)) b i)) ∧
       Writes (.bslotDataWrite g r br w) s g r p 0x408 (fun S => S.expertEn = true ∧ S.flag p Reg.BR.BSLOT_ADDR_BANK = true)
         (fun S => S) (fun _ t => t.flag p Reg.PAGE.PAGE_FLAGS_LOCK_HIT = true)) ∧
     (∀ c ∈ [Instr.brSlotCopy g r br, .brSlotClear g r br],
       Writes c s g r p 0x400 (fun S => S.expertEn = true ∧ S.bswapBusy br = true) (fun S => S)
         (fun _ t => t.flag p Reg.PAGE.PAGE_FLAGS_LOCK_HIT = true)) ∧
     Writes (.brSlotSwapReq g r br) s g r p 0x400
       (fun S => S.expertEn = true ∧ S.bswapBusy br = false ∧ S.bslotRefusal br = some (reason, b))
       (fun S => ((S.wr p Reg.BR.BSLOT_STAT_REASON reason).wr p Reg.BR.BSLOT_STAT_FAIL_BUNDLE b).wr p Reg.BR.BSLOT_STAT_REFUSED 1)
       (fun _ t => t.latched p 19) ∧
     Writes (.brSlotSwapReq g r br) s g r p 0x400
       (fun S => S.expertEn = true ∧ S.bswapBusy br = false ∧ S.bslotRefusal br = none)
       (fun S => ((((S.wr p Reg.BR.BSLOT_CTRL_SWAP_REQ 1).wr p Reg.BR.BSLOT_STAT_SWAP_PEND 1).wr p Reg.BR.BSLOT_STAT_REASON 0).wr p
         Reg.BR.BSLOT_STAT_FAIL_BUNDLE 0).wr p Reg.BR.BSLOT_STAT_DELAYS 0))

/-- RING_CTRL commits: a join opens the bypass (R400, R405), a segment leaves through the anchor (R408), and the anchor closes
the pair a new segment will split (R408). HELLO is checked where a join stands at the handshake (R406) and taken note of
elsewhere. (The model's readings: logs 65, 66, 68, 69, 121.) -/
def Obligations.JoinAndLeave : Prop :=
  ∀ (s : State) (g : Fin 4) (r : Requester) (br : Fin 2) (h : Hello) (ring : Ring) (t : Fin 4) (n : Nat),
    (∀ told : Nat → Seg → Seg, told = (fun v S => S.wr (pgBr 0) Reg.BR.RING_CTRL_ADMIT_SEG v) →
      Writes (.join g r) s g r (pgBr 0) 0x120
        (fun S => S.switched = true ∧ S.enabled pgFlow = false ∧ S.firstC1 = none ∧ (S.joinState = 0 ∨ S.joinState = 6))
        (fun S => ((((told 0 S).modPins fun x => { x with bypOpen := true }).modCtl fun c =>
          { c with nonce := S.ftb.truncate 32, hellos := [], okTime := 0, stepped := false }).setJoin 1).wr (pgBr 0)
          Reg.BR.RING_CTRL_JOIN 1) (fun S u => Counted S u (pgBr 0) 0x8F0 1) ∧
      Writes (.join g r) s g r (pgBr 0) 0x120 (fun S => S.switched = false ∨ S.enabled pgFlow = true) (told 0)
        (fun _ u => u.flag (pgBr 0) Reg.PAGE.PAGE_FLAGS_LOCK_HIT = true) ∧
      (∀ asked : Seg → Seg, asked = (fun S => ((told 0 S).setJoin 7).wr (pgBr 0) Reg.BR.RING_CTRL_LEAVE 1) →
        Writes (.leave g r) s g r (pgBr 0) 0x120 (fun S => S.joined = true ∧ S.joinState ≠ 7 ∧ S.isAnchor = false)
          (fun S => (asked S).tellAnchor) ∧
        Writes (.leave g r) s g r (pgBr 0) 0x120
          (fun S => S.joined = true ∧ S.joinState ≠ 7 ∧ S.isAnchor = true ∧ S.ctl.ring.members ≠ [S.strap] ∧ S.ctl.rebuild = none)
          (fun S => (asked S).dropLeaver S.strap)
          (fun S u => u.ctl.ring.joined.getLsbD S.strap = false ∧ u.ctl.ring.closed.getLsbD S.strap = true) ∧
        Writes (.leave g r) s g r (pgBr 0) 0x120
          (fun S => S.joined = true ∧ S.joinState ≠ 7 ∧ S.isAnchor = true ∧ S.ctl.ring.members = [S.strap])
          (fun S => ((asked S).dropLeaver S.strap).left) (fun _ u => u.pins.bypOpen = false ∧ u.joinState = 0)) ∧
      Writes (.leave g r) s g r (pgBr 0) 0x120 (fun S => S.joined = false) (told 0) ∧
      Writes (.admitSeg g r t) s g r (pgBr 0) 0x120
        (fun S => S.flag pgSeg Reg.SEG.SEG_ID_ANCHOR = true ∧ S.ctl.ring.joined.getLsbD t = false ∧
          S.ctl.ring.members ≠ [S.strap] ∧ S.ctl.rebuild = none)
        (fun S =>
          let pair := (nextJoined S.ctl.ring.joined t false).getD S.strap
          ((((told t S).modCtl fun c => { c with admitting := some pair }).wr (pgBr 0) Reg.BR.RING_STAT_ADMIT_READY 0).wr (pgBr 0)
            Reg.BR.RING_CTRL_ADMIT 1).anchorSends
              { S.ctl.ring with closed := S.ctl.ring.closed ||| BitVec.ofNat 4 (2 ^ pair) }) ∧
      Writes (.admitSeg g r t) s g r (pgBr 0) 0x120 (fun S => S.flag pgSeg Reg.SEG.SEG_ID_ANCHOR = false) (told t)
        (fun _ u => u.flag (pgBr 0) Reg.PAGE.PAGE_FLAGS_LOCK_HIT = true)) ∧
    Does (.admitLapse g) s g (fun S => S.ctl.admitting = some n ∧ S.ctl.rebuild = none)
      (fun S => (((S.modCtl fun c => { c with admitting := none }).wr (pgBr 0) Reg.BR.RING_CTRL_ADMIT 0).wr (pgBr 0)
        Reg.BR.RING_STAT_ADMIT_READY 0).anchorSends
          { S.ctl.ring with closed := putBit4 S.ctl.ring.closed n (S.ctl.ring.shut S.ctl.ends none n) }) ∧
    Does (.admitLapse g) s g (fun S => S.ctl.admitting = none) (fun S => S) ∧
    (∀ (here : Seg → Prop) (far : Seg → Seg),
        here = (fun S => (S.br br).up = true ∧ h.segNum.val ≠ S.strap) →
        far = (fun S => ((S.wr (pgBr br) Reg.BR.BR_STAT_SELF_LOOP 0).wr (pgBr br) Reg.BR.BR_STAT_FAR_VALID 1 |>.wr (pgBr br)
          Reg.BR.BR_STAT_FAR_SEG h.segNum.val).noteBridge br) →
      Does (.helloReceive g br h) s g
        (fun S => here S ∧ S.joinState = 5 ∧ h.joined = true ∧ (h.anchorValid = false ∨ h.anchor = S.ctl.ring.anchor))
        (fun S => (far S).reportRing) ∧
      Does (.helloReceive g br h) s g (fun S => here S ∧ S.joinState = 5 ∧ h.joined = false)
        (fun S => ((far S).partSide br false).reportRing) (fun _ u => u.ctl.partSides.getLsbD br = false) ∧
      Does (.helloReceive g br h) s g
        (fun S => here S ∧ S.joinState = 5 ∧ S.joined = true ∧ h.joined = true ∧ h.anchorValid = true ∧ h.anchor ≠ S.ctl.ring.anchor)
        (fun S =>
          let T := (far S).partSide br true
          ((T.adoptRing T.ctl.ring).wr (pgBr 0) Reg.BR.RING_STAT_REASON 5).reportRing)
        (fun _ u => u.ctl.partSides.getLsbD br = true) ∧
      Does (.helloReceive g br h) s g (fun S => here S ∧ (S.joinState = 3 ∨ S.joinState = 4) ∧ (far S).helloReason br h = n ∧ n ≠ 0)
        (fun S => ((far S).joinFail n).reportRing) (fun _ u => u.joinState = 6 ∧ u.latched (pgBr 0) 16) ∧
      Does (.helloReceive g br h) s g (fun S => here S ∧ (S.joinState = 3 ∨ S.joinState = 4) ∧ (far S).helloReason br h = 0)
        (fun S => ((far S).modCtl fun c =>
          { c with hellos := (br.val, h) :: c.hellos.filter (fun e => e.1 != br.val) }).joinOn.reportRing)) ∧
    Does (.helloReceive g br h) s g (fun S => (S.br br).up = false) (fun S => S.reportRing) ∧
    Does (.joinTimeout g) s g (fun S => 1 ≤ S.joinState ∧ S.joinState ≤ 4) (fun S => S.joinFail 4)
      (fun _ u => u.joinState = 6 ∧ u.pins.bypOpen = false ∧ u.latched (pgBr 0) 16) ∧
    Does (.joinTimeout g) s g (fun S => S.joinState = 0 ∨ 5 ≤ S.joinState) (fun S => S) ∧
    Does (.joinAdmitted g ring) s g (fun S => S.joinState = 4 ∧ 4 ≤ S.ctl.okTime ∧ ring.joined.getLsbD S.strap = true)
      (fun S => S.becomeJoined ring) (fun _ u => u.joinState = 5 ∧ u.latched (pgBr 0) 17) ∧
    Does (.joinAdmitted g ring) s g (fun S => S.joinState ≠ 4 ∨ S.ctl.okTime < 4) (fun S => S)

/-- The anchor makes a new ring state of a report, judging a pair by both of its ends (R402, R403), of a request to join or
leave (R405, R408; log 121), of an unanswered beacon (R407) and of its own change; it collects every segment's report before
it sends one that it rebuilds (R430). Every joined segment adopts it; one that leaves keeps its bypass open until every
segment has (R408). A lost anchor is replaced by the lowest segment in reach (R407). A TIME frame goes out on the time bundle
of a pair that is up (R386, R409); an exchange gives the pair's offset θ, and a follower's frequency and trim where the far
side is its parent (R409); |θ| above 4 ticks suspends C1 on an open pair (R410). (The model's readings: logs 63, 67, 68, 69,
93, 121.) -/
def Obligations.RingStatesAndTime : Prop :=
  (∀ (s : State) (g far : Fin 4) (rep : RingReport) (ring : Ring) (ask : List Nat) (r0 : Ring),
     (∀ (anchor : Seg → Prop) (known : Seg → Bool) (mine : Seg → Ring → Ring) (ends : Seg → Ends),
         anchor = (fun S => S.isAnchor = true) → known = (fun S => S.ctl.ring.joined.getLsbD rep.seg) →
         ends = (fun S => Ends.take S.ctl.ends rep) →
         mine = (fun S r => Ring.report { r with joined := putBit4 r.joined rep.seg true } (ends S) S.ctl.admitting rep) →
       Does (.ringStateReport g rep) s g (fun S => anchor S ∧ known S = true ∧ rep.leave = false ∧ S.ctl.rebuild = none)
         (fun S => (S.modCtl fun c => { c with ends := ends S }).anchorSends (mine S S.ctl.ring))
         (fun S t => t.ctl.ring.ver = S.ctl.ring.ver + 1) ∧
       Does (.ringStateReport g rep) s g
         (fun S => anchor S ∧ known S = true ∧ rep.leave = false ∧ S.ctl.rebuild = some (ask, r0) ∧
           ask.filter (· != rep.seg.val) ≠ [])
         (fun S => S.modCtl fun c =>
           { c with ends := ends S, rebuild := some (ask.filter (· != rep.seg.val), mine S r0) }) ∧
       Does (.ringStateReport g rep) s g
         (fun S => anchor S ∧ known S = true ∧ rep.leave = false ∧ S.ctl.rebuild = some ([rep.seg.val], r0))
         (fun S => (S.modCtl fun c => { c with ends := ends S, rebuild := none }).anchorSends (mine S r0)) ∧
       Does (.ringStateReport g rep) s g (fun S => anchor S ∧ known S = false ∧ rep.leave = false) (fun S => S.addJoiner rep)
         (fun S t => S.ctl.rebuild = none → t.ctl.ring.joined.getLsbD rep.seg = true ∧ t.ctl.admitting = none) ∧
       Does (.ringStateReport g rep) s g (fun S => anchor S ∧ known S = true ∧ rep.leave = true) (fun S => S.dropLeaver rep.seg)
         (fun S t => S.ctl.rebuild = none → t.ctl.ring.joined.getLsbD rep.seg = false) ∧
       Does (.ringStateReport g rep) s g (fun S => ¬ anchor S ∨ (known S = false ∧ rep.leave = true)) (fun S => S) ∧
       (∀ (out : Nat → Prop) (all : Bool),
           out = (fun n => n ∈ (s.seg g).ctl.ring.members ∧ n ≠ g.val ∧ reaches (s.seg g).ctl.ring g.val n = true) →
           all = (s.seg g).ctl.ring.members.all (fun n => (s.seg (Fin.ofNat 4 n)).hasAdopted (s.seg g).ctl.ring.ver) →
         (s.seg g).inReset = false → anchor (s.seg g) →
         ∃ t, exec (.beaconSend g) s = .next t ∧ t.pending = s.pending ∧
           Follows ((s.seg g).ringSend.admitReady all) (t.seg g) ∧
           ∀ n : Fin 4, n ≠ g →
             (out n.val → (s.seg n).inReset = false → Follows ((s.seg n).beaconAnswer g.val) (t.seg n)) ∧
             (¬ out n.val → t.seg n = s.seg n)) ∧
       Does (.beaconSend g) s g (fun S => ¬ anchor S) (fun S => S) ∧
       Does (.beaconAnswerTimeout g far) s g
         (fun S => anchor S ∧ far.val ≠ S.strap ∧ S.ctl.ring.joined.getLsbD far.val = true ∧ S.ctl.rebuild = none)
         (fun S => S.anchorSends { S.ctl.ring with joined := putBit4 S.ctl.ring.joined far.val false })
         (fun _ t => t.ctl.ring.joined.getLsbD far.val = false) ∧
       Does (.beaconAnswerTimeout g far) s g (fun S => ¬ anchor S ∨ far.val = S.strap) (fun S => S)) ∧
     (∀ (new : Seg → Prop) (all : Bool),
         new = (fun S => S.joined = true ∧ (ring.ver ≠ S.ctl.ring.ver ∨ S.mismatched (pgBr 0) 0x128 = true)) →
         all = ring.members.all (fun n => (s.seg (Fin.ofNat 4 n)).hasAdopted ring.ver) →
       Does (.ringStateAdopt g ring) s g
         (fun S => new S ∧ ring.joined.getLsbD S.strap = true ∧ (S.ctl.admitting = none ∨ ring.joined = S.ctl.ring.joined))
         (fun S => (S.adoptRing ring).reportRing)
         (fun S t => ring.anchor.val ≠ S.strap → t.ctl.ring = { ring with closed := ring.closed ||| S.parted }) ∧
       Does (.ringStateAdopt g ring) s g
         (fun S => new S ∧ ring.joined.getLsbD S.strap = true ∧ S.ctl.admitting ≠ none ∧ ring.joined ≠ S.ctl.ring.joined)
         (fun S => ((S.adoptRing ring).admitEnd false).reportRing) (fun _ t => t.ctl.admitting = none) ∧
       Does (.ringStateAdopt g ring) s g
         (fun S => new S ∧ ring.joined.getLsbD S.strap = false ∧ S.joinState = 7 ∧ all = false)
         (fun S => S.adoptRing ring) (fun S t => t.joined = false ∧ t.pins.bypOpen = S.pins.bypOpen) ∧
       Does (.ringStateAdopt g ring) s g
         (fun S => new S ∧ ring.joined.getLsbD S.strap = false ∧ (S.joinState ≠ 7 ∨ all = true))
         (fun S => (S.adoptRing ring).left) (fun _ t => t.pins.bypOpen = false ∧ t.joinState = 0) ∧
       Does (.ringStateAdopt g ring) s g
         (fun S => S.joined = false ∧ S.joinState = 7 ∧ ring.ver = S.ctl.ring.ver ∧ all = true)
         (fun S => S.left) (fun _ t => t.pins.bypOpen = false ∧ t.joinState = 0)) ∧
     Does (.ringStateAdopt g ring) s g
       (fun S => (S.joined = false ∧ S.joinState ≠ 7) ∨
         (S.joined = true ∧ ring.ver = S.ctl.ring.ver ∧ S.mismatched (pgBr 0) 0x128 = false)) (fun S => S) ∧
     (∀ (r1 : Seg → Ring) (low : Seg → Nat),
         r1 = (fun S => { S.ctl.ring with joined := putBit4 S.ctl.ring.joined S.ctl.ring.anchor.val false }) →
         low = (fun S => ((r1 S).members.find? (fun n => reaches (r1 S) S.strap n)).getD S.strap) →
       Does (.anchorTimeout g) s g
         (fun S => S.joined = true ∧ S.ctl.ring.anchorValid = true ∧ S.ctl.ring.anchor.val ≠ S.strap)
         (fun S => S.adoptRing { r1 S with
           anchor := Fin.ofNat 4 (low S), ver := if low S = S.strap then S.ctl.ring.ver + 1 else S.ctl.ring.ver })) ∧
     Does (.anchorTimeout g) s g
       (fun S => S.joined = false ∨ S.ctl.ring.anchorValid = false ∨ S.ctl.ring.anchor.val = S.strap) (fun S => S)) ∧
  (∀ (s : State) (g : Fin 4) (br : Fin 2) (st : Stamps) (b : Nat),
     Does (.timeExchange g br) s g (fun S => S.timeBundle br = some b ∧ (S.br br).up = true ∧ (S.joined = true ∨ S.joinState = 4))
       (fun S => S.modBun br b fun x => { x with timeDue := true, timeSeq := x.timeSeq + 1 }) ∧
     Does (.timeExchange g br) s g (fun S => S.timeBundle br = none ∨ (S.br br).up = false) (fun S => S) ∧
     (∀ (due lost big : Seg → Prop) (theta asym : Seg → Int) (noted : Seg → Seg),
         due = (fun S => (S.br br).up = true ∧ S.joined = true ∧ S.joinState ≠ 4) →
         lost = (fun S => S.flag (pgBr br) Reg.BR.BR_STAT_TIME_LOST = true) →
         asym = (fun S => signed16 (S.rd (pgBr br) Reg.BR.TIME_ASYM)) →
         theta = (fun S => ((st.t2 - st.t1).toInt - (st.t4 - st.t3).toInt) / 2 + asym S) →
         big = (fun S => theta S < -64 ∨ 64 < theta S) →
         noted = (fun S =>
           let small := decide (-32 ≤ theta S ∧ theta S ≤ 32)
           let U := match S.timeBundle br with
             | some b => S.modBun br b fun x => { x with rxStamp := st.t4, rxSeq := st.seq }
             | none => S
           let T := (U.wr (pgBr br) Reg.BR.BR_TIME_OFFSET (low16 (theta S))).wr (pgBr br) Reg.BR.BR_STAT_TIME_OK (b2n small)
           T.setBr br { T.br br with okRun := min 4 (if small then (S.br br).okRun + 1 else 0) }) →
       Does (.timeFrameReceive g br st) s g
         (fun S => due S ∧ S.rd (pgBr 0) Reg.BR.RING_STAT_PARENT ≠ br.val + 1 ∧ ¬ lost S ∧ (¬ big S ∨ S.pairOpen br = false))
         (fun S => (noted S).reportRing) (fun S t => Counted S t (pgBr br) 0x8D0 1) ∧
       Does (.timeFrameReceive g br st) s g
         (fun S => due S ∧ S.rd (pgBr 0) Reg.BR.RING_STAT_PARENT ≠ br.val + 1 ∧ ¬ lost S ∧ big S ∧ S.pairOpen br = true)
         (fun S =>
           let T := noted S
           (((T.wr (pgBr br) Reg.BR.BR_STAT_TIME_LOST 1).wr (pgBr br) Reg.BR.BR_STAT_C1_SUSP 1).modCtl fun c =>
             { c with ring := { c.ring with susp := putBit4 c.ring.susp (T.pairNo br) true } }).reportRing)
         (fun _ t => t.latched (pgBr br) 12) ∧
       Does (.timeFrameReceive g br st) s g
         (fun S => due S ∧ S.rd (pgBr 0) Reg.BR.RING_STAT_PARENT = br.val + 1 ∧ ¬ lost S ∧ ¬ big S)
         (fun S =>
           let e := 0 - (theta S - asym S) + asym S
           let f := clamp3000 (signed16 (S.rd (pgBr 0) Reg.BR.RING_TRIM_FREQ) - e / 4)
           (((noted S).wr (pgBr 0) Reg.BR.RING_TRIM_FREQ (low16 f)).wr (pgBr 0) Reg.BR.RING_TRIM_TRIM
             (low16 (clamp3000 (f - e * 8)))).reportRing)) ∧
     Does (.timeFrameReceive g br st) s g (fun S => (S.br br).up = false) (fun S => S.reportRing))

/-- These commands take their effect wherever the rules let them run: the writes of a TEN_DOM word and TEN_DENY (R61), a
glazed word's mismatch (R430), the binding commands (R129, R131), with the refusal of R130, the slot and descriptor words,
COPY, CLEAR and their end (R238, R239, R252), STARVE_N (R244), the demotion lists' CLEAR (R266), a tile's code and ramp (R348,
R352), the DCO's lock (R353), the temperature (R349) and the levels of VACK (R351, R418). (The model's readings: logs 28, 29,
30, 38, 78, 85, 92.) -/
def Obligations.TableBindingAndCodeCommandsComplete : Prop :=
  ∀ (s : State) (g : Fin 4) (S : Seg) (r : Requester), S = s.seg g →
    (∀ (n : Fin 72) (w : Word), S.Open r pgTen (0x100 + 8 * n.val) → s.stampBad r = false → S.lockedOwners = false →
      ∃ u, Sys2Proof.Machine.exec (.tenDomWrite g r n w) s = .next (s.setSeg g u) ∧
        u.rd pgTen (Reg.TEN.TEN_DOM_DOM0.at8 n) = w.toNat % 64 ∧ u.rd pgTen (Reg.TEN.TEN_DOM_DOM1.at8 n) = w.toNat / 2 ^ 8 % 64 ∧
        u.rd pgTen (Reg.TEN.TEN_DOM_DOM2.at8 n) = w.toNat / 2 ^ 16 % 64 ∧
        u.rd pgTen (Reg.TEN.TEN_DOM_DOM3.at8 n) = w.toNat / 2 ^ 24 % 64) ∧
    (S.Open r pgTen 0x390 → s.stampBad r = false →
      ∃ u, Sys2Proof.Machine.exec (.tenDenyClear g r) s = .next (s.setSeg g u) ∧ u.word pgTen 0x390 = 0 ∧ u.word pgTen 0x394 = 0) ∧
    (∀ (p i off b : Nat) (k : Kind) (flip : Word), S.inReset = false → pageKind p = some (k, i) → k ≠ .coll →
        glazeBit k off = some b → SMap.get 0 S.flips (1024 * p + off / 4) ≠ flip →
      ∃ u, Sys2Proof.Machine.exec (.glazeMismatch g p off flip) s = .next (s.setSeg g u) ∧ u.mismatched p off = true ∧
        u.latched p b) ∧
    (∀ (n : Fin 288) (i : Byte), S.Open r (pgNi n) 0x110 → s.stampBad r = false →
      (∃ u, Sys2Proof.Machine.exec (.bindRead g r n i) s = .next (s.setSeg g u) ∧
        u.word64 (pgNi n) 0x120 = (SMap.get 0 (S.ni n).bind i.toNat).truncate 64 ∧
        u.word64 (pgNi n) 0x128 = (SMap.get 0 (S.ni n).bind i.toNat >>> 64).truncate 64) ∧
      (∃ u, Sys2Proof.Machine.exec (.bindCommit g r n i) s = .next (s.setSeg g u) ∧
        u.flag (pgNi n) Reg.NI.BIND_STAT_REFUSED = decide (r.dom ≠ 0) ∧
        (u.ni n).bind = if r.dom = 0 then
          SMap.put 0 (S.ni n).bind i.toNat (S.word64 (pgNi n) 0x128 ++ S.word64 (pgNi n) 0x120) else (S.ni n).bind) ∧
      (∃ u, Sys2Proof.Machine.exec (.bindClear g r n i) s = .next (s.setSeg g u) ∧
        u.flag (pgNi n) Reg.NI.BIND_STAT_REFUSED = decide (r.dom ≠ 0) ∧
        (u.ni n).bind = if r.dom = 0 then
          SMap.put 0 (S.ni n).bind i.toNat (SMap.get 0 (S.ni n).bind i.toNat &&& ~~~1) else (S.ni n).bind)) ∧
    (∀ (t : Fin 144) (w : Word) (n : BitVec 7) (pl o i tag : Nat),
      (S.Open r (pgRt t) 0x408 → s.stampBad r = false → S.expertEn = true → S.flag (pgRt t) Reg.ROUTER.SLOT_ADDR_BANK = false →
          S.rd (pgRt t) Reg.ROUTER.SLOT_ADDR_PLANE = pl → S.rd (pgRt t) Reg.ROUTER.SLOT_ADDR_OUT = o →
          S.rd (pgRt t) Reg.ROUTER.SLOT_ADDR_INDEX / 2 * 2 = i → hasTable t pl o = true → S.swapBusy t = false →
          S.slotBusy t = false →
        ∃ u, Sys2Proof.Machine.exec (.slotDataWrite g r t w) s = .next (s.setSeg g u) ∧
          slotIn (u.slotEntry t (S.slotShadow t) pl o i) = w.toNat % 8 ∧
          slotTag (u.slotEntry t (S.slotShadow t) pl o i) = w.toNat / 16 % 64 ∧
          slotIn (u.slotEntry t (S.slotShadow t) pl o (i + 1)) = w.toNat / 2 ^ 16 % 8 ∧
          slotTag (u.slotEntry t (S.slotShadow t) pl o (i + 1)) = w.toNat / 2 ^ 20 % 64) ∧
      (S.Open r (pgRt t) 0x244 → s.stampBad r = false → S.flag (pgRt t) Reg.ROUTER.RES_ADDR_BANK = false → S.swapBusy t = false →
          S.slotBusy t = false → S.rd (pgRt t) Reg.ROUTER.RES_ADDR_PLANE = pl → S.rd (pgRt t) Reg.ROUTER.RES_ADDR_OUT = o →
          S.rd (pgRt t) Reg.ROUTER.RES_ADDR_RTAG = tag → hasTable t pl o = true →
        ∃ u, Sys2Proof.Machine.exec (.resDataWrite g r t w) s = .next (s.setSeg g u) ∧
          u.desc t (S.slotShadow t) pl o tag = w &&& 0x871FFFFF) ∧
      (S.Open r (pgRt t) 0x400 → s.stampBad r = false → S.expertEn = true → S.slotBusy t = false → S.swapBusy t = false →
        (∃ u, Sys2Proof.Machine.exec (.slotCopy g r t) s = .next (s.setSeg g u) ∧
          u.flag (pgRt t) Reg.ROUTER.SLOT_CTRL_COPY = true) ∧
        ∃ u, Sys2Proof.Machine.exec (.slotClear g r t) s = .next (s.setSeg g u) ∧
          u.flag (pgRt t) Reg.ROUTER.SLOT_CTRL_CLEAR = true) ∧
      (S.inReset = false → S.slotBusy t = true →
        ∃ u, Sys2Proof.Machine.exec (.slotCopyClearDone g t) s = .next (s.setSeg g u) ∧ u.slotBusy t = false) ∧
      (S.Open r (pgRt t) 0x300 → s.stampBad r = false →
        ∃ u, Sys2Proof.Machine.exec (.starveNWrite g r t n) s = .next (s.setSeg g u) ∧
          u.rd (pgRt t) Reg.ROUTER.ARB_CFG_STARVE_N = n.toNat) ∧
      (S.Open r (pgRt t) 0x2E0 → s.stampBad r = false →
        (∃ u, Sys2Proof.Machine.exec (.demoteClearL0 g r t) s = .next (s.setSeg g u) ∧
          u.flag (pgRt t) Reg.ROUTER.DEMOTE_CTRL_ALL_L0 = false ∧ ∀ j, j < 16 → u.word (pgRt t) (0x260 + 4 * j) = 0) ∧
        ∃ u, Sys2Proof.Machine.exec (.demoteClearL1 g r t) s = .next (s.setSeg g u) ∧
          u.flag (pgRt t) Reg.ROUTER.DEMOTE_CTRL_ALL_L1 = false ∧ ∀ j, j < 16 → u.word (pgRt t) (0x2A0 + 4 * j) = 0) ∧
      (S.inReset = false → S.stTile t < 2 → SMap.get false S.dcoLost t = false → S.mismatched pgClk 0x110 = false →
          S.c1Tile t = false → S.effCode t ≠ S.rd pgClk (Reg.CLK.CLK_TILE_CUR.at t) →
          S.rd pgClk (Reg.CLK.CLK_TILE_STATE.at t) = 1 → S.vreq (quadOf t) ≠ 63 →
          (S.setRamp t (S.effCode t)).vreqNeed (quadOf t) ≤ S.vreq (quadOf t) → S.vwaits (quadOf t) = false →
        ∃ u, Sys2Proof.Machine.exec (.tileCodeChange g t) s = .next (s.setSeg g u) ∧ u.rampOf t = S.effCode t ∧
          u.rd pgClk (Reg.CLK.CLK_TILE_STATE.at t) = 2) ∧
      (S.inReset = false → S.rd pgClk (Reg.CLK.CLK_TILE_STATE.at t) = 2 → S.c1Tile t = false → S.rampOf t ≠ 0 →
          S.stTile t < 2 → SMap.get false S.dcoLost t = false → S.mismatched pgClk 0x110 = false → S.effCode t = S.rampOf t →
        ∃ u, Sys2Proof.Machine.exec (.dcoRampDone g t) s = .next (s.setSeg g u) ∧
          u.rd pgClk (Reg.CLK.CLK_TILE_CUR.at t) = S.rampOf t % 64 ∧ u.rampOf t = 0) ∧
      (S.inReset = false → S.stTile t < 2 → SMap.get false S.dcoLost t = false →
        ∃ u, Sys2Proof.Machine.exec (.dcoLockLost g t) s = .next (s.setSeg g u) ∧ SMap.get false u.dcoLost t = true ∧
          u.flag pgClk Reg.CLK.CLK_STAT_DCO_FAULT = true) ∧
      (S.inReset = false → SMap.get false S.dcoLost t = true →
        ∃ u, Sys2Proof.Machine.exec (.dcoLockRegained g t) s = .next (s.setSeg g u) ∧ SMap.get false u.dcoLost t = false)) ∧
    (∀ (q : Fin 4) (temp : BitVec 9), S.inReset = false →
      (∃ u, Sys2Proof.Machine.exec (.tempSample g q temp) s = .next (s.setSeg g u) ∧
        u.rd pgClk (Reg.CLK.CLK_TEMP_TEMP.at q) = temp.toNat) ∧
      (S.ctl.tileCmd = none → (∀ t : Fin 144, quadOf t = q.val → S.rampOf t = 0) →
        ∃ u, Sys2Proof.Machine.exec (.vackRise g q) s = .next (s.setSeg g u) ∧
          u.flag pgClk (Reg.CLK.CLK_V_VACK.at q) = true ∧ u.vwaits q = false) ∧
      (∃ u, Sys2Proof.Machine.exec (.vackFall g q) s = .next (s.setSeg g u) ∧
        u.flag pgClk (Reg.CLK.CLK_V_VACK.at q) = false) ∧
      (S.flag pgClk (Reg.CLK.CLK_V_VACK.at q) = false → S.vreq q ≠ 63 → S.ctl.vlow.getLsbD q.val = false →
          (S.pulse 7).phase = 0 →
        ∃ u, Sys2Proof.Machine.exec (.vackTimeout g q) s = .next (s.setSeg g u) ∧
          (u.pulse 7).flight = some ⟨0x82, BitVec.ofNat 32 q.val, false⟩))
end

