-- ==== Sys2Proof/Laws/Maps.lean ====
section
/-!
SUPPORT. Reading after writing in a sparse map, and that every operation on one keeps its canonical form.
-/
namespace Sys2Proof.Machine

variable {α : Type}

/-! ### Read after write -/

theorem SMap.get_del_same (d : α) (m : List (Nat × α)) (k : Nat) : SMap.get d (SMap.del m k) k = d := by
  induction m with
  | nil => rfl
  | cons e m ih =>
    obtain ⟨k', v⟩ := e
    by_cases h : k' = k
    · subst h; simpa [SMap.del, List.filter_cons] using ih
    · simpa [SMap.del, List.filter_cons, h, SMap.get] using ih

theorem SMap.get_del_other (d : α) (m : List (Nat × α)) {k k' : Nat} (h : k' ≠ k) :
    SMap.get d (SMap.del m k) k' = SMap.get d m k' := by
  induction m with
  | nil => rfl
  | cons e m ih =>
    obtain ⟨a, v⟩ := e
    by_cases ha : a = k
    · subst ha
      simpa [SMap.del, List.filter_cons, SMap.get, Ne.symm h] using ih
    · by_cases hb : a = k' <;> simp_all [SMap.del, SMap.get]

theorem SMap.get_ins_other (d : α) (m : List (Nat × α)) {k k' : Nat} (v : α) (h : k' ≠ k) :
    SMap.get d (SMap.ins k v m) k' = SMap.get d m k' := by
  induction m with
  | nil => simp [SMap.ins, SMap.get, Ne.symm h]
  | cons e m ih =>
    obtain ⟨a, w⟩ := e
    by_cases ha : k < a
    · simp [SMap.ins, ha, SMap.get, Ne.symm h]
    · rw [SMap.ins, if_neg ha]; by_cases hb : a = k' <;> simp [SMap.get, hb, ih]

theorem SMap.get_ins_same (d : α) (m : List (Nat × α)) (k : Nat) (v : α) :
    SMap.get d (SMap.ins k v (SMap.del m k)) k = v := by
  induction m with
  | nil => simp [SMap.del, SMap.ins, SMap.get]
  | cons e m ih =>
    obtain ⟨a, w⟩ := e
    by_cases ha : a = k
    · subst ha; simpa [SMap.del, List.filter_cons] using ih
    · have : SMap.del ((a, w) :: m) k = (a, w) :: SMap.del m k := by simp [SMap.del, ha]
      rw [this]
      by_cases hb : k < a
      · simp [SMap.ins, hb, SMap.get]
      · simp [SMap.ins, hb, SMap.get, ha, ih]

variable [DecidableEq α]

/-- A read after a write to the same key gives the value written. -/
theorem SMap.get_put_same (d : α) (m : List (Nat × α)) (k : Nat) (v : α) : SMap.get d (SMap.put d m k v) k = v := by
  unfold SMap.put
  split
  · next h => rw [SMap.get_del_same, h]
  · exact SMap.get_ins_same d m k v

/-- A write leaves every other key alone, whatever an unlisted key reads as there. -/
theorem SMap.get_put_other (d d' : α) (m : List (Nat × α)) {k k' : Nat} (v : α) (h : k' ≠ k) :
    SMap.get d' (SMap.put d m k v) k' = SMap.get d' m k' := by
  unfold SMap.put
  split
  · exact SMap.get_del_other d' m h
  · rw [SMap.get_ins_other d' _ v h, SMap.get_del_other d' m h]

/-- Reading a map whose values were mapped, where the default maps to itself. -/
theorem SMap.get_mapNorm (d : α) (f : Nat → α → α) (k : Nat) (hd : f k d = d) (m : List (Nat × α)) :
    SMap.get d (SMap.mapNorm d f m) k = f k (SMap.get d m k) := by
  induction m with
  | nil => simp [SMap.mapNorm, SMap.get, hd]
  | cons e m ih =>
    obtain ⟨a, v⟩ := e
    unfold SMap.mapNorm
    by_cases hk : a = k
    · subst hk
      split
      · next h => rw [SMap.get_del_same]; simp [SMap.get, h]
      · simp [SMap.get]
    · split
      · rw [SMap.get_del_other _ _ (Ne.symm hk), ih]; simp [SMap.get, hk]
      · simp [SMap.get, hk, ih]

/-! ### The canonical form -/

/-- The canonical form as a statement about the pairs. -/
theorem SMap.wf_iff (d : Nat → α) (m : List (Nat × α)) :
    SMap.wf d m = true ↔ m.Pairwise (fun a b => a.1 < b.1) ∧ ∀ e ∈ m, e.2 ≠ d e.1 := by
  induction m with
  | nil => simp [SMap.wf]
  | cons e m ih =>
    obtain ⟨k, v⟩ := e
    cases m with
    | nil => simp [SMap.wf]
    | cons e' m =>
      obtain ⟨k', v'⟩ := e'
      simp only [SMap.wf, Bool.and_eq_true, decide_eq_true_eq, ih, List.pairwise_cons, List.mem_cons, forall_eq_or_imp]
      constructor
      · rintro ⟨⟨hv, hk⟩, ⟨⟨hm, hp⟩, hv', hd⟩⟩
        exact ⟨⟨⟨hk, fun a ha => Nat.lt_trans hk (hm a ha)⟩, hm, hp⟩, hv, hv', hd⟩
      · rintro ⟨⟨⟨hk, -⟩, hm, hp⟩, hv, hv', hd⟩
        exact ⟨⟨hv, hk⟩, ⟨hm, hp⟩, hv', hd⟩

/-- Dropping pairs keeps the canonical form. -/
theorem SMap.wf_filter (d : Nat → α) (m : List (Nat × α)) (p : Nat × α → Bool) (h : SMap.wf d m = true) :
    SMap.wf d (m.filter p) = true := by
  rw [SMap.wf_iff] at *
  exact ⟨h.1.filter _, fun e he => h.2 e ((List.mem_filter.1 he).1)⟩

omit [DecidableEq α] in
theorem SMap.mem_ins {m : List (Nat × α)} {k : Nat} {v : α} {e : Nat × α} (h : e ∈ SMap.ins k v m) : e = (k, v) ∨ e ∈ m := by
  induction m with
  | nil => simpa [SMap.ins] using h
  | cons a m ih =>
    obtain ⟨k', v'⟩ := a
    unfold SMap.ins at h
    split at h
    · simpa using h
    · rcases List.mem_cons.1 h with h | h
      · exact .inr (by simp [h])
      · rcases ih h with h | h
        · exact .inl h
        · exact .inr (List.mem_cons_of_mem _ h)

omit [DecidableEq α] in
theorem SMap.pairwise_ins {m : List (Nat × α)} {k : Nat} {v : α} (h : m.Pairwise (fun a b => a.1 < b.1))
    (hk : ∀ e ∈ m, e.1 ≠ k) : (SMap.ins k v m).Pairwise (fun a b => a.1 < b.1) := by
  induction m with
  | nil => simp [SMap.ins]
  | cons a m ih =>
    obtain ⟨k', v'⟩ := a
    rw [List.pairwise_cons] at h
    unfold SMap.ins
    split
    · next hlt =>
      refine List.pairwise_cons.2 ⟨?_, List.pairwise_cons.2 h⟩
      intro e he
      rcases List.mem_cons.1 he with rfl | he
      · exact hlt
      · exact Nat.lt_trans hlt (h.1 e he)
    · next hlt =>
      have hne : k' ≠ k := hk (k', v') List.mem_cons_self
      refine List.pairwise_cons.2 ⟨?_, ih h.2 (fun e he => hk e (List.mem_cons_of_mem _ he))⟩
      intro e he
      rcases SMap.mem_ins he with rfl | he
      · exact Nat.lt_of_le_of_ne (Nat.le_of_not_lt hlt) hne
      · exact h.1 e he

/-- A write keeps the canonical form. -/
theorem SMap.wf_put (d : Nat → α) (m : List (Nat × α)) (k : Nat) (v : α) (h : SMap.wf d m = true) :
    SMap.wf d (SMap.put (d k) m k v) = true := by
  unfold SMap.put
  split
  · exact SMap.wf_filter d m _ h
  · next hv =>
    have hd : SMap.wf d (SMap.del m k) = true := SMap.wf_filter d m _ h
    rw [SMap.wf_iff] at hd ⊢
    refine ⟨SMap.pairwise_ins hd.1 (fun e he => ?_), fun e he => ?_⟩
    · simpa [SMap.del] using (List.mem_filter.1 he).2
    · rcases SMap.mem_ins he with rfl | he
      · exact hv
      · exact hd.2 e he

theorem SMap.mapNorm_keys {d : α} {f : Nat → α → α} {m : List (Nat × α)} {e : Nat × α} (h : e ∈ SMap.mapNorm d f m) :
    e.2 ≠ d ∧ ∃ v, (e.1, v) ∈ m := by
  induction m with
  | nil => simp [SMap.mapNorm] at h
  | cons a m ih =>
    obtain ⟨k, v⟩ := a
    unfold SMap.mapNorm at h
    split at h
    · obtain ⟨h1, w, h2⟩ := ih (List.mem_filter.1 h).1
      exact ⟨h1, w, List.mem_cons_of_mem _ h2⟩
    · next hv =>
      rcases List.mem_cons.1 h with rfl | h
      · exact ⟨hv, v, List.mem_cons_self⟩
      · obtain ⟨h1, w, h2⟩ := ih h
        exact ⟨h1, w, List.mem_cons_of_mem _ h2⟩

/-- Mapping the values keeps the canonical form. -/
theorem SMap.wf_mapNorm (d : α) (f : Nat → α → α) (m : List (Nat × α)) (h : SMap.wf (fun _ => d) m = true) :
    SMap.wf (fun _ => d) (SMap.mapNorm d f m) = true := by
  rw [SMap.wf_iff] at *
  refine ⟨?_, fun e he => (SMap.mapNorm_keys he).1⟩
  obtain ⟨h, -⟩ := h
  induction m with
  | nil => simp [SMap.mapNorm]
  | cons a m ih =>
    obtain ⟨k, v⟩ := a
    rw [List.pairwise_cons] at h
    unfold SMap.mapNorm
    split
    · exact (ih h.2).filter _
    · refine List.pairwise_cons.2 ⟨fun e he => ?_, ih h.2⟩
      obtain ⟨-, w, hw⟩ := SMap.mapNorm_keys he
      exact h.1 (e.1, w) hw

end Sys2Proof.Machine
end

