-- ==== Sys2Proof/Laws/Follows.lean ====
section
/-!
SUPPORT. What events, counters and the levels of `Seg.settle` can do to a segment, said once: `Follows`, its closure under
every operation of Flags.lean, and that updates carry it along.
-/
namespace Sys2Proof.Machine

/-! ### Words -/

theorem Seg.word_setWord_same (s : Seg) (p off : Nat) (v : Word) : (s.setWord p off v).word p off = v :=
  SMap.get_put_same _ _ _ _

theorem Seg.word_setWord_key (s : Seg) {p off p' off' : Nat} (v : Word) (h : 1024 * p' + off' / 4 ≠ 1024 * p + off / 4) :
    (s.setWord p off v).word p' off' = s.word p' off' :=
  SMap.get_put_other _ _ _ _ h

/-- A write of one word leaves every other word of every page alone. -/
theorem Seg.word_setWord_other (s : Seg) {p off p' off' : Nat} (v : Word) (h1 : off < 4096) (h2 : off' < 4096)
    (h3 : off % 4 = 0) (h4 : off' % 4 = 0) (h : p' ≠ p ∨ off' ≠ off) : (s.setWord p off v).word p' off' = s.word p' off' := by
  apply Seg.word_setWord_key
  omega

/-! ### `Follows` -/

theorem Follows.refl (a : Seg) : Follows a a := ⟨rfl, fun _ _ _ _ _ => rfl, fun _ => ⟨rfl, id⟩⟩

theorem Follows.trans {a b c : Seg} (h : Follows a b) (k : Follows b c) : Follows a c where
  core := k.core.trans h.core
  words p off h1 h2 h3 := (k.words p off h1 h2 h3).trans (h.words p off h1 h2 h3)
  nis n := by
    obtain ⟨h1, h2⟩ := h.nis n
    obtain ⟨k1, k2⟩ := k.nis n
    refine ⟨?_, fun hu => h2 (k2 hu)⟩
    rw [k1, h1]

theorem Follows.of_setWord (a : Seg) {p off : Nat} (v : Word) (h : ownWord p off = true) (h1 : off < 4096)
    (h2 : off % 4 = 0) : Follows a (a.setWord p off v) where
  core := rfl
  words p' off' h3 h4 h5 := by
    apply Seg.word_setWord_other _ _ h1 h3 h2 h4
    by_cases hp : p' = p
    · subst hp; right; rintro rfl; rw [h] at h5; cases h5
    · exact .inl hp
  nis n := ⟨rfl, id⟩

theorem Follows.setCnt (a : Seg) (p v off n : Nat) : Follows a (a.setCnt p v off n) :=
  ⟨rfl, fun _ _ _ _ _ => rfl, fun _ => ⟨rfl, id⟩⟩

theorem Follows.setPulse (a : Seg) (l : Nat) (x : Pulse) : Follows a (a.setPulse l x) :=
  ⟨rfl, fun _ _ _ _ _ => rfl, fun _ => ⟨rfl, id⟩⟩

theorem ownWord_evt (p : Nat) : ownWord p 0x010 = true := by simp [ownWord]
theorem ownWord_flags (p : Nat) : ownWord p 0x018 = true := by simp [ownWord]

theorem Follows.evt_bit (a : Seg) (p b : Nat) (v : Bool) : Follows a (a.setBit p 0x010 b v) :=
  Follows.of_setWord a _ (ownWord_evt p) (by show 0x010 < 4096; decide) (by show 0x010 % 4 = 0; decide)

theorem srcTile_lt {src t : Nat} (h : srcTile src = some t) : t < 144 := by
  unfold srcTile at h
  split at h
  · cases h; omega
  · split at h
    · cases h; unfold bankTile tileOf; omega
    · split at h
      · cases h; omega
      · cases h

/-- A lost pulse marks its tile in CLK_OVR. -/
theorem Follows.ovr (s : Seg) (src : Nat) : Follows s (match srcTile src with
    | some t => s.setBit pgClk (0x380 + 4 * (t / 32)) (t % 32) true
    | none => s) := by
  split
  · next t ht =>
    have h1 := srcTile_lt ht
    have h2 : t / 32 < 5 := by omega
    refine Follows.of_setWord s _ ?_ ?_ ?_
    · simp [ownWord, pgClk]; omega
    · show 0x380 + 4 * (t / 32) < 4096; omega
    · show (0x380 + 4 * (t / 32)) % 4 = 0; omega
  · exact Follows.refl s

theorem Follows.events (fuel : Nat) :
    (∀ (s : Seg) (src : Nat) (e : EvRec), Follows s (Seg.pulseN fuel s src e)) ∧
    (∀ (s : Seg) (p b : Nat) (x : Word) (inj : Bool), Follows s (Seg.evtN fuel s p b x inj)) ∧
    (∀ (s : Seg) (p v off n : Nat), Follows s (Seg.countN fuel s p v off n)) := by
  induction fuel with
  | zero =>
    refine ⟨fun s _ _ => ?_, fun s _ _ _ _ => ?_, fun s _ _ _ _ => ?_⟩
    · unfold Seg.pulseN; exact Follows.refl s
    · unfold Seg.evtN; exact Follows.refl s
    · unfold Seg.countN; exact Follows.refl s
  | succ fuel ih =>
    obtain ⟨ih1, ih2, ih3⟩ := ih
    refine ⟨fun s src e => ?_, fun s p b x inj => ?_, fun s p v off n => ?_⟩
    · unfold Seg.pulseN
      split
      · exact Follows.refl s
      · dsimp only
        split
        · split
          · exact (Follows.setPulse ..).trans (ih3 _ _ _ _ _)
          · exact Follows.setPulse ..
        · split
          · exact Follows.setPulse ..
          · exact (((Follows.setPulse s src _).trans (ih3 _ _ _ _ _)).trans (Follows.ovr _ src)).trans (ih2 _ _ _ _ _)
    · unfold Seg.evtN
      split
      · exact Follows.refl s
      · dsimp only
        refine (Follows.evt_bit s p b true).trans ?_
        split
        · exact Follows.refl _
        · split
          · exact ih1 _ _ _
          · exact Follows.refl _
    · unfold Seg.countN
      dsimp only
      refine (Follows.setCnt s p v off (satAdd count48Max (s.cnt p v off) n)).trans ?_
      split
      · split
        · exact Follows.refl _
        · exact (Follows.of_setWord _ _ (ownWord_flags p) (by decide) (by decide)).trans (ih2 _ _ _ _ _)
      · exact Follows.refl _

theorem Follows.raise (s : Seg) (src : Nat) (c : Byte) (x : Word) (inj : Bool) : Follows s (s.raise src c x inj) :=
  (Follows.events evtDepth).1 _ _ _

theorem Follows.evt (s : Seg) (p b : Nat) (x : Word) (inj : Bool) : Follows s (s.evt p b x inj) :=
  (Follows.events evtDepth).2.1 _ _ _ _ _

theorem Follows.countV (s : Seg) (p v off n : Nat) : Follows s (s.countV p v off n) :=
  (Follows.events evtDepth).2.2 _ _ _ _ _

theorem Follows.count (s : Seg) (p off : Nat) : Follows s (s.count p off) := Follows.countV ..
theorem Follows.countBy (s : Seg) (p off n : Nat) : Follows s (s.countBy p off n) := Follows.countV ..

theorem Follows.countMax (s : Seg) (p v off n : Nat) : Follows s (s.countMax p v off n) := by
  unfold Seg.countMax
  dsimp only
  split
  · exact Follows.countV ..
  · exact Follows.refl s

theorem Follows.cfgEvent (s : Seg) (p : Nat) : Follows s (s.cfgEvent p) := (Follows.evt ..).trans (Follows.count ..)

theorem Follows.flag (s : Seg) (p : Nat) (lo hi v : Nat) : Follows s (s.wr p ⟨0x018, hi, lo⟩ v) :=
  Follows.of_setWord s _ (ownWord_flags p) (by show 0x018 < 4096; decide) (by show 0x018 % 4 = 0; decide)

theorem Follows.lockHit (s : Seg) (p : Nat) : Follows s (s.lockHit p) :=
  ((Follows.flag s p 2 2 1).trans (Follows.count ..)).trans (Follows.cfgEvent ..)

theorem Follows.guardFail (s : Seg) (p : Nat) : Follows s (s.guardFail p) :=
  ((Follows.flag s p 1 1 1).trans (Follows.count ..)).trans (Follows.cfgEvent ..)

theorem Follows.badWidth (s : Seg) (p : Nat) : Follows s (s.badWidth p) := (Follows.flag s p 3 3 1).trans (Follows.cfgEvent ..)
theorem Follows.cfgIgnored (s : Seg) (p : Nat) : Follows s (s.cfgIgnored p) :=
  (Follows.flag s p 0 0 1).trans (Follows.cfgEvent ..)

/-! ### `Seg.settle` -/

theorem Follows.noteAvail (s : Seg) : Follows s s.noteAvail := by
  unfold Seg.noteAvail
  dsimp only
  split
  · exact Follows.refl s
  · have h := Follows.of_setWord s (p := pgFlow) (off := Reg.FLOWWIN.FE_AVAIL.off) (BitVec.ofNat 32 s.feAvail)
      (by decide) (by decide) (by decide)
    split
    · exact h
    · exact h.trans (Follows.evt ..)

theorem Seg.ni_settleUp (s : Seg) (n : Nat) :
    s.settleUp.ni n = if s.upAllowed n (s.ni n) then s.ni n else (s.ni n).down := by
  unfold Seg.settleUp Seg.ni
  dsimp only
  rw [SMap.get_mapNorm]
  split <;> rfl

theorem Follows.settleUp (s : Seg) : Follows s s.settleUp where
  core := rfl
  words _ _ _ _ _ := rfl
  nis n := by
    rw [Seg.ni_settleUp]
    split
    · exact ⟨rfl, id⟩
    · exact ⟨rfl, fun h => by simp [Ni.down] at h⟩

/-- What `Seg.settle` can do. -/
theorem Follows.settle (s : Seg) : Follows s s.settle := (Follows.noteAvail s).trans (Follows.settleUp _)

/-! ### Updates carry `Follows` along -/

theorem Follows.setWord {a b : Seg} (h : Follows a b) (p off : Nat) (v : Word) (h1 : off < 4096) (h2 : off % 4 = 0) :
    Follows (a.setWord p off v) (b.setWord p off v) where
  core := h.core
  words p' off' h3 h4 h5 := by
    by_cases hk : p' = p ∧ off' = off
    · obtain ⟨rfl, rfl⟩ := hk
      rw [Seg.word_setWord_same, Seg.word_setWord_same]
    · rw [Seg.word_setWord_other _ _ h1 h3 h2 h4 (by omega), Seg.word_setWord_other _ _ h1 h3 h2 h4 (by omega)]
      exact h.words p' off' h3 h4 h5
  nis n := h.nis n

theorem Follows.rd {a b : Seg} (h : Follows a b) (p : Nat) (f : Field) (h1 : f.off < 4096) (h2 : f.off % 4 = 0)
    (h3 : ownWord p f.off = false) : b.rd p f = a.rd p f := by
  unfold Seg.rd; rw [h.words p f.off h1 h2 h3]

theorem Follows.wr {a b : Seg} (h : Follows a b) (p : Nat) (f : Field) (v : Nat) (h1 : f.off < 4096) (h2 : f.off % 4 = 0)
    (h3 : ownWord p f.off = false) : Follows (a.wr p f v) (b.wr p f v) := by
  unfold Seg.wr; rw [h.words p f.off h1 h2 h3]; exact h.setWord p f.off _ h1 h2

/-- An update of fields other than registers, counters, pulses and sites. -/
theorem Follows.update {a b : Seg} (h : Follows a b) (u : Seg → Seg) (hc : ∀ x : Seg, (u x).core = u x.core)
    (hr : ∀ x : Seg, (u x).regs = x.regs) (hs : ∀ x : Seg, (u x).strap = x.strap) (hn : ∀ x : Seg, (u x).nis = x.nis) :
    Follows (u a) (u b) where
  core := by rw [hc, hc, h.core]
  words p off h1 h2 h3 := by
    have := h.words p off h1 h2 h3
    unfold Seg.word at *
    rw [hr, hr, hs, hs]
    exact this
  nis n := by
    have := h.nis n
    unfold Seg.ni at *
    rw [hn, hn]
    exact this

theorem Follows.strap {a b : Seg} (h : Follows a b) : b.strap = a.strap :=
  show b.core.strap = a.core.strap by rw [h.core]

theorem Follows.modCtl {a b : Seg} (h : Follows a b) (f : Ctl → Ctl) : Follows (a.modCtl f) (b.modCtl f) :=
  h.update (·.modCtl f) (fun _ => rfl) (fun _ => rfl) (fun _ => rfl) (fun _ => rfl)
theorem Follows.modPins {a b : Seg} (h : Follows a b) (f : Pins → Pins) : Follows (a.modPins f) (b.modPins f) :=
  h.update (·.modPins f) (fun _ => rfl) (fun _ => rfl) (fun _ => rfl) (fun _ => rfl)
theorem Follows.modEp {a b : Seg} (h : Follows a b) (l : Nat) (f : Ep → Ep) : Follows (a.modEp l f) (b.modEp l f) :=
  h.update (·.modEp l f) (fun _ => rfl) (fun _ => rfl) (fun _ => rfl) (fun _ => rfl)
theorem Follows.modBank {a b : Seg} (h : Follows a b) (l : Nat) (f : Bank → Bank) : Follows (a.modBank l f) (b.modBank l f) :=
  h.update (·.modBank l f) (fun _ => rfl) (fun _ => rfl) (fun _ => rfl) (fun _ => rfl)
theorem Follows.modSrc {a b : Seg} (h : Follows a b) (l : Nat) (f : Src → Src) : Follows (a.modSrc l f) (b.modSrc l f) :=
  h.update (·.modSrc l f) (fun _ => rfl) (fun _ => rfl) (fun _ => rfl) (fun _ => rfl)
theorem Follows.modBun {a b : Seg} (h : Follows a b) (br n : Nat) (f : Bundle → Bundle) :
    Follows (a.modBun br n f) (b.modBun br n f) :=
  h.update (·.modBun br n f) (fun _ => rfl) (fun _ => rfl) (fun _ => rfl) (fun _ => rfl)
theorem Follows.modBay {a b : Seg} (h : Follows a b) (n : Nat) (f : Bay → Bay) : Follows (a.modBay n f) (b.modBay n f) :=
  h.update (·.modBay n f) (fun _ => rfl) (fun _ => rfl) (fun _ => rfl) (fun _ => rfl)
theorem Follows.heal {a b : Seg} (h : Follows a b) (p off : Nat) : Follows (a.heal p off) (b.heal p off) :=
  h.update (·.heal p off) (fun _ => rfl) (fun _ => rfl) (fun _ => rfl) (fun _ => rfl)
theorem Follows.zeroBank {a b : Seg} (h : Follows a b) (n : Nat) : Follows (a.zeroBank n) (b.zeroBank n) :=
  h.update (·.zeroBank n) (fun _ => rfl) (fun _ => rfl) (fun _ => rfl) (fun _ => rfl)

/-- An update of one site that does not look at UP and leaves it. -/
theorem Follows.modNi {a b : Seg} (h : Follows a b) (n : Nat) (f : Ni → Ni)
    (hf : ∀ (x : Ni) (u : Bool), f { x with up := u } = { f x with up := u }) : Follows (a.modNi n f) (b.modNi n f) where
  core := h.core
  words p off h1 h2 h3 := h.words p off h1 h2 h3
  nis m := by
    unfold Seg.modNi Seg.setNi
    have hh := h.nis m
    by_cases hm : m = n
    · subst hm
      simp only [Seg.ni, SMap.get_put_same] at hh ⊢
      generalize SMap.get {} a.nis m = x at hh
      generalize SMap.get {} b.nis m = y at hh
      obtain ⟨h1, h2⟩ := hh
      have hx : (f x).up = x.up := by
        have e : f x = { f x with up := x.up } := hf x x.up
        rw [e]
      have hy : f y = { f x with up := y.up } := by rw [h1]; exact hf x y.up
      rw [hy]
      exact ⟨rfl, fun hu => by rw [hx]; exact h2 hu⟩
    · simp only [Seg.ni, SMap.get_put_other _ _ _ _ hm] at hh ⊢
      exact hh

/-- An update of one site after which UP does not depend on what it was. -/
theorem Follows.modNi_up {a b : Seg} (h : Follows a b) (n : Nat) (f : Ni → Ni)
    (hf : ∀ (x : Ni) (u : Bool), f { x with up := u } = f x) : Follows (a.modNi n f) (b.modNi n f) where
  core := h.core
  words p off h1 h2 h3 := h.words p off h1 h2 h3
  nis m := by
    unfold Seg.modNi Seg.setNi
    have hh := h.nis m
    by_cases hm : m = n
    · subst hm
      simp only [Seg.ni, SMap.get_put_same] at hh ⊢
      generalize SMap.get {} a.nis m = x at hh
      generalize SMap.get {} b.nis m = y at hh
      have hy : f y = f x := by rw [hh.1]; exact hf x y.up
      rw [hy]
      exact ⟨rfl, id⟩
    · simp only [Seg.ni, SMap.get_put_other _ _ _ _ hm] at hh ⊢
      exact hh

/-! ### Commands -/

/-- A command that acts on one segment gives what its effect gives. -/
theorem Gives.onSeg {c : Instr} {s : State} {g : Fin 4} {f : Seg → Seg} {e : Seg} (hx : exec c s = onSeg s g f)
    (hr : (s.seg g).inReset = false) (h : Follows e (f (s.seg g))) : Gives c s g e := by
  refine ⟨(f (s.seg g)).settle, ?_, h.trans (Follows.settle _)⟩
  rw [hx, Sys2Proof.Machine.onSeg, State.modSeg, hr]
  rfl

end Sys2Proof.Machine
end

