-- ==== Sys2Proof/Laws/Access.lean ====
section
/-!
SUPPORT. What a 32-bit write, and a guarded pair, of a requester whose way is open come to, said once.
-/
namespace Sys2Proof.Machine

theorem addrPage_mgmtAddr (g : Nat) {p off : Nat} (hp : p < 16384) (ho : off < 4096) : addrPage (mgmtAddr g p off) = p := by
  simp only [addrPage, mgmtAddr, slice, BitVec.toNat_ofNat]; omega

theorem addrOff_mgmtAddr (g : Nat) {p off : Nat} (ho : off < 4096) : addrOff (mgmtAddr g p off) = off := by
  simp only [addrOff, mgmtAddr, slice, BitVec.toNat_ofNat]; omega

theorem Follows.when {a b : Seg} (h : Follows a b) (c : Bool) (f : Seg → Seg) (hf : ∀ x, Follows x (f x)) :
    Follows a (b.when c f) := by
  unfold Seg.when; split
  · exact h.trans (hf _)
  · exact h

theorem Follows.setMp {a b : Seg} (h : Follows a b) (m : Mp) : Follows (a.setMp m) (b.setMp m) :=
  h.update (·.setMp m) (fun _ => rfl) (fun _ => rfl) (fun _ => rfl) (fun _ => rfl)

theorem Follows.mp {a b : Seg} (h : Follows a b) : b.mp = a.mp := show b.core.mp = a.core.mp by rw [h.core]
theorem Follows.ctl {a b : Seg} (h : Follows a b) : b.ctl = a.ctl := show b.core.ctl = a.core.ctl by rw [h.core]

/-- The completion of a write without an error. -/
theorem Seg.answer_ok (s : Seg) (a : Access) (hw : a.wr = true) (hc : a.cpl = none) :
    Follows (s.acked a.req) (s.answer a 0 0) := by
  unfold Seg.answer Seg.acked Seg.when
  cases hr : a.req with
  | mp =>
    have h : Follows s (s.count pgSeg 0x820) := Follows.count ..
    simp only [hw, bne_self_eq_false, Bool.false_eq_true, ↓reduceIte, ne_eq, not_true_eq_false, Bool.true_eq_false,
      and_false, h.mp]
    exact h.setMp _
  | agent e d =>
    have h : Follows s (s.count pgSeg 0x828) := Follows.count ..
    simpa [hr, hc] using h

theorem Seg.tileWakeReq_up (s : Seg) (t off : Nat) (h : s.stTile t = 0) : s.tileWakeReq t off = s := by
  simp [Seg.tileWakeReq, Seg.when, sleeps, h]

theorem Seg.bankWakeReq_up (s : Seg) (b : Nat) (h : s.stBank b = 0) : s.bankWakeReq b = s := by
  simp [Seg.bankWakeReq, h]

theorem Seg.wakePage_up (s : Seg) (k : Kind) (i : Nat) (h : s.pageState k i = 0) : s.wakePage k i = s := by
  cases k <;> simp only [Seg.wakePage, Seg.pageState] at *
  · exact s.tileWakeReq_up _ _ h
  · exact s.tileWakeReq_up _ _ h
  · split at h
    · cases h
    · exact s.bankWakeReq_up _ h

/-- The error rows look at nothing of a 32-bit write but its address and requester, outside SOAK. -/
theorem Seg.accessError_write (s : Seg) (a : Access) (hw : a.wr = true) (hz : a.size = 2) (hb : a.badDom = false)
    (hs : s.soak = false) : s.accessError a = s.accessError { req := a.req, wr := true, size := 2, addr := a.addr } := by
  simp only [Seg.accessError, hs, Bool.false_and, Bool.false_eq_true, ↓reduceIte, hw, hz, Seg.tenantOk, hb]

/-- An access that passes the error rows and is no guarded write reaches its unit. -/
theorem Seg.decideAccess_go (s : Seg) (a : Access) {k : Kind} {i : Nat} (hk : pageKind (addrPage a.addr) = some (k, i))
    (he : s.accessError a = 0) (hw : a.wr = true) (hu : s.pageState k i = 0) (hf : addrOff a.addr < 0xF00 ∨ s.factory = true)
    (hg : s.ctl.guards = []) (hc : a.committed = true ∨ absentWord k i (addrOff a.addr) = true ∨
      (wordRows k (addrOff a.addr)).any (fun r => r.acc == .wg) = false) :
    s.decideAccess a = (s.plainWrite k i (addrPage a.addr) (addrOff a.addr) a, .done 0 0) := by
  have hr : s.reachUnit k i a = (s.plainWrite k i (addrPage a.addr) (addrOff a.addr) a, .done 0 0) := by
    unfold Seg.reachUnit
    simp only [s.wakePage_up k i hu, hu, hw]
    rfl
  unfold Seg.decideAccess Seg.decideRows
  simp only [hk, he, hw, ne_eq, not_true_eq_false, decide_false, Bool.false_and, Bool.false_eq_true, ↓reduceIte]
  cases hcm : a.committed with
  | true => simpa [hk] using hr
  | false =>
    have hq : (decide (0xF00 ≤ addrOff a.addr) && !s.factory) = false := by
      rcases hf with h | h
      · simp; omega
      · simp [h]
    have hn : (!absentWord k i (addrOff a.addr) && (wordRows k (addrOff a.addr)).any (fun r => r.acc == .wg)) = false := by
      rcases hc with h | h | h
      · rw [hcm] at h; cases h
      · rw [h]; rfl
      · rw [h, Bool.and_false]
    have hgr : s.guardRow a k i = .go s a := by
      unfold Seg.guardRow
      simp only [guardWord, hg, List.find?_nil, List.any_nil, Bool.false_eq_true, ↓reduceIte, hn]
    cases hps : a.passed with
    | true => simpa [hk] using hr
    | false =>
      simp only [hgr, hq]
      simpa [hk] using hr

/-- An access that does not wait, where none waits before it. -/
theorem Seg.submit_open (s : Seg) (a : Access) (h1 : s.mp.ready = true) (h2 : s.ctl.stalled = [])
    (h3 : a.req = .mp → s.mp.half = none) : s.submit a = s.runAccess a := by
  have hq : s.retryStalled = s := by
    unfold Seg.retryStalled
    rw [h2]
    exact Seg.runStalled.eq_1 s
  have hh : (if a.req == .mp then s.mp.half else none) = none := by
    by_cases hm : a.req = .mp
    · rw [h3 hm]; exact ite_self _
    · rw [if_neg (by simpa using hm)]
  unfold Seg.submit
  simp only [hh, hq, h1, h2]
  rfl

/-- An access that a row gives, where its requester's domain word does not mismatch. -/
theorem Seg.give_open (s : Seg) (a : Access) (h1 : s.mp.ready = true) (h2 : s.ctl.stalled = [])
    (h3 : a.req = .mp → s.mp.half = none) (h5 : a.badDom = false) :
    s.give ⟨a.req, false⟩ a = s.runAccess a := by
  have : ({ a with req := a.req, badDom := false } : Access) = a := by rw [← h5]
  unfold Seg.give
  rw [this, s.submit_open a h1 h2 h3]

/-- An access decided at once, without an error. -/
theorem Seg.runAccess_done (s t : Seg) (a : Access) (h : s.decideAccess a = (t, .done 0 0)) : s.runAccess a = t.answer a 0 0 := by
  unfold Seg.runAccess
  rw [h]

theorem Seg.plainWrite_word (s : Seg) (k : Kind) (i p off : Nat) (a : Access) (hz : a.size = 2)
    (hc : counterWord k i off = false) :
    s.plainWrite k i p off a = s.storeWord k i p off (a.data.truncate 32) a.committed a.req a.told := by
  unfold Seg.plainWrite
  rw [hc, hz]
  rfl

/-- A 32-bit write to a word that no guard protects, with the way open. -/
theorem Seg.regWrite_open (s : Seg) (r : Requester) {p off i : Nat} {k : Kind} (v : Word) (h : s.Open r p off)
    (hk : pageKind p = some (k, i)) (hp : p < 16384) (ho : off < 0xF00) (hc : counterWord k i off = false)
    (hg : absentWord k i off = true ∨ (wordRows k off).any (fun r => r.acc == .wg) = false) :
    Follows ((s.storeWord k i p off v false r none).acked r) (s.regWrite ⟨r, false⟩ p off v) := by
  have ho' : off < 4096 := by omega
  have hd := s.decideAccess_go (k := k) (i := i)
    { req := r, wr := true, size := 2, addr := mgmtAddr s.strap p off, data := v.zeroExtend 64 }
    (by rw [addrPage_mgmtAddr _ hp ho', hk])
    (by rw [s.accessError_write _ rfl rfl rfl h.calm]; exact h.ok) rfl (h.up k i hk)
    (by rw [addrOff_mgmtAddr _ ho']; exact .inl ho) h.free
    (by rw [addrOff_mgmtAddr _ ho']; exact .inr hg)
  rw [addrPage_mgmtAddr _ hp ho', addrOff_mgmtAddr _ ho', Seg.plainWrite_word _ _ _ _ _ _ rfl hc] at hd
  have e : (v.zeroExtend 64).truncate 32 = v := by simp
  have hd := hd.trans (congrArg (fun w => (s.storeWord k i p off w false r none, Verdict.done 0 0)) e)
  unfold Seg.regWrite
  rw [Seg.give_open _ { req := r, wr := true, size := 2, addr := mgmtAddr s.strap p off, data := v.zeroExtend 64 } h.ready h.idle
    h.half rfl, Seg.runAccess_done _ _ _ hd]
  exact Seg.answer_ok (s.storeWord k i p off v false r none)
    { req := r, wr := true, size := 2, addr := mgmtAddr s.strap p off, data := v.zeroExtend 64 } rfl rfl

/-! ### Guarded pairs (R41, R44) -/

theorem Follows.core_eq {a b : Seg} {α : Type} (h : Follows a b) (f : Seg → α) (hf : ∀ s : Seg, f s.core = f s) : f b = f a := by
  rw [← hf b, h.core, hf a]

theorem Follows.flag_eq {a b : Seg} (h : Follows a b) (p : Nat) (f : Field) (h1 : f.off < 4096) (h2 : f.off % 4 = 0)
    (h3 : ownWord p f.off = false) : b.flag p f = a.flag p f := by
  unfold Seg.flag; rw [h.rd p f h1 h2 h3]

theorem Follows.stTile {a b : Seg} (h : Follows a b) {t : Nat} (ht : t < 144) : b.stTile t = a.stTile t := by
  refine h.rd _ _ ?_ ?_ ?_
  · show 0x200 + 4 * (t / 8) < 4096; omega
  · show (0x200 + 4 * (t / 8)) % 4 = 0; omega
  · simp [ownWord, pgPwr, pgClk, pgFlow]; omega

theorem Follows.stBank {a b : Seg} (h : Follows a b) {n : Nat} (hn : n < 72) : b.stBank n = a.stBank n := by
  refine h.rd _ _ ?_ ?_ ?_
  · show 0x250 + 4 * (n / 8) < 4096; omega
  · show (0x250 + 4 * (n / 8)) % 4 = 0; omega
  · simp [ownWord, pgPwr, pgClk, pgFlow]; omega

theorem Follows.soak {a b : Seg} (h : Follows a b) : b.soak = a.soak :=
  h.flag_eq _ _ (by decide) (by decide) (by decide)

theorem page_or {c : Prop} [Decidable c] {k k' : Kind} {x i : Nat} {y : Option (Kind × Nat)}
    (h : (if c then some (k, x) else y) = some (k', i)) : (c ∧ k = k' ∧ x = i) ∨ (¬c ∧ y = some (k', i)) := by
  by_cases hc : c
  · rw [if_pos hc] at h
    have := Option.some.inj h
    exact .inl ⟨hc, congrArg Prod.fst this, congrArg Prod.snd this⟩
  · rw [if_neg hc] at h; exact .inr ⟨hc, h⟩

theorem pageKind_router {p i : Nat} (h : pageKind p = some (.router, i)) : i < 144 := by
  unfold pageKind at h
  iterate 12
    rcases page_or h with ⟨hc, hk, hi⟩ | ⟨hc, h⟩
    · first | (cases hk; done) | (subst hi; omega)
  cases h

theorem pageKind_ni {p i : Nat} (h : pageKind p = some (.ni, i)) : i < 288 := by
  unfold pageKind at h
  iterate 12
    rcases page_or h with ⟨hc, hk, hi⟩ | ⟨hc, h⟩
    · first | (cases hk; done) | (subst hi; omega)
  cases h

theorem pageKind_bank {p i : Nat} (h : pageKind p = some (.bank, i)) : i < 72 := by
  unfold pageKind at h
  iterate 12
    rcases page_or h with ⟨hc, hk, hi⟩ | ⟨hc, h⟩
    · first | (cases hk; done) | (subst hi; omega)
  cases h

theorem bankTile_lt {b : Nat} (h : b < 72) : bankTile b < 144 := by
  have : ∀ c : Fin 72, bankTile c < 144 := by decide
  exact this ⟨b, h⟩

theorem Follows.pageState {a b : Seg} (h : Follows a b) {p i : Nat} {k : Kind} (hk : pageKind p = some (k, i)) :
    b.pageState k i = a.pageState k i := by
  cases k <;> simp only [Seg.pageState]
  · exact h.stTile (pageKind_router hk)
  · have := pageKind_ni hk
    exact h.stTile (by omega)
  · have hb := pageKind_bank hk
    rw [h.stBank hb, h.stTile (bankTile_lt hb)]

theorem Follows.kilnIsolates {a b : Seg} (h : Follows a b) (l : Nat) : b.kilnIsolates l = a.kilnIsolates l :=
  h.core_eq (fun s => s.kilnIsolates l) (fun _ => rfl)

theorem Follows.tenantOk {a b : Seg} (h : Follows a b) (x : Access) (p off : Nat) : b.tenantOk x p off = a.tenantOk x p off := by
  have h1 : b.rd p Reg.PAGE.PAGE_OWNER_OWNER_DOM = a.rd p Reg.PAGE.PAGE_OWNER_OWNER_DOM :=
    h.rd _ _ (by decide) (by decide) (by simp [ownWord, Reg.PAGE.PAGE_OWNER_OWNER_DOM, Reg.FLOWWIN.FE_AVAIL])
  have h2 : b.flag p Reg.PAGE.PAGE_OWNER_READ_ANY = a.flag p Reg.PAGE.PAGE_OWNER_READ_ANY :=
    h.flag_eq _ _ (by decide) (by decide) (by simp [ownWord, Reg.PAGE.PAGE_OWNER_READ_ANY, Reg.FLOWWIN.FE_AVAIL])
  unfold Seg.tenantOk
  rw [h1, h2]

/-- Events, counters and UP do not change what an access is answered with. -/
theorem Follows.accessError {a b : Seg} (h : Follows a b) (x : Access) : b.accessError x = a.accessError x := by
  unfold Seg.accessError
  simp only [h.strap, h.soak, h.tenantOk, h.kilnIsolates]
  split
  · rfl
  · split
    · rfl
    · next k i hk => rw [h.pageState hk]

/-- The two writes of a pair are decided alike. -/
theorem Seg.accessError_pair (s : Seg) (r : Requester) {p off : Nat} (hp : p < 16384) (ho : off < 4092) (h4 : off % 4 = 0)
    (h18 : off ≠ 0x018) (hs : s.soak = false)
    (h : s.accessError { req := r, wr := true, size := 2, addr := mgmtAddr s.strap p off } = 0) :
    s.accessError { req := r, wr := true, size := 2, addr := mgmtAddr s.strap p (off + 4) } = 0 := by
  have e1 : addrMbz (mgmtAddr s.strap p (off + 4)) = addrMbz (mgmtAddr s.strap p off) := by
    simp only [addrMbz, mgmtAddr, slice, BitVec.toNat_ofNat]; omega
  have e2 : addrSeg (mgmtAddr s.strap p (off + 4)) = addrSeg (mgmtAddr s.strap p off) := by
    simp only [addrSeg, mgmtAddr, slice, BitVec.toNat_ofNat]; omega
  have e3 : (off + 4) % 4 = 0 := by omega
  have e4 : ((off + 4) / 4 * 4 == 0x01C) = false := by simp; omega
  unfold Seg.accessError at *
  simp only [e1, e2, addrPage_mgmtAddr _ hp (show off + 4 < 4096 by omega), addrPage_mgmtAddr _ hp (show off < 4096 by omega),
    addrOff_mgmtAddr _ (show off + 4 < 4096 by omega), addrOff_mgmtAddr _ (show off < 4096 by omega), hs, Bool.false_and,
    Bool.false_eq_true, ↓reduceIte] at *
  split at h
  · cases h
  · next hn =>
    rw [if_neg hn]
    cases hk : pageKind p with
    | none => rw [hk] at h; cases h
    | some ki =>
      obtain ⟨k, i⟩ := ki
      rw [hk] at h
      show (if s.pageState k i = 4 then _ else _) = _
      replace h : (if s.pageState k i = 4 then _ else _) = _ := h
      have hw : widthOk k i true (2 : BitVec 2).toNat (off + 4) = true := by simp [widthOk, e3]
      have ht : s.tenantOk { req := r, wr := true, size := 2, addr := mgmtAddr s.strap p off } p off = true →
          s.tenantOk { req := r, wr := true, size := 2, addr := mgmtAddr s.strap p (off + 4) } p (off + 4) = true := by
        unfold Seg.tenantOk
        simp only [e4, Bool.and_false, Bool.false_eq_true, ↓reduceIte]
        intro ht
        split at ht
        · next hd => rw [if_pos hd]
        · next hd =>
          rw [if_neg hd]
          split at ht
          · cases ht
          · exact ht
      have e5 : widthOk k i true (2 : BitVec 2).toNat off = true := by simp [widthOk, h4]
      rw [e5] at h
      rw [hw]
      by_cases hn1 : s.pageState k i = 4
      · rw [if_pos hn1] at h; cases h
      · rw [if_neg hn1] at h ⊢
        have fin :
            (if (!true) = true then 2 else if
              (!s.tenantOk { req := r, wr := true, size := 2, addr := mgmtAddr s.strap p off } p off) = true then 6 else 0) = 0 →
            (if (!true) = true then 2 else if
              (!s.tenantOk { req := r, wr := true, size := 2, addr := mgmtAddr s.strap p (off + 4) } p (off + 4)) = true
              then 6 else 0) = 0 := by
          intro h
          rw [if_neg (by simp)] at h ⊢
          cases hq : s.tenantOk { req := r, wr := true, size := 2, addr := mgmtAddr s.strap p off } p off with
          | false => rw [hq] at h; simp at h
          | true => rw [ht hq]; rfl
        cases hpu : pageUnit k i with
        | none => rw [hpu] at h; exact fin h
        | some l =>
          rw [hpu] at h
          show (if s.kilnIsolates l = true then _ else _) = _
          replace h : (if s.kilnIsolates l = true then _ else _) = _ := h
          by_cases hz : s.kilnIsolates l = true
          · rw [if_pos hz] at h; cases h
          · rw [if_neg hz] at h ⊢; exact fin h

theorem Seg.modCtl_self (s : Seg) (f : Ctl → Ctl) (h : f s.ctl = s.ctl) : s.modCtl f = s := by
  unfold Seg.modCtl; rw [h]

theorem Seg.modCtl_pageState (s : Seg) (f : Ctl → Ctl) (k : Kind) (i : Nat) : (s.modCtl f).pageState k i = s.pageState k i := by
  cases k <;> rfl

theorem Seg.modCtl_accessError (s : Seg) (f : Ctl → Ctl) (a : Access) : (s.modCtl f).accessError a = s.accessError a := rfl

theorem Seg.acked_modCtl (s : Seg) (f : Ctl → Ctl) (r : Requester) : (s.modCtl f).acked r = (s.acked r).modCtl f := by
  cases r <;> rfl

theorem Seg.acked_ctl (s : Seg) (r : Requester) : (s.acked r).ctl = s.ctl := by cases r <;> rfl
theorem Seg.acked_strap (s : Seg) (r : Requester) : (s.acked r).strap = s.strap := by cases r <;> rfl
theorem Seg.acked_ready (s : Seg) (r : Requester) : (s.acked r).mp.ready = s.mp.ready := by cases r <;> rfl
theorem Seg.acked_pageState (s : Seg) (r : Requester) (k : Kind) (i : Nat) : (s.acked r).pageState k i = s.pageState k i := by
  cases r <;> rfl
theorem Seg.acked_accessError (s : Seg) (r : Requester) (a : Access) : (s.acked r).accessError a = s.accessError a := by
  cases r <;> rfl
theorem Seg.acked_soak (s : Seg) (r : Requester) : (s.acked r).soak = s.soak := by cases r <;> rfl
theorem Follows.acked {a b : Seg} (h : Follows a b) (r : Requester) : Follows (a.acked r) (b.acked r) := by
  cases r with
  | mp => unfold Seg.acked; dsimp only; rw [h.mp]; exact h.setMp _
  | agent => exact h

/-- An opening or breaking write is done at the guard row. -/
theorem Seg.decideAccess_guard (s t : Seg) (a : Access) {k : Kind} {i p off : Nat} (he : s.accessError a = 0)
    (hk : pageKind p = some (k, i)) (e1 : addrPage a.addr = p) (e2 : addrOff a.addr = off) (e3 : a.wr = true)
    (e4 : a.committed = false) (e7 : a.passed = false) (hf : (decide (0xF00 ≤ off) && !s.factory) = false)
    (hg : s.guardRow a k i = .done t 0)
    (e5 : t.wakePage k i = t) : s.decideAccess a = (t, .done 0 0) := by
  have e6 : (t.wakePage k i, Verdict.done 0 0) = (t, .done 0 0) := by rw [e5]
  unfold Seg.decideAccess Seg.decideRows
  simp only [he, e1, e2, e3, e4, e7, hk, hf, hg]
  simpa using e6

/-- A closing write goes on as the committed access. -/
theorem Seg.decideAccess_commit (s t : Seg) (a b : Access) {k : Kind} {i p off : Nat} {z : Seg × Verdict}
    (he : s.accessError a = 0) (hk : pageKind p = some (k, i)) (e1 : addrPage a.addr = p) (e2 : addrOff a.addr = off)
    (e3 : a.wr = true) (e4 : a.committed = false) (e5 : a.passed = false) (hf : (decide (0xF00 ≤ off) && !s.factory) = false)
    (hg : s.guardRow a k i = .go t b) (e6 : addrPage b.addr = p) (hr : t.reachUnit k i b = z) : s.decideAccess a = z := by
  unfold Seg.decideAccess Seg.decideRows
  simp only [he, e1, e2, e3, e4, e5, hk, hf, hg]
  simpa [e6, hk] using hr

/-- A guarded pair with the way open: the value is stored by a segment that differs by events only. -/
theorem Seg.regPair_open (s : Seg) (r : Requester) {p off i : Nat} {k : Kind} (v : Word) (told : Option Bool)
    (h : s.Open r p off) (hk : pageKind p = some (k, i)) (hp : p < 16384) (ho : off < 4092) (h4 : off % 4 = 0)
    (h18 : off ≠ 0x018) (hf : off < 0xEFC ∨ s.factory = true) (hc : counterWord k i off = false)
    (ha : absentWord k i off = false) (hg : (wordRows k off).any (fun r => r.acc == .wg) = true)
    (hsame : r.same r = true) :
    ∃ x, Follows (s.acked r) x ∧ Follows ((x.storeWord k i p off v true r told).acked r) (s.regPair ⟨r, false⟩ p off v told) := by
  have ho' : off < 4096 := by omega
  have ev : (v.zeroExtend 64).truncate 32 = v := by simp
  -- the opening write leaves a guard
  let s1 := s.modCtl fun c => { c with guards := [⟨p, off, v, r⟩] }
  let a1 : Access := { req := r, wr := true, size := 2, addr := mgmtAddr s.strap p off, data := v.zeroExtend 64 }
  have hgr : s.guardRow a1 k i = .done s1 0 := by
    have : (!absentWord k i off && (wordRows k off).any (fun r => r.acc == .wg)) = true := by rw [ha, hg]; rfl
    unfold Seg.guardRow
    simp only [guardWord, h.free, a1, s1, addrPage_mgmtAddr _ hp ho', addrOff_mgmtAddr _ ho', this, List.find?_nil, List.any_nil,
      Bool.false_eq_true, ↓reduceIte, ev]
    show GuardStep.done { s with ctl := { s.ctl with guards := s.ctl.guards ++ [_] } } 0 = _
    rw [h.free]
    rfl
  have he1 : s.accessError a1 = 0 := by rw [s.accessError_write a1 rfl rfl rfl h.calm]; exact h.ok
  have hnf : (decide (0xF00 ≤ off) && !s.factory) = false := by
    rcases hf with hf | hf
    · have : ¬ 0xF00 ≤ off := by omega
      simp [this]
    · simp [hf]
  have hd1 : s.decideAccess a1 = (s1, .done 0 0) :=
    Seg.decideAccess_guard s s1 a1 he1 hk (addrPage_mgmtAddr _ hp ho') (addrOff_mgmtAddr _ ho') rfl rfl rfl hnf hgr
      (by rw [Seg.wakePage_up s1 k i (by rw [Seg.modCtl_pageState]; exact h.up k i hk)])
  -- the closing write stores the value
  obtain ⟨b, hb, hw1⟩ : ∃ b, Follows (s1.acked r) b ∧ s.regWrite ⟨r, false⟩ p off v = b := by
    refine ⟨s1.answer a1 0 0, Seg.answer_ok s1 a1 rfl rfl, ?_⟩
    unfold Seg.regWrite
    rw [Seg.give_open _ a1 h.ready h.idle h.half rfl, Seg.runAccess_done _ _ _ hd1]
  let a2 : Access := { req := r, wr := true, size := 2, addr := mgmtAddr s.strap p (off + 4), data := (~~~v).zeroExtend 64,
                       told := told }
  let x := b.dropGuard r
  have hctl : b.ctl = s1.ctl := by rw [hb.ctl]; cases r <;> rfl
  have hready : b.mp.ready = true := by rw [hb.mp]; cases r <;> exact h.ready
  have hstrap : b.strap = s.strap := by rw [hb.strap]; cases r <;> rfl
  have hx : Follows (s.acked r) x := by
    have h1 : Follows ((s1.acked r).dropGuard r) (b.dropGuard r) := hb.modCtl _
    have h3 : (s1.acked r).dropGuard r = s.acked r := by
      rw [Seg.acked_modCtl]
      refine Seg.modCtl_self (s.acked r) (fun c => { c with guards := [(⟨p, off, v, r⟩ : Guard)].filter (fun g => !g.req.same r) }) ?_
      rw [Seg.acked_ctl]
      show ({ s.ctl with guards := [(⟨p, off, v, r⟩ : Guard)].filter (fun g => !g.req.same r) } : Ctl) = s.ctl
      rw [List.filter_cons_of_neg (by simp [hsame]), List.filter_nil, ← h.free]
    rw [h3] at h1
    exact h1
  have hp2 : x.pageState k i = 0 := by
    rw [hx.pageState hk, Seg.acked_pageState]; exact h.up k i hk
  have hsoak : b.soak = false := by
    rw [hb.soak, Seg.acked_soak]; exact h.calm
  have he2 : b.accessError a2 = 0 := by
    rw [hb.accessError, Seg.acked_accessError, Seg.modCtl_accessError, s.accessError_write a2 rfl rfl rfl h.calm]
    exact s.accessError_pair r hp ho h4 h18 h.calm h.ok
  let a3 : Access := { a2 with addr := mgmtAddr b.strap p off, size := 2, data := v.zeroExtend 64, pair := false, committed := true }
  have hgr2 : b.guardRow a2 k i = .go x a3 := by
    have e2 : (((~~~v).zeroExtend 64).truncate 32 : Word) = ~~~v := by simp
    have hfind : b.ctl.guards.find? (fun g => g.req.same a2.req) = some ⟨p, off, v, r⟩ := by
      rw [hctl]
      show [(⟨p, off, v, r⟩ : Guard)].find? _ = _
      rw [List.find?_cons_of_pos]
      exact hsame
    have e1 : addrPage a2.addr = p := addrPage_mgmtAddr _ hp (by omega)
    have e3 : addrOff a2.addr = off + 4 := addrOff_mgmtAddr _ (by omega)
    have e4 : a2.data.truncate 32 = ~~~v := e2
    have e5 : a2.size = 2 := rfl
    have e6 : (b.dropGuard a2.req).strap = b.strap := rfl
    unfold Seg.guardRow
    rw [hfind]
    simp only [e1, e3, e4, e5, e6, and_self, ↓reduceIte]
    exact congrArg (fun z => GuardStep.go x z) rfl
  have hnf2 : (decide (0xF00 ≤ off + 4) && !b.factory) = false := by
    rcases hf with hf | hf
    · have : ¬ 0xF00 ≤ off + 4 := by omega
      simp [this]
    · have : b.factory = s.factory := by
        refine (hb.flag_eq _ _ (by decide) (by decide) (by decide)).trans ?_
        cases r <;> rfl
      simp [this, hf]
  have hd2 : b.decideAccess a2 = (x.storeWord k i p off v true r told, .done 0 0) := by
    have hr2 : x.reachUnit k i a3 = (x.storeWord k i p off v true r told, .done 0 0) := by
      have hpw : x.plainWrite k i p off a3 = x.storeWord k i p off v true r told := by
        rw [Seg.plainWrite_word _ _ _ _ _ _ rfl hc]
        show x.storeWord k i p off ((v.zeroExtend 64).truncate 32) true r told = _
        rw [ev]
      have h1 : addrPage a3.addr = p := addrPage_mgmtAddr _ hp ho'
      have h2 : addrOff a3.addr = off := addrOff_mgmtAddr _ ho'
      have h5 : (2 ≤ 0) = False := by simp
      simp only [Seg.reachUnit, x.wakePage_up k i hp2, h1, h2, hp2, hpw, h5, ↓reduceIte]
      rfl
    exact Seg.decideAccess_commit b x a2 a3 he2 hk (addrPage_mgmtAddr _ hp (by omega)) (addrOff_mgmtAddr _ (by omega)) rfl rfl rfl
      hnf2 hgr2 (addrPage_mgmtAddr _ hp ho') hr2
  refine ⟨x, hx, ?_⟩
  unfold Seg.regPair
  have hhalf : r = .mp → b.mp.half = none := by
    rintro rfl; rw [hb.mp]; rfl
  rw [hw1]
  show Follows _ (b.give ⟨a2.req, false⟩ a2)
  rw [Seg.give_open b a2 hready (by rw [hctl]; exact h.idle) hhalf rfl, Seg.runAccess_done _ _ _ hd2]
  exact Seg.answer_ok (x.storeWord k i p off v true r told) a2 rfl rfl

end Sys2Proof.Machine
end

