-- ==== Sys2Proof/Laws/PerInstr.lean ====
section
/-!
SUPPORT. For each command: given to another segment it is a command of that segment, as well formed as before. The four
segments have the same units, ports and pages (R2, R3, R26).
-/
namespace Sys2Proof.Laws

open Sys2Proof.Machine

/-- The command given to segment `h`. -/
def moved (h : Fin 4) : Instr → Instr
  | .registerWrite _ r size addr data => .registerWrite h r size addr data
  | .guardOpen _ r addr data => .guardOpen h r addr data
  | .guardClose _ r addr data => .guardClose h r addr data
  | .guardTimeout _ page => .guardTimeout h page
  | .regaccReceive _ src => .regaccReceive h src
  | .regaccSinglePacketPair _ src => .regaccSinglePacketPair h src
  | .mpRequest _ wr size addr wdata => .mpRequest h wr size addr wdata
  | .mp64BitFirstRequest _ wr addr wdata => .mp64BitFirstRequest h wr addr wdata
  | .mp64BitSecondRequest _ wr addr wdata => .mp64BitSecondRequest h wr addr wdata
  | .mpAccessTimeout _ => .mpAccessTimeout h
  | .counterClear _ r size addr => .counterClear h r size addr
  | .pageDisable _ r page => .pageDisable h r page
  | .pageEnable _ r page => .pageEnable h r page
  | .pageDrain _ r page => .pageDrain h r page
  | .drainComplete _ page => .drainComplete h page
  | .pageOwnerWrite _ r page dom readAny => .pageOwnerWrite h r page dom readAny
  | .tenDomWrite _ r n word => .tenDomWrite h r n word
  | .tenDenyClear _ r => .tenDenyClear h r
  | .segModeWrite _ r mode => .segModeWrite h r mode
  | .expertEnWrite _ r en => .expertEnWrite h r en
  | .lockExpert _ r => .lockExpert h r
  | .lockOwners _ r => .lockOwners h r
  | .glazeMismatch _ page off flip => .glazeMismatch h page off flip
  | .poresetAssert _ => .poresetAssert h
  | .poresetRelease _ testMode => .poresetRelease h testMode
  | .segResetAssert _ => .segResetAssert h
  | .segResetRelease _ => .segResetRelease h
  | .fuseLoadComplete _ => .fuseLoadComplete h
  | .aliveToggle _ => .aliveToggle h
  | .rqBeat _ site data par => .rqBeat h site data par
  | .wdBeat _ site data par last => .wdBeat h site data par last
  | .wdStallTimeout _ site => .wdStallTimeout h site
  | .srBeat _ site data par last => .srBeat h site data par last
  | .mgInputBeat _ site data par last => .mgInputBeat h site data par last
  | .rsBeatTaken _ site => .rsBeatTaken h site
  | .snBeatTaken _ site => .snBeatTaken h site
  | .mgOutputTaken _ site => .mgOutputTaken h site
  | .agentClockStop _ site => .agentClockStop h site
  | .agentClockReturn _ site => .agentClockReturn h site
  | .agentResetAssert _ site => .agentResetAssert h site
  | .agentResetRelease _ site => .agentResetRelease h site
  | .agentWake _ site hold => .agentWake h site hold
  | .apUpRise _ site => .apUpRise h site
  | .requestInject _ site plane => .requestInject h site plane
  | .c1CopyRelease _ site path => .c1CopyRelease h site path
  | .fenceCplSend _ site => .fenceCplSend h site
  | .flitArrival _ tile plane port look => .flitArrival h tile plane port look
  | .outputArbitration _ tile plane look => .outputArbitration h tile plane look
  | .escapeSwitch _ tile plane port vc => .escapeSwitch h tile plane port vc
  | .escapeWatchdog _ tile plane port spot => .escapeWatchdog h tile plane port spot
  | .packetArrivalEgress _ ep look => .packetArrivalEgress h ep look
  | .ackDelayExpiry _ ep src plane => .ackDelayExpiry h ep src plane
  | .ackReceive _ look => .ackReceive h look
  | .retryTimeout _ ep dest plane => .retryTimeout h ep dest plane
  | .cplTimeout _ site tag => .cplTimeout h site tag
  | .cplReceive _ site => .cplReceive h site
  | .sourceGrantRelease _ ep dest plane => .sourceGrantRelease h ep dest plane
  | .egressGrantReclaim _ ep src plane => .egressGrantReclaim h ep src plane
  | .bindRead _ r site idx => .bindRead h r site idx
  | .bindCommit _ r site idx => .bindCommit h r site idx
  | .bindClear _ r site idx => .bindClear h r site idx
  | .niDrainRelease _ site => .niDrainRelease h site
  | .niReset _ r site => .niReset h r site
  | .niResetComplete _ site => .niResetComplete h site
  | .bankPacketAccept _ bank corr uncorr => .bankPacketAccept h bank corr uncorr
  | .reservationExpiry _ bank src => .reservationExpiry h bank src
  | .protectedEntryExpiry _ bank src => .protectedEntryExpiry h bank src
  | .bankOwnCommit _ r bank word => .bankOwnCommit h r bank word
  | .handoverComplete _ bank => .handoverComplete h bank
  | .zeroCmd _ r bank => .zeroCmd h r bank
  | .zeroingComplete _ bank => .zeroingComplete h bank
  | .scrubStep _ bank errs => .scrubStep h bank errs
  | .wakeScrubRow _ bank errs => .wakeScrubRow h bank errs
  | .wakeScrubComplete _ bank => .wakeScrubComplete h bank
  | .repairWrite _ r bank sub word => .repairWrite h r bank sub word
  | .slotTick _ tile => .slotTick h tile
  | .ftbSyncBoundary _ tile => .ftbSyncBoundary h tile
  | .slotDataWrite _ r tile word => .slotDataWrite h r tile word
  | .slotCopy _ r tile => .slotCopy h r tile
  | .slotClear _ r tile => .slotClear h r tile
  | .slotCopyClearDone _ tile => .slotCopyClearDone h tile
  | .slotSwapReq _ r tile => .slotSwapReq h r tile
  | .slotValidationDone _ tile => .slotValidationDone h tile
  | .slotPeriodBoundary _ tile => .slotPeriodBoundary h tile
  | .starveNWrite _ r tile n => .starveNWrite h r tile n
  | .resDataWrite _ r tile word => .resDataWrite h r tile word
  | .demoteClearL0 _ r tile => .demoteClearL0 h r tile
  | .demoteClearL1 _ r tile => .demoteClearL1 h r tile
  | .rejectNoticeReceive _ site => .rejectNoticeReceive h site
  | .fenceMapChange _ => .fenceMapChange h
  | .fenceMapAdopt _ read => .fenceMapAdopt h read
  | .ringNoticeReceive _ unit => .ringNoticeReceive h unit
  | .epochDrainReport _ tile => .epochDrainReport h tile
  | .epochRetire _ => .epochRetire h
  | .drainToExpiry _ tile => .drainToExpiry h tile
  | .flowSendDecision _ site idx => .flowSendDecision h site idx
  | .flowContextReturn _ site idx => .flowContextReturn h site idx
  | .flowWritebackTimer _ site idx => .flowWritebackTimer h site idx
  | .flowWritebackResult _ site idx => .flowWritebackResult h site idx
  | .flowRefresh _ site idx => .flowRefresh h site idx
  | .flowSweep _ idx => .flowSweep h idx
  | .unavailFetchRetry _ site idx => .unavailFetchRetry h site idx
  | .fwRead _ r idx => .fwRead h r idx
  | .fwReadSync _ r idx => .fwReadSync h r idx
  | .fwWriteCfg _ r idx => .fwWriteCfg h r idx
  | .fwWriteRaw _ r idx => .fwWriteRaw h r idx
  | .fwInit _ r => .fwInit h r
  | .fwCmdComplete _ => .fwCmdComplete h
  | .configNoticeReceive _ read => .configNoticeReceive h read
  | .recallReceive _ site => .recallReceive h site
  | .recallAllReceive _ site => .recallAllReceive h site
  | .flowwinDisableNotice _ site => .flowwinDisableNotice h site
  | .tileCodeChange _ tile => .tileCodeChange h tile
  | .dcoRampDone _ tile => .dcoRampDone h tile
  | .tempSample _ quad temp => .tempSample h quad temp
  | .dcoLockLost _ tile => .dcoLockLost h tile
  | .dcoLockRegained _ tile => .dcoLockRegained h tile
  | .pulseRaise _ src cause synd => .pulseRaise h src cause synd
  | .eventProcess _ look => .eventProcess h look
  | .clkOvrClear _ r w bits => .clkOvrClear h r w bits
  | .activeLevelChange _ src level => .activeLevelChange h src level
  | .srcClear _ r src => .srcClear h r src
  | .srcRestore _ r src bundle => .srcRestore h r src bundle
  | .restoreComplete _ => .restoreComplete h
  | .autoClear _ src => .autoClear h src
  | .collectorGlazePass _ => .collectorGlazePass h
  | .bulkCfgWrite _ r type => .bulkCfgWrite h r type
  | .injectEvent _ r => .injectEvent h r
  | .injectFlit _ r => .injectFlit h r
  | .injectGlaze _ r => .injectGlaze h r
  | .injectLane _ r => .injectLane h r
  | .injectionSpacing _ => .injectionSpacing h
  | .linkDnRise _ tile port => .linkDnRise h tile port
  | .creditInitReceive _ tile port => .creditInitReceive h tile port
  | .autoIdleEntry _ dom => .autoIdleEntry h dom
  | .autoDrowsyEntry _ dom => .autoDrowsyEntry h dom
  | .autoRetainEntry _ dom => .autoRetainEntry h dom
  | .domainWake _ dom => .domainWake h dom
  | .domainWakeDone _ dom badCanary => .domainWakeDone h dom badCanary
  | .tileOff _ r first last keep => .tileOff h r first last keep
  | .tileWake _ r first last => .tileWake h r first last
  | .bankOff _ r first last => .bankOff h r first last
  | .bankWake _ r first last => .bankWake h r first last
  | .tileWakeRowStep _ => .tileWakeRowStep h
  | .tileCmdComplete _ => .tileCmdComplete h
  | .segEntryDrowsy _ r => .segEntryDrowsy h r
  | .segEntryRetain _ r => .segEntryRetain h r
  | .segEntryAon _ r halt => .segEntryAon h r halt
  | .aonHalt _ => .aonHalt h
  | .prepareReceive _ unit => .prepareReceive h unit
  | .sleepVote _ unit => .sleepVote h unit
  | .niSleepRefuse _ site => .niSleepRefuse h site
  | .voteCollect _ => .voteCollect h
  | .voteTimeout _ => .voteTimeout h
  | .commitReceive _ unit => .commitReceive h unit
  | .abortReceive _ unit => .abortReceive h unit
  | .regulatorFullModeReturn _ => .regulatorFullModeReturn h
  | .brownOut _ tripped belowLatch => .brownOut h tripped belowLatch
  | .aonRestart _ testMode => .aonRestart h testMode
  | .pgSramLoss _ => .pgSramLoss h
  | .powerCapStep _ => .powerCapStep h
  | .residencySample _ => .residencySample h
  | .vackRise _ quad => .vackRise h quad
  | .vackTimeout _ quad => .vackTimeout h quad
  | .clkSwitch _ r refclkOk => .clkSwitch h r refclkOk
  | .refclkCheckRetry _ refclkOk => .refclkCheckRetry h refclkOk
  | .tickLock _ => .tickLock h
  | .frameReceive _ br bundle f => .frameReceive h br bundle f
  | .nakReceive _ br bundle fsn => .nakReceive h br bundle fsn
  | .replayTimeout _ br bundle => .replayTimeout h br bundle
  | .bridgeRetrainTimeout _ br bundle => .bridgeRetrainTimeout h br bundle
  | .laneFail _ br bundle lane => .laneFail h br bundle lane
  | .laneFrameReceive _ br bundle lane half mask => .laneFrameReceive h br bundle lane half mask
  | .bundleTrainStart _ br bundle => .bundleTrainStart h br bundle
  | .bundleTrainComplete _ br bundle rx txLanes => .bundleTrainComplete h br bundle rx txLanes
  | .laneCmdRetrain _ r br bundle => .laneCmdRetrain h r br bundle
  | .bundleSleepEntry _ br bundle => .bundleSleepEntry h br bundle
  | .drowseReceive _ br look => .drowseReceive h br look
  | .bundleWake _ br bundle => .bundleWake h br bundle
  | .rxeiFallWake _ br bundle => .rxeiFallWake h br bundle
  | .pairReturnHoldExpiry _ br bundle src dest => .pairReturnHoldExpiry h br bundle src dest
  | .bridgeC1Release _ br bundle plane => .bridgeC1Release h br bundle plane
  | .bundleStartLapse _ br bundle => .bundleStartLapse h br bundle
  | .bslotDataWrite _ r br word => .bslotDataWrite h r br word
  | .brSlotCopy _ r br => .brSlotCopy h r br
  | .brSlotClear _ r br => .brSlotClear h r br
  | .brSlotSwapReq _ r br => .brSlotSwapReq h r br
  | .pairDown _ br => .pairDown h br
  | .pairRetrainTimer _ br => .pairRetrainTimer h br
  | .join _ r => .join h r
  | .helloReceive _ br x => .helloReceive h br x
  | .joinTimeout _ => .joinTimeout h
  | .joinAdmitted _ ring => .joinAdmitted h ring
  | .admitSeg _ r t => .admitSeg h r t
  | .admitLapse _ => .admitLapse h
  | .leave _ r => .leave h r
  | .ringStateReport _ rep => .ringStateReport h rep
  | .ringStateAdopt _ ring => .ringStateAdopt h ring
  | .beaconSend _ => .beaconSend h
  | .beaconAnswerTimeout _ far => .beaconAnswerTimeout h far
  | .anchorTimeout _ => .anchorTimeout h
  | .timeExchange _ br => .timeExchange h br
  | .timeFrameReceive _ br st => .timeFrameReceive h br st
  | .bayDebounceExpiry _ bay => .bayDebounceExpiry h bay
  | .bayPresenceFall _ bay => .bayPresenceFall h bay
  | .bayRemoval _ bay => .bayRemoval h bay
  | .bayInsertionDelayExpiry _ bay => .bayInsertionDelayExpiry h bay
  | .bayPrechargeExpiry _ bay => .bayPrechargeExpiry h bay
  | .bayPowerGood _ bay => .bayPowerGood h bay
  | .bayGateRiseTimeout _ bay gateUp => .bayGateRiseTimeout h bay gateUp
  | .bayGateLost _ bay => .bayGateLost h bay
  | .bayOutputWithoutGate _ bay => .bayOutputWithoutGate h bay
  | .bayOvercurrent _ bay nearRemoval => .bayOvercurrent h bay nearRemoval
  | .bayWindowLoss _ bay uv ov => .bayWindowLoss h bay uv ov
  | .bayRetryExpiry _ bay => .bayRetryExpiry h bay
  | .bayStrikeAgeOut _ bay => .bayStrikeAgeOut h bay
  | .bayIdentityDelayExpiry _ bay => .bayIdentityDelayExpiry h bay
  | .bayIdentityReadEnd _ bay record => .bayIdentityReadEnd h bay record
  | .bayIdAttemptRetry _ bay => .bayIdAttemptRetry h bay
  | .bayBind _ r bay => .bayBind h r bay
  | .bayUnbind _ r bay => .bayUnbind h r bay
  | .bayReread _ r bay => .bayReread h r bay
  | .bayEnable _ r bay => .bayEnable h r bay
  | .bayDisable _ r bay => .bayDisable h r bay
  | .kilnLogic _ r scope unit bundle seedEn => .kilnLogic h r scope unit bundle seedEn
  | .kilnMemory _ r scope unit bundle seedEn => .kilnMemory h r scope unit bundle seedEn
  | .kilnLogicMemory _ r scope unit bundle seedEn => .kilnLogicMemory h r scope unit bundle seedEn
  | .kilnAbort _ r => .kilnAbort h r
  | .kilnApply _ r => .kilnApply h r
  | .kilnRunComplete _ found => .kilnRunComplete h found
  | .factoryKeyWrite _ r key late => .factoryKeyWrite h r key late
  | .factoryEnter _ r late => .factoryEnter h r late
  | .factoryExit _ r => .factoryExit h r
  | .fuseProgram _ r word => .fuseProgram h r word
  | .fuseProgRepair _ r => .fuseProgRepair h r
  | .fuseCmdComplete _ stuck => .fuseCmdComplete h stuck
  | .bundleBlockSlot _ br bundle => .bundleBlockSlot h br bundle
  | .acknowledgePhaseEnd _ src => .acknowledgePhaseEnd h src
  | .vackFall _ quad => .vackFall h quad
  | .identityAttemptFailed _ bay stretch => .identityAttemptFailed h bay stretch
  | .probeLookup _ r site idx => .probeLookup h r site idx

/-- Given to another segment, the command acts there and is as well formed. -/
def Seg.Statement (c : Instr) : Prop := ∀ h, instrSeg (moved h c) = h ∧ instrWf (moved h c) = instrWf c

theorem Seg.registerWrite (g : Fin 4) (r : Requester) (size : BitVec 2) (addr : Word) (data : BitVec 64) :
    Seg.Statement (.registerWrite g r size addr data) := fun _ => ⟨rfl, rfl⟩
theorem Seg.guardOpen (g : Fin 4) (r : Requester) (addr : Word) (data : Word) :
    Seg.Statement (.guardOpen g r addr data) := fun _ => ⟨rfl, rfl⟩
theorem Seg.guardClose (g : Fin 4) (r : Requester) (addr : Word) (data : Word) :
    Seg.Statement (.guardClose g r addr data) := fun _ => ⟨rfl, rfl⟩
theorem Seg.guardTimeout (g : Fin 4) (page : Nat) :
    Seg.Statement (.guardTimeout g page) := fun _ => ⟨rfl, rfl⟩
theorem Seg.regaccReceive (g : Fin 4) (src : BitVec 12) :
    Seg.Statement (.regaccReceive g src) := fun _ => ⟨rfl, rfl⟩
theorem Seg.regaccSinglePacketPair (g : Fin 4) (src : BitVec 12) :
    Seg.Statement (.regaccSinglePacketPair g src) := fun _ => ⟨rfl, rfl⟩
theorem Seg.mpRequest (g : Fin 4) (wr : Bool) (size : BitVec 2) (addr : Word) (wdata : Word) :
    Seg.Statement (.mpRequest g wr size addr wdata) := fun _ => ⟨rfl, rfl⟩
theorem Seg.mp64BitFirstRequest (g : Fin 4) (wr : Bool) (addr : Word) (wdata : Word) :
    Seg.Statement (.mp64BitFirstRequest g wr addr wdata) := fun _ => ⟨rfl, rfl⟩
theorem Seg.mp64BitSecondRequest (g : Fin 4) (wr : Bool) (addr : Word) (wdata : Word) :
    Seg.Statement (.mp64BitSecondRequest g wr addr wdata) := fun _ => ⟨rfl, rfl⟩
theorem Seg.mpAccessTimeout (g : Fin 4) :
    Seg.Statement (.mpAccessTimeout g) := fun _ => ⟨rfl, rfl⟩
theorem Seg.counterClear (g : Fin 4) (r : Requester) (size : BitVec 2) (addr : Word) :
    Seg.Statement (.counterClear g r size addr) := fun _ => ⟨rfl, rfl⟩
theorem Seg.pageDisable (g : Fin 4) (r : Requester) (page : Nat) :
    Seg.Statement (.pageDisable g r page) := fun _ => ⟨rfl, rfl⟩
theorem Seg.pageEnable (g : Fin 4) (r : Requester) (page : Nat) :
    Seg.Statement (.pageEnable g r page) := fun _ => ⟨rfl, rfl⟩
theorem Seg.pageDrain (g : Fin 4) (r : Requester) (page : Nat) :
    Seg.Statement (.pageDrain g r page) := fun _ => ⟨rfl, rfl⟩
theorem Seg.drainComplete (g : Fin 4) (page : Nat) :
    Seg.Statement (.drainComplete g page) := fun _ => ⟨rfl, rfl⟩
theorem Seg.pageOwnerWrite (g : Fin 4) (r : Requester) (page : Nat) (dom : BitVec 6) (readAny : Bool) :
    Seg.Statement (.pageOwnerWrite g r page dom readAny) := fun _ => ⟨rfl, rfl⟩
theorem Seg.tenDomWrite (g : Fin 4) (r : Requester) (n : Fin 72) (word : Word) :
    Seg.Statement (.tenDomWrite g r n word) := fun _ => ⟨rfl, rfl⟩
theorem Seg.tenDenyClear (g : Fin 4) (r : Requester) :
    Seg.Statement (.tenDenyClear g r) := fun _ => ⟨rfl, rfl⟩
theorem Seg.segModeWrite (g : Fin 4) (r : Requester) (mode : BitVec 2) :
    Seg.Statement (.segModeWrite g r mode) := fun _ => ⟨rfl, rfl⟩
theorem Seg.expertEnWrite (g : Fin 4) (r : Requester) (en : Bool) :
    Seg.Statement (.expertEnWrite g r en) := fun _ => ⟨rfl, rfl⟩
theorem Seg.lockExpert (g : Fin 4) (r : Requester) :
    Seg.Statement (.lockExpert g r) := fun _ => ⟨rfl, rfl⟩
theorem Seg.lockOwners (g : Fin 4) (r : Requester) :
    Seg.Statement (.lockOwners g r) := fun _ => ⟨rfl, rfl⟩
theorem Seg.glazeMismatch (g : Fin 4) (page : Nat) (off : Nat) (flip : Word) :
    Seg.Statement (.glazeMismatch g page off flip) := fun _ => ⟨rfl, rfl⟩
theorem Seg.poresetAssert (g : Fin 4) :
    Seg.Statement (.poresetAssert g) := fun _ => ⟨rfl, rfl⟩
theorem Seg.poresetRelease (g : Fin 4) (testMode : Bool) :
    Seg.Statement (.poresetRelease g testMode) := fun _ => ⟨rfl, rfl⟩
theorem Seg.segResetAssert (g : Fin 4) :
    Seg.Statement (.segResetAssert g) := fun _ => ⟨rfl, rfl⟩
theorem Seg.segResetRelease (g : Fin 4) :
    Seg.Statement (.segResetRelease g) := fun _ => ⟨rfl, rfl⟩
theorem Seg.fuseLoadComplete (g : Fin 4) :
    Seg.Statement (.fuseLoadComplete g) := fun _ => ⟨rfl, rfl⟩
theorem Seg.aliveToggle (g : Fin 4) :
    Seg.Statement (.aliveToggle g) := fun _ => ⟨rfl, rfl⟩
theorem Seg.rqBeat (g : Fin 4) (site : Fin 288) (data : BitVec 1024) (par : BitVec 16) :
    Seg.Statement (.rqBeat g site data par) := fun _ => ⟨rfl, rfl⟩
theorem Seg.wdBeat (g : Fin 4) (site : Fin 288) (data : BitVec 1024) (par : BitVec 16) (last : Bool) :
    Seg.Statement (.wdBeat g site data par last) := fun _ => ⟨rfl, rfl⟩
theorem Seg.wdStallTimeout (g : Fin 4) (site : Fin 288) :
    Seg.Statement (.wdStallTimeout g site) := fun _ => ⟨rfl, rfl⟩
theorem Seg.srBeat (g : Fin 4) (site : Fin 288) (data : BitVec 256) (par : BitVec 4) (last : Bool) :
    Seg.Statement (.srBeat g site data par last) := fun _ => ⟨rfl, rfl⟩
theorem Seg.mgInputBeat (g : Fin 4) (site : Fin 288) (data : BitVec 64) (par : Bool) (last : Bool) :
    Seg.Statement (.mgInputBeat g site data par last) := fun _ => ⟨rfl, rfl⟩
theorem Seg.rsBeatTaken (g : Fin 4) (site : Fin 288) :
    Seg.Statement (.rsBeatTaken g site) := fun _ => ⟨rfl, rfl⟩
theorem Seg.snBeatTaken (g : Fin 4) (site : Fin 288) :
    Seg.Statement (.snBeatTaken g site) := fun _ => ⟨rfl, rfl⟩
theorem Seg.mgOutputTaken (g : Fin 4) (site : Fin 288) :
    Seg.Statement (.mgOutputTaken g site) := fun _ => ⟨rfl, rfl⟩
theorem Seg.agentClockStop (g : Fin 4) (site : Fin 288) :
    Seg.Statement (.agentClockStop g site) := fun _ => ⟨rfl, rfl⟩
theorem Seg.agentClockReturn (g : Fin 4) (site : Fin 288) :
    Seg.Statement (.agentClockReturn g site) := fun _ => ⟨rfl, rfl⟩
theorem Seg.agentResetAssert (g : Fin 4) (site : Fin 288) :
    Seg.Statement (.agentResetAssert g site) := fun _ => ⟨rfl, rfl⟩
theorem Seg.agentResetRelease (g : Fin 4) (site : Fin 288) :
    Seg.Statement (.agentResetRelease g site) := fun _ => ⟨rfl, rfl⟩
theorem Seg.agentWake (g : Fin 4) (site : Fin 288) (hold : Bool) :
    Seg.Statement (.agentWake g site hold) := fun _ => ⟨rfl, rfl⟩
theorem Seg.apUpRise (g : Fin 4) (site : Fin 288) :
    Seg.Statement (.apUpRise g site) := fun _ => ⟨rfl, rfl⟩
theorem Seg.requestInject (g : Fin 4) (site : Fin 288) (plane : Plane) :
    Seg.Statement (.requestInject g site plane) := fun _ => ⟨rfl, rfl⟩
theorem Seg.c1CopyRelease (g : Fin 4) (site : Fin 288) (path : Bool) :
    Seg.Statement (.c1CopyRelease g site path) := fun _ => ⟨rfl, rfl⟩
theorem Seg.fenceCplSend (g : Fin 4) (site : Fin 288) :
    Seg.Statement (.fenceCplSend g site) := fun _ => ⟨rfl, rfl⟩
theorem Seg.flitArrival (g : Fin 4) (tile : Fin 144) (plane : Plane) (port : Port) (look : FlitLook) :
    Seg.Statement (.flitArrival g tile plane port look) := fun _ => ⟨rfl, rfl⟩
theorem Seg.outputArbitration (g : Fin 4) (tile : Fin 144) (plane : Plane) (look : OutputLook) :
    Seg.Statement (.outputArbitration g tile plane look) := fun _ => ⟨rfl, rfl⟩
theorem Seg.escapeSwitch (g : Fin 4) (tile : Fin 144) (plane : Plane) (port : Port) (vc : Fin 6) :
    Seg.Statement (.escapeSwitch g tile plane port vc) := fun _ => ⟨rfl, rfl⟩
theorem Seg.escapeWatchdog (g : Fin 4) (tile : Fin 144) (plane : Plane) (port : Port) (spot : Watched) :
    Seg.Statement (.escapeWatchdog g tile plane port spot) := fun _ => ⟨rfl, rfl⟩
theorem Seg.packetArrivalEgress (g : Fin 4) (ep : Fin 1024) (look : EgressLook) :
    Seg.Statement (.packetArrivalEgress g ep look) := fun _ => ⟨rfl, rfl⟩
theorem Seg.ackDelayExpiry (g : Fin 4) (ep : Fin 1024) (src : BitVec 12) (plane : Plane) :
    Seg.Statement (.ackDelayExpiry g ep src plane) := fun _ => ⟨rfl, rfl⟩
theorem Seg.ackReceive (g : Fin 4) (look : AckLook) :
    Seg.Statement (.ackReceive g look) := fun _ => ⟨rfl, rfl⟩
theorem Seg.retryTimeout (g : Fin 4) (ep : Fin 1024) (dest : BitVec 12) (plane : Plane) :
    Seg.Statement (.retryTimeout g ep dest plane) := fun _ => ⟨rfl, rfl⟩
theorem Seg.cplTimeout (g : Fin 4) (site : Fin 288) (tag : BitVec 12) :
    Seg.Statement (.cplTimeout g site tag) := fun _ => ⟨rfl, rfl⟩
theorem Seg.cplReceive (g : Fin 4) (site : Fin 288) :
    Seg.Statement (.cplReceive g site) := fun _ => ⟨rfl, rfl⟩
theorem Seg.sourceGrantRelease (g : Fin 4) (ep : Fin 1024) (dest : BitVec 12) (plane : Plane) :
    Seg.Statement (.sourceGrantRelease g ep dest plane) := fun _ => ⟨rfl, rfl⟩
theorem Seg.egressGrantReclaim (g : Fin 4) (ep : Fin 1024) (src : BitVec 12) (plane : Plane) :
    Seg.Statement (.egressGrantReclaim g ep src plane) := fun _ => ⟨rfl, rfl⟩
theorem Seg.bindRead (g : Fin 4) (r : Requester) (site : Fin 288) (idx : Byte) :
    Seg.Statement (.bindRead g r site idx) := fun _ => ⟨rfl, rfl⟩
theorem Seg.bindCommit (g : Fin 4) (r : Requester) (site : Fin 288) (idx : Byte) :
    Seg.Statement (.bindCommit g r site idx) := fun _ => ⟨rfl, rfl⟩
theorem Seg.bindClear (g : Fin 4) (r : Requester) (site : Fin 288) (idx : Byte) :
    Seg.Statement (.bindClear g r site idx) := fun _ => ⟨rfl, rfl⟩
theorem Seg.niDrainRelease (g : Fin 4) (site : Fin 288) :
    Seg.Statement (.niDrainRelease g site) := fun _ => ⟨rfl, rfl⟩
theorem Seg.niReset (g : Fin 4) (r : Requester) (site : Fin 288) :
    Seg.Statement (.niReset g r site) := fun _ => ⟨rfl, rfl⟩
theorem Seg.niResetComplete (g : Fin 4) (site : Fin 288) :
    Seg.Statement (.niResetComplete g site) := fun _ => ⟨rfl, rfl⟩
theorem Seg.bankPacketAccept (g : Fin 4) (bank : Fin 72) (corr : List Nat) (uncorr : List Nat) :
    Seg.Statement (.bankPacketAccept g bank corr uncorr) := fun _ => ⟨rfl, rfl⟩
theorem Seg.reservationExpiry (g : Fin 4) (bank : Fin 72) (src : BitVec 12) :
    Seg.Statement (.reservationExpiry g bank src) := fun _ => ⟨rfl, rfl⟩
theorem Seg.protectedEntryExpiry (g : Fin 4) (bank : Fin 72) (src : BitVec 12) :
    Seg.Statement (.protectedEntryExpiry g bank src) := fun _ => ⟨rfl, rfl⟩
theorem Seg.bankOwnCommit (g : Fin 4) (r : Requester) (bank : Fin 72) (word : Word) :
    Seg.Statement (.bankOwnCommit g r bank word) := fun _ => ⟨rfl, rfl⟩
theorem Seg.handoverComplete (g : Fin 4) (bank : Fin 72) :
    Seg.Statement (.handoverComplete g bank) := fun _ => ⟨rfl, rfl⟩
theorem Seg.zeroCmd (g : Fin 4) (r : Requester) (bank : Fin 72) :
    Seg.Statement (.zeroCmd g r bank) := fun _ => ⟨rfl, rfl⟩
theorem Seg.zeroingComplete (g : Fin 4) (bank : Fin 72) :
    Seg.Statement (.zeroingComplete g bank) := fun _ => ⟨rfl, rfl⟩
theorem Seg.scrubStep (g : Fin 4) (bank : Fin 72) (errs : ArrayErrs) :
    Seg.Statement (.scrubStep g bank errs) := fun _ => ⟨rfl, rfl⟩
theorem Seg.wakeScrubRow (g : Fin 4) (bank : Fin 72) (errs : ArrayErrs) :
    Seg.Statement (.wakeScrubRow g bank errs) := fun _ => ⟨rfl, rfl⟩
theorem Seg.wakeScrubComplete (g : Fin 4) (bank : Fin 72) :
    Seg.Statement (.wakeScrubComplete g bank) := fun _ => ⟨rfl, rfl⟩
theorem Seg.repairWrite (g : Fin 4) (r : Requester) (bank : Fin 72) (sub : Fin 8) (word : Word) :
    Seg.Statement (.repairWrite g r bank sub word) := fun _ => ⟨rfl, rfl⟩
theorem Seg.slotTick (g : Fin 4) (tile : Fin 144) :
    Seg.Statement (.slotTick g tile) := fun _ => ⟨rfl, rfl⟩
theorem Seg.ftbSyncBoundary (g : Fin 4) (tile : Fin 144) :
    Seg.Statement (.ftbSyncBoundary g tile) := fun _ => ⟨rfl, rfl⟩
theorem Seg.slotDataWrite (g : Fin 4) (r : Requester) (tile : Fin 144) (word : Word) :
    Seg.Statement (.slotDataWrite g r tile word) := fun _ => ⟨rfl, rfl⟩
theorem Seg.slotCopy (g : Fin 4) (r : Requester) (tile : Fin 144) :
    Seg.Statement (.slotCopy g r tile) := fun _ => ⟨rfl, rfl⟩
theorem Seg.slotClear (g : Fin 4) (r : Requester) (tile : Fin 144) :
    Seg.Statement (.slotClear g r tile) := fun _ => ⟨rfl, rfl⟩
theorem Seg.slotCopyClearDone (g : Fin 4) (tile : Fin 144) :
    Seg.Statement (.slotCopyClearDone g tile) := fun _ => ⟨rfl, rfl⟩
theorem Seg.slotSwapReq (g : Fin 4) (r : Requester) (tile : Fin 144) :
    Seg.Statement (.slotSwapReq g r tile) := fun _ => ⟨rfl, rfl⟩
theorem Seg.slotValidationDone (g : Fin 4) (tile : Fin 144) :
    Seg.Statement (.slotValidationDone g tile) := fun _ => ⟨rfl, rfl⟩
theorem Seg.slotPeriodBoundary (g : Fin 4) (tile : Fin 144) :
    Seg.Statement (.slotPeriodBoundary g tile) := fun _ => ⟨rfl, rfl⟩
theorem Seg.starveNWrite (g : Fin 4) (r : Requester) (tile : Fin 144) (n : BitVec 7) :
    Seg.Statement (.starveNWrite g r tile n) := fun _ => ⟨rfl, rfl⟩
theorem Seg.resDataWrite (g : Fin 4) (r : Requester) (tile : Fin 144) (word : Word) :
    Seg.Statement (.resDataWrite g r tile word) := fun _ => ⟨rfl, rfl⟩
theorem Seg.demoteClearL0 (g : Fin 4) (r : Requester) (tile : Fin 144) :
    Seg.Statement (.demoteClearL0 g r tile) := fun _ => ⟨rfl, rfl⟩
theorem Seg.demoteClearL1 (g : Fin 4) (r : Requester) (tile : Fin 144) :
    Seg.Statement (.demoteClearL1 g r tile) := fun _ => ⟨rfl, rfl⟩
theorem Seg.rejectNoticeReceive (g : Fin 4) (site : Fin 288) :
    Seg.Statement (.rejectNoticeReceive g site) := fun _ => ⟨rfl, rfl⟩
theorem Seg.fenceMapChange (g : Fin 4) :
    Seg.Statement (.fenceMapChange g) := fun _ => ⟨rfl, rfl⟩
theorem Seg.fenceMapAdopt (g : Fin 4) (read : MapRead) :
    Seg.Statement (.fenceMapAdopt g read) := fun _ => ⟨rfl, rfl⟩
theorem Seg.ringNoticeReceive (g : Fin 4) (unit : Fin 1024) :
    Seg.Statement (.ringNoticeReceive g unit) := fun _ => ⟨rfl, rfl⟩
theorem Seg.epochDrainReport (g : Fin 4) (tile : Fin 144) :
    Seg.Statement (.epochDrainReport g tile) := fun _ => ⟨rfl, rfl⟩
theorem Seg.epochRetire (g : Fin 4) :
    Seg.Statement (.epochRetire g) := fun _ => ⟨rfl, rfl⟩
theorem Seg.drainToExpiry (g : Fin 4) (tile : Fin 144) :
    Seg.Statement (.drainToExpiry g tile) := fun _ => ⟨rfl, rfl⟩
theorem Seg.flowSendDecision (g : Fin 4) (site : Fin 288) (idx : BitVec 18) :
    Seg.Statement (.flowSendDecision g site idx) := fun _ => ⟨rfl, rfl⟩
theorem Seg.flowContextReturn (g : Fin 4) (site : Fin 288) (idx : BitVec 18) :
    Seg.Statement (.flowContextReturn g site idx) := fun _ => ⟨rfl, rfl⟩
theorem Seg.flowWritebackTimer (g : Fin 4) (site : Fin 288) (idx : BitVec 18) :
    Seg.Statement (.flowWritebackTimer g site idx) := fun _ => ⟨rfl, rfl⟩
theorem Seg.flowWritebackResult (g : Fin 4) (site : Fin 288) (idx : BitVec 18) :
    Seg.Statement (.flowWritebackResult g site idx) := fun _ => ⟨rfl, rfl⟩
theorem Seg.flowRefresh (g : Fin 4) (site : Fin 288) (idx : BitVec 18) :
    Seg.Statement (.flowRefresh g site idx) := fun _ => ⟨rfl, rfl⟩
theorem Seg.flowSweep (g : Fin 4) (idx : BitVec 18) :
    Seg.Statement (.flowSweep g idx) := fun _ => ⟨rfl, rfl⟩
theorem Seg.unavailFetchRetry (g : Fin 4) (site : Fin 288) (idx : BitVec 18) :
    Seg.Statement (.unavailFetchRetry g site idx) := fun _ => ⟨rfl, rfl⟩
theorem Seg.fwRead (g : Fin 4) (r : Requester) (idx : BitVec 18) :
    Seg.Statement (.fwRead g r idx) := fun _ => ⟨rfl, rfl⟩
theorem Seg.fwReadSync (g : Fin 4) (r : Requester) (idx : BitVec 18) :
    Seg.Statement (.fwReadSync g r idx) := fun _ => ⟨rfl, rfl⟩
theorem Seg.fwWriteCfg (g : Fin 4) (r : Requester) (idx : BitVec 18) :
    Seg.Statement (.fwWriteCfg g r idx) := fun _ => ⟨rfl, rfl⟩
theorem Seg.fwWriteRaw (g : Fin 4) (r : Requester) (idx : BitVec 18) :
    Seg.Statement (.fwWriteRaw g r idx) := fun _ => ⟨rfl, rfl⟩
theorem Seg.fwInit (g : Fin 4) (r : Requester) :
    Seg.Statement (.fwInit g r) := fun _ => ⟨rfl, rfl⟩
theorem Seg.fwCmdComplete (g : Fin 4) :
    Seg.Statement (.fwCmdComplete g) := fun _ => ⟨rfl, rfl⟩
theorem Seg.configNoticeReceive (g : Fin 4) (read : NoticeRead) :
    Seg.Statement (.configNoticeReceive g read) := fun _ => ⟨rfl, rfl⟩
theorem Seg.recallReceive (g : Fin 4) (site : Fin 288) :
    Seg.Statement (.recallReceive g site) := fun _ => ⟨rfl, rfl⟩
theorem Seg.recallAllReceive (g : Fin 4) (site : Fin 288) :
    Seg.Statement (.recallAllReceive g site) := fun _ => ⟨rfl, rfl⟩
theorem Seg.flowwinDisableNotice (g : Fin 4) (site : Fin 288) :
    Seg.Statement (.flowwinDisableNotice g site) := fun _ => ⟨rfl, rfl⟩
theorem Seg.tileCodeChange (g : Fin 4) (tile : Fin 144) :
    Seg.Statement (.tileCodeChange g tile) := fun _ => ⟨rfl, rfl⟩
theorem Seg.dcoRampDone (g : Fin 4) (tile : Fin 144) :
    Seg.Statement (.dcoRampDone g tile) := fun _ => ⟨rfl, rfl⟩
theorem Seg.tempSample (g : Fin 4) (quad : Fin 4) (temp : BitVec 9) :
    Seg.Statement (.tempSample g quad temp) := fun _ => ⟨rfl, rfl⟩
theorem Seg.dcoLockLost (g : Fin 4) (tile : Fin 144) :
    Seg.Statement (.dcoLockLost g tile) := fun _ => ⟨rfl, rfl⟩
theorem Seg.dcoLockRegained (g : Fin 4) (tile : Fin 144) :
    Seg.Statement (.dcoLockRegained g tile) := fun _ => ⟨rfl, rfl⟩
theorem Seg.pulseRaise (g : Fin 4) (src : Fin 1024) (cause : Byte) (synd : Word) :
    Seg.Statement (.pulseRaise g src cause synd) := fun _ => ⟨rfl, rfl⟩
theorem Seg.eventProcess (g : Fin 4) (look : EventLook) :
    Seg.Statement (.eventProcess g look) := fun _ => ⟨rfl, rfl⟩
theorem Seg.clkOvrClear (g : Fin 4) (r : Requester) (w : Fin 5) (bits : Word) :
    Seg.Statement (.clkOvrClear g r w bits) := fun _ => ⟨rfl, rfl⟩
theorem Seg.activeLevelChange (g : Fin 4) (src : Fin 1024) (level : Bool) :
    Seg.Statement (.activeLevelChange g src level) := fun _ => ⟨rfl, rfl⟩
theorem Seg.srcClear (g : Fin 4) (r : Requester) (src : BitVec 10) :
    Seg.Statement (.srcClear g r src) := fun _ => ⟨rfl, rfl⟩
theorem Seg.srcRestore (g : Fin 4) (r : Requester) (src : BitVec 10) (bundle : BitVec 5) :
    Seg.Statement (.srcRestore g r src bundle) := fun _ => ⟨rfl, rfl⟩
theorem Seg.restoreComplete (g : Fin 4) :
    Seg.Statement (.restoreComplete g) := fun _ => ⟨rfl, rfl⟩
theorem Seg.autoClear (g : Fin 4) (src : Fin 1024) :
    Seg.Statement (.autoClear g src) := fun _ => ⟨rfl, rfl⟩
theorem Seg.collectorGlazePass (g : Fin 4) :
    Seg.Statement (.collectorGlazePass g) := fun _ => ⟨rfl, rfl⟩
theorem Seg.bulkCfgWrite (g : Fin 4) (r : Requester) (type : BitVec 3) :
    Seg.Statement (.bulkCfgWrite g r type) := fun _ => ⟨rfl, rfl⟩
theorem Seg.injectEvent (g : Fin 4) (r : Requester) :
    Seg.Statement (.injectEvent g r) := fun _ => ⟨rfl, rfl⟩
theorem Seg.injectFlit (g : Fin 4) (r : Requester) :
    Seg.Statement (.injectFlit g r) := fun _ => ⟨rfl, rfl⟩
theorem Seg.injectGlaze (g : Fin 4) (r : Requester) :
    Seg.Statement (.injectGlaze g r) := fun _ => ⟨rfl, rfl⟩
theorem Seg.injectLane (g : Fin 4) (r : Requester) :
    Seg.Statement (.injectLane g r) := fun _ => ⟨rfl, rfl⟩
theorem Seg.injectionSpacing (g : Fin 4) :
    Seg.Statement (.injectionSpacing g) := fun _ => ⟨rfl, rfl⟩
theorem Seg.linkDnRise (g : Fin 4) (tile : Fin 144) (port : Port) :
    Seg.Statement (.linkDnRise g tile port) := fun _ => ⟨rfl, rfl⟩
theorem Seg.creditInitReceive (g : Fin 4) (tile : Fin 144) (port : Port) :
    Seg.Statement (.creditInitReceive g tile port) := fun _ => ⟨rfl, rfl⟩
theorem Seg.autoIdleEntry (g : Fin 4) (dom : Fin 1024) :
    Seg.Statement (.autoIdleEntry g dom) := fun _ => ⟨rfl, rfl⟩
theorem Seg.autoDrowsyEntry (g : Fin 4) (dom : Fin 1024) :
    Seg.Statement (.autoDrowsyEntry g dom) := fun _ => ⟨rfl, rfl⟩
theorem Seg.autoRetainEntry (g : Fin 4) (dom : Fin 1024) :
    Seg.Statement (.autoRetainEntry g dom) := fun _ => ⟨rfl, rfl⟩
theorem Seg.domainWake (g : Fin 4) (dom : Fin 1024) :
    Seg.Statement (.domainWake g dom) := fun _ => ⟨rfl, rfl⟩
theorem Seg.domainWakeDone (g : Fin 4) (dom : Fin 1024) (badCanary : Option (Fin 4)) :
    Seg.Statement (.domainWakeDone g dom badCanary) := fun _ => ⟨rfl, rfl⟩
theorem Seg.tileOff (g : Fin 4) (r : Requester) (first : Byte) (last : Byte) (keep : Bool) :
    Seg.Statement (.tileOff g r first last keep) := fun _ => ⟨rfl, rfl⟩
theorem Seg.tileWake (g : Fin 4) (r : Requester) (first : Byte) (last : Byte) :
    Seg.Statement (.tileWake g r first last) := fun _ => ⟨rfl, rfl⟩
theorem Seg.bankOff (g : Fin 4) (r : Requester) (first : Byte) (last : Byte) :
    Seg.Statement (.bankOff g r first last) := fun _ => ⟨rfl, rfl⟩
theorem Seg.bankWake (g : Fin 4) (r : Requester) (first : Byte) (last : Byte) :
    Seg.Statement (.bankWake g r first last) := fun _ => ⟨rfl, rfl⟩
theorem Seg.tileWakeRowStep (g : Fin 4) :
    Seg.Statement (.tileWakeRowStep g) := fun _ => ⟨rfl, rfl⟩
theorem Seg.tileCmdComplete (g : Fin 4) :
    Seg.Statement (.tileCmdComplete g) := fun _ => ⟨rfl, rfl⟩
theorem Seg.segEntryDrowsy (g : Fin 4) (r : Requester) :
    Seg.Statement (.segEntryDrowsy g r) := fun _ => ⟨rfl, rfl⟩
theorem Seg.segEntryRetain (g : Fin 4) (r : Requester) :
    Seg.Statement (.segEntryRetain g r) := fun _ => ⟨rfl, rfl⟩
theorem Seg.segEntryAon (g : Fin 4) (r : Requester) (halt : Bool) :
    Seg.Statement (.segEntryAon g r halt) := fun _ => ⟨rfl, rfl⟩
theorem Seg.aonHalt (g : Fin 4) :
    Seg.Statement (.aonHalt g) := fun _ => ⟨rfl, rfl⟩
theorem Seg.prepareReceive (g : Fin 4) (unit : VoteUnit) :
    Seg.Statement (.prepareReceive g unit) := fun _ => ⟨rfl, rfl⟩
theorem Seg.sleepVote (g : Fin 4) (unit : VoteUnit) :
    Seg.Statement (.sleepVote g unit) := fun _ => ⟨rfl, rfl⟩
theorem Seg.niSleepRefuse (g : Fin 4) (site : Fin 288) :
    Seg.Statement (.niSleepRefuse g site) := fun _ => ⟨rfl, rfl⟩
theorem Seg.voteCollect (g : Fin 4) :
    Seg.Statement (.voteCollect g) := fun _ => ⟨rfl, rfl⟩
theorem Seg.voteTimeout (g : Fin 4) :
    Seg.Statement (.voteTimeout g) := fun _ => ⟨rfl, rfl⟩
theorem Seg.commitReceive (g : Fin 4) (unit : VoteUnit) :
    Seg.Statement (.commitReceive g unit) := fun _ => ⟨rfl, rfl⟩
theorem Seg.abortReceive (g : Fin 4) (unit : VoteUnit) :
    Seg.Statement (.abortReceive g unit) := fun _ => ⟨rfl, rfl⟩
theorem Seg.regulatorFullModeReturn (g : Fin 4) :
    Seg.Statement (.regulatorFullModeReturn g) := fun _ => ⟨rfl, rfl⟩
theorem Seg.brownOut (g : Fin 4) (tripped : List (Fin 1024)) (belowLatch : Bool) :
    Seg.Statement (.brownOut g tripped belowLatch) := fun _ => ⟨rfl, rfl⟩
theorem Seg.aonRestart (g : Fin 4) (testMode : Bool) :
    Seg.Statement (.aonRestart g testMode) := fun _ => ⟨rfl, rfl⟩
theorem Seg.pgSramLoss (g : Fin 4) :
    Seg.Statement (.pgSramLoss g) := fun _ => ⟨rfl, rfl⟩
theorem Seg.powerCapStep (g : Fin 4) :
    Seg.Statement (.powerCapStep g) := fun _ => ⟨rfl, rfl⟩
theorem Seg.residencySample (g : Fin 4) :
    Seg.Statement (.residencySample g) := fun _ => ⟨rfl, rfl⟩
theorem Seg.vackRise (g : Fin 4) (quad : Fin 4) :
    Seg.Statement (.vackRise g quad) := fun _ => ⟨rfl, rfl⟩
theorem Seg.vackTimeout (g : Fin 4) (quad : Fin 4) :
    Seg.Statement (.vackTimeout g quad) := fun _ => ⟨rfl, rfl⟩
theorem Seg.clkSwitch (g : Fin 4) (r : Requester) (refclkOk : Bool) :
    Seg.Statement (.clkSwitch g r refclkOk) := fun _ => ⟨rfl, rfl⟩
theorem Seg.refclkCheckRetry (g : Fin 4) (refclkOk : Bool) :
    Seg.Statement (.refclkCheckRetry g refclkOk) := fun _ => ⟨rfl, rfl⟩
theorem Seg.tickLock (g : Fin 4) :
    Seg.Statement (.tickLock g) := fun _ => ⟨rfl, rfl⟩
theorem Seg.frameReceive (g : Fin 4) (br : Fin 2) (bundle : Fin 24) (f : RxFrame) :
    Seg.Statement (.frameReceive g br bundle f) := fun _ => ⟨rfl, rfl⟩
theorem Seg.nakReceive (g : Fin 4) (br : Fin 2) (bundle : Fin 24) (fsn : Byte) :
    Seg.Statement (.nakReceive g br bundle fsn) := fun _ => ⟨rfl, rfl⟩
theorem Seg.replayTimeout (g : Fin 4) (br : Fin 2) (bundle : Fin 24) :
    Seg.Statement (.replayTimeout g br bundle) := fun _ => ⟨rfl, rfl⟩
theorem Seg.bridgeRetrainTimeout (g : Fin 4) (br : Fin 2) (bundle : Fin 24) :
    Seg.Statement (.bridgeRetrainTimeout g br bundle) := fun _ => ⟨rfl, rfl⟩
theorem Seg.laneFail (g : Fin 4) (br : Fin 2) (bundle : Fin 24) (lane : Fin 17) :
    Seg.Statement (.laneFail g br bundle lane) := fun _ => ⟨rfl, rfl⟩
theorem Seg.laneFrameReceive (g : Fin 4) (br : Fin 2) (bundle : Fin 24) (lane : Fin 32) (half : Bool)
    (mask : BitVec 17) :
    Seg.Statement (.laneFrameReceive g br bundle lane half mask) := fun _ => ⟨rfl, rfl⟩
theorem Seg.bundleTrainStart (g : Fin 4) (br : Fin 2) (bundle : Fin 24) :
    Seg.Statement (.bundleTrainStart g br bundle) := fun _ => ⟨rfl, rfl⟩
theorem Seg.bundleTrainComplete (g : Fin 4) (br : Fin 2) (bundle : Fin 24) (rx : TrainLook) (txLanes : BitVec 17) :
    Seg.Statement (.bundleTrainComplete g br bundle rx txLanes) := fun _ => ⟨rfl, rfl⟩
theorem Seg.laneCmdRetrain (g : Fin 4) (r : Requester) (br : Fin 2) (bundle : BitVec 5) :
    Seg.Statement (.laneCmdRetrain g r br bundle) := fun _ => ⟨rfl, rfl⟩
theorem Seg.bundleSleepEntry (g : Fin 4) (br : Fin 2) (bundle : Fin 24) :
    Seg.Statement (.bundleSleepEntry g br bundle) := fun _ => ⟨rfl, rfl⟩
theorem Seg.drowseReceive (g : Fin 4) (br : Fin 2) (look : DrowseLook) :
    Seg.Statement (.drowseReceive g br look) := fun _ => ⟨rfl, rfl⟩
theorem Seg.bundleWake (g : Fin 4) (br : Fin 2) (bundle : Fin 24) :
    Seg.Statement (.bundleWake g br bundle) := fun _ => ⟨rfl, rfl⟩
theorem Seg.rxeiFallWake (g : Fin 4) (br : Fin 2) (bundle : Fin 24) :
    Seg.Statement (.rxeiFallWake g br bundle) := fun _ => ⟨rfl, rfl⟩
theorem Seg.pairReturnHoldExpiry (g : Fin 4) (br : Fin 2) (bundle : Fin 24) (src : BitVec 12) (dest : BitVec 12) :
    Seg.Statement (.pairReturnHoldExpiry g br bundle src dest) := fun _ => ⟨rfl, rfl⟩
theorem Seg.bridgeC1Release (g : Fin 4) (br : Fin 2) (bundle : Fin 24) (plane : Plane) :
    Seg.Statement (.bridgeC1Release g br bundle plane) := fun _ => ⟨rfl, rfl⟩
theorem Seg.bundleStartLapse (g : Fin 4) (br : Fin 2) (bundle : Fin 24) :
    Seg.Statement (.bundleStartLapse g br bundle) := fun _ => ⟨rfl, rfl⟩
theorem Seg.bslotDataWrite (g : Fin 4) (r : Requester) (br : Fin 2) (word : Word) :
    Seg.Statement (.bslotDataWrite g r br word) := fun _ => ⟨rfl, rfl⟩
theorem Seg.brSlotCopy (g : Fin 4) (r : Requester) (br : Fin 2) :
    Seg.Statement (.brSlotCopy g r br) := fun _ => ⟨rfl, rfl⟩
theorem Seg.brSlotClear (g : Fin 4) (r : Requester) (br : Fin 2) :
    Seg.Statement (.brSlotClear g r br) := fun _ => ⟨rfl, rfl⟩
theorem Seg.brSlotSwapReq (g : Fin 4) (r : Requester) (br : Fin 2) :
    Seg.Statement (.brSlotSwapReq g r br) := fun _ => ⟨rfl, rfl⟩
theorem Seg.pairDown (g : Fin 4) (br : Fin 2) :
    Seg.Statement (.pairDown g br) := fun _ => ⟨rfl, rfl⟩
theorem Seg.pairRetrainTimer (g : Fin 4) (br : Fin 2) :
    Seg.Statement (.pairRetrainTimer g br) := fun _ => ⟨rfl, rfl⟩
theorem Seg.join (g : Fin 4) (r : Requester) :
    Seg.Statement (.join g r) := fun _ => ⟨rfl, rfl⟩
theorem Seg.helloReceive (g : Fin 4) (br : Fin 2) (h : Hello) :
    Seg.Statement (.helloReceive g br h) := fun _ => ⟨rfl, rfl⟩
theorem Seg.joinTimeout (g : Fin 4) :
    Seg.Statement (.joinTimeout g) := fun _ => ⟨rfl, rfl⟩
theorem Seg.joinAdmitted (g : Fin 4) (ring : Ring) :
    Seg.Statement (.joinAdmitted g ring) := fun _ => ⟨rfl, rfl⟩
theorem Seg.admitSeg (g : Fin 4) (r : Requester) (t : Fin 4) :
    Seg.Statement (.admitSeg g r t) := fun _ => ⟨rfl, rfl⟩
theorem Seg.admitLapse (g : Fin 4) :
    Seg.Statement (.admitLapse g) := fun _ => ⟨rfl, rfl⟩
theorem Seg.leave (g : Fin 4) (r : Requester) :
    Seg.Statement (.leave g r) := fun _ => ⟨rfl, rfl⟩
theorem Seg.ringStateReport (g : Fin 4) (rep : RingReport) :
    Seg.Statement (.ringStateReport g rep) := fun _ => ⟨rfl, rfl⟩
theorem Seg.ringStateAdopt (g : Fin 4) (ring : Ring) :
    Seg.Statement (.ringStateAdopt g ring) := fun _ => ⟨rfl, rfl⟩
theorem Seg.beaconSend (g : Fin 4) :
    Seg.Statement (.beaconSend g) := fun _ => ⟨rfl, rfl⟩
theorem Seg.beaconAnswerTimeout (g : Fin 4) (far : Fin 4) :
    Seg.Statement (.beaconAnswerTimeout g far) := fun _ => ⟨rfl, rfl⟩
theorem Seg.anchorTimeout (g : Fin 4) :
    Seg.Statement (.anchorTimeout g) := fun _ => ⟨rfl, rfl⟩
theorem Seg.timeExchange (g : Fin 4) (br : Fin 2) :
    Seg.Statement (.timeExchange g br) := fun _ => ⟨rfl, rfl⟩
theorem Seg.timeFrameReceive (g : Fin 4) (br : Fin 2) (st : Stamps) :
    Seg.Statement (.timeFrameReceive g br st) := fun _ => ⟨rfl, rfl⟩
theorem Seg.bayDebounceExpiry (g : Fin 4) (bay : Fin 8) :
    Seg.Statement (.bayDebounceExpiry g bay) := fun _ => ⟨rfl, rfl⟩
theorem Seg.bayPresenceFall (g : Fin 4) (bay : Fin 8) :
    Seg.Statement (.bayPresenceFall g bay) := fun _ => ⟨rfl, rfl⟩
theorem Seg.bayRemoval (g : Fin 4) (bay : Fin 8) :
    Seg.Statement (.bayRemoval g bay) := fun _ => ⟨rfl, rfl⟩
theorem Seg.bayInsertionDelayExpiry (g : Fin 4) (bay : Fin 8) :
    Seg.Statement (.bayInsertionDelayExpiry g bay) := fun _ => ⟨rfl, rfl⟩
theorem Seg.bayPrechargeExpiry (g : Fin 4) (bay : Fin 8) :
    Seg.Statement (.bayPrechargeExpiry g bay) := fun _ => ⟨rfl, rfl⟩
theorem Seg.bayPowerGood (g : Fin 4) (bay : Fin 8) :
    Seg.Statement (.bayPowerGood g bay) := fun _ => ⟨rfl, rfl⟩
theorem Seg.bayGateRiseTimeout (g : Fin 4) (bay : Fin 8) (gateUp : Bool) :
    Seg.Statement (.bayGateRiseTimeout g bay gateUp) := fun _ => ⟨rfl, rfl⟩
theorem Seg.bayGateLost (g : Fin 4) (bay : Fin 8) :
    Seg.Statement (.bayGateLost g bay) := fun _ => ⟨rfl, rfl⟩
theorem Seg.bayOutputWithoutGate (g : Fin 4) (bay : Fin 8) :
    Seg.Statement (.bayOutputWithoutGate g bay) := fun _ => ⟨rfl, rfl⟩
theorem Seg.bayOvercurrent (g : Fin 4) (bay : Fin 8) (nearRemoval : Bool) :
    Seg.Statement (.bayOvercurrent g bay nearRemoval) := fun _ => ⟨rfl, rfl⟩
theorem Seg.bayWindowLoss (g : Fin 4) (bay : Fin 8) (uv : Bool) (ov : Bool) :
    Seg.Statement (.bayWindowLoss g bay uv ov) := fun _ => ⟨rfl, rfl⟩
theorem Seg.bayRetryExpiry (g : Fin 4) (bay : Fin 8) :
    Seg.Statement (.bayRetryExpiry g bay) := fun _ => ⟨rfl, rfl⟩
theorem Seg.bayStrikeAgeOut (g : Fin 4) (bay : Fin 8) :
    Seg.Statement (.bayStrikeAgeOut g bay) := fun _ => ⟨rfl, rfl⟩
theorem Seg.bayIdentityDelayExpiry (g : Fin 4) (bay : Fin 8) :
    Seg.Statement (.bayIdentityDelayExpiry g bay) := fun _ => ⟨rfl, rfl⟩
theorem Seg.bayIdentityReadEnd (g : Fin 4) (bay : Fin 8) (record : BitVec 2048) :
    Seg.Statement (.bayIdentityReadEnd g bay record) := fun _ => ⟨rfl, rfl⟩
theorem Seg.bayIdAttemptRetry (g : Fin 4) (bay : Fin 8) :
    Seg.Statement (.bayIdAttemptRetry g bay) := fun _ => ⟨rfl, rfl⟩
theorem Seg.bayBind (g : Fin 4) (r : Requester) (bay : Fin 8) :
    Seg.Statement (.bayBind g r bay) := fun _ => ⟨rfl, rfl⟩
theorem Seg.bayUnbind (g : Fin 4) (r : Requester) (bay : Fin 8) :
    Seg.Statement (.bayUnbind g r bay) := fun _ => ⟨rfl, rfl⟩
theorem Seg.bayReread (g : Fin 4) (r : Requester) (bay : Fin 8) :
    Seg.Statement (.bayReread g r bay) := fun _ => ⟨rfl, rfl⟩
theorem Seg.bayEnable (g : Fin 4) (r : Requester) (bay : Fin 8) :
    Seg.Statement (.bayEnable g r bay) := fun _ => ⟨rfl, rfl⟩
theorem Seg.bayDisable (g : Fin 4) (r : Requester) (bay : Fin 8) :
    Seg.Statement (.bayDisable g r bay) := fun _ => ⟨rfl, rfl⟩
theorem Seg.kilnLogic (g : Fin 4) (r : Requester) (scope : Bool) (unit : BitVec 10) (bundle : BitVec 5)
    (seedEn : Bool) :
    Seg.Statement (.kilnLogic g r scope unit bundle seedEn) := fun _ => ⟨rfl, rfl⟩
theorem Seg.kilnMemory (g : Fin 4) (r : Requester) (scope : Bool) (unit : BitVec 10) (bundle : BitVec 5)
    (seedEn : Bool) :
    Seg.Statement (.kilnMemory g r scope unit bundle seedEn) := fun _ => ⟨rfl, rfl⟩
theorem Seg.kilnLogicMemory (g : Fin 4) (r : Requester) (scope : Bool) (unit : BitVec 10) (bundle : BitVec 5)
    (seedEn : Bool) :
    Seg.Statement (.kilnLogicMemory g r scope unit bundle seedEn) := fun _ => ⟨rfl, rfl⟩
theorem Seg.kilnAbort (g : Fin 4) (r : Requester) :
    Seg.Statement (.kilnAbort g r) := fun _ => ⟨rfl, rfl⟩
theorem Seg.kilnApply (g : Fin 4) (r : Requester) :
    Seg.Statement (.kilnApply g r) := fun _ => ⟨rfl, rfl⟩
theorem Seg.kilnRunComplete (g : Fin 4) (found : KilnFind) :
    Seg.Statement (.kilnRunComplete g found) := fun _ => ⟨rfl, rfl⟩
theorem Seg.factoryKeyWrite (g : Fin 4) (r : Requester) (key : BitVec 16) (late : Bool) :
    Seg.Statement (.factoryKeyWrite g r key late) := fun _ => ⟨rfl, rfl⟩
theorem Seg.factoryEnter (g : Fin 4) (r : Requester) (late : Bool) :
    Seg.Statement (.factoryEnter g r late) := fun _ => ⟨rfl, rfl⟩
theorem Seg.factoryExit (g : Fin 4) (r : Requester) :
    Seg.Statement (.factoryExit g r) := fun _ => ⟨rfl, rfl⟩
theorem Seg.fuseProgram (g : Fin 4) (r : Requester) (word : BitVec 10) :
    Seg.Statement (.fuseProgram g r word) := fun _ => ⟨rfl, rfl⟩
theorem Seg.fuseProgRepair (g : Fin 4) (r : Requester) :
    Seg.Statement (.fuseProgRepair g r) := fun _ => ⟨rfl, rfl⟩
theorem Seg.fuseCmdComplete (g : Fin 4) (stuck : Word) :
    Seg.Statement (.fuseCmdComplete g stuck) := fun _ => ⟨rfl, rfl⟩
theorem Seg.bundleBlockSlot (g : Fin 4) (br : Fin 2) (bundle : Fin 24) :
    Seg.Statement (.bundleBlockSlot g br bundle) := fun _ => ⟨rfl, rfl⟩
theorem Seg.acknowledgePhaseEnd (g : Fin 4) (src : Fin 1024) :
    Seg.Statement (.acknowledgePhaseEnd g src) := fun _ => ⟨rfl, rfl⟩
theorem Seg.vackFall (g : Fin 4) (quad : Fin 4) :
    Seg.Statement (.vackFall g quad) := fun _ => ⟨rfl, rfl⟩
theorem Seg.identityAttemptFailed (g : Fin 4) (bay : Fin 8) (stretch : Bool) :
    Seg.Statement (.identityAttemptFailed g bay stretch) := fun _ => ⟨rfl, rfl⟩
theorem Seg.probeLookup (g : Fin 4) (r : Requester) (site : Fin 288) (idx : BitVec 18) :
    Seg.Statement (.probeLookup g r site idx) := fun _ => ⟨rfl, rfl⟩

end Sys2Proof.Laws
end

