-- ==== Sys2Proof/Laws/State.lean ====
section
/-!
SUPPORT. What each update of a segment leaves alone, field by field, so that no proof unfolds a record update; the
segments of a state after an update; and the laws of bank memory.
-/
namespace Sys2Proof.Machine

/-! ### Segments of a state -/

@[simp] theorem State.seg_setSeg_same (s : State) (g : Fin 4) (t : Seg) : (s.setSeg g t).seg g = t := by
  match g with
  | 0 => rfl
  | 1 => rfl
  | 2 => rfl
  | 3 => rfl

@[simp] theorem State.seg_setSeg_other (s : State) {g h : Fin 4} (t : Seg) (hh : h ≠ g) : (s.setSeg g t).seg h = s.seg h := by
  match g, h with
  | 0, 0 | 1, 1 | 2, 2 | 3, 3 => exact absurd rfl hh
  | 0, 1 | 0, 2 | 0, 3 | 1, 0 | 1, 2 | 1, 3 | 2, 0 | 2, 1 | 2, 3 | 3, 0 | 3, 1 | 3, 2 => rfl

@[simp] theorem State.pending_setSeg (s : State) (g : Fin 4) (t : Seg) : (s.setSeg g t).pending = s.pending := by
  match g with
  | 0 => rfl
  | 1 => rfl
  | 2 => rfl
  | 3 => rfl

@[simp] theorem State.seg_pending (s : State) (l : List Instr) (g : Fin 4) : ({ s with pending := l } : State).seg g = s.seg g := by
  match g with
  | 0 => rfl
  | 1 => rfl
  | 2 => rfl
  | 3 => rfl

@[simp] theorem State.seg_modSeg_same (s : State) (g : Fin 4) (f : Seg → Seg) : (s.modSeg g f).seg g = f (s.seg g) :=
  State.seg_setSeg_same ..

@[simp] theorem State.seg_modSeg_other (s : State) {g h : Fin 4} (f : Seg → Seg) (hh : h ≠ g) : (s.modSeg g f).seg h = s.seg h :=
  State.seg_setSeg_other _ _ hh

@[simp] theorem State.pending_modSeg (s : State) (g : Fin 4) (f : Seg → Seg) : (s.modSeg g f).pending = s.pending :=
  State.pending_setSeg ..

@[simp] theorem State.pending_advance (s : State) : s.advance.pending = s.pending := rfl

/-- Time passes in each segment by itself. -/
theorem State.seg_advance (s : State) (g : Fin 4) : s.advance.seg g = (s.seg g).advance := by
  match g with
  | 0 => rfl
  | 1 => rfl
  | 2 => rfl
  | 3 => rfl

/-! ### The unit just written -/

@[simp] theorem Seg.ni_setNi_same (s : Seg) (n : Nat) (x : Ni) : (s.setNi n x).ni n = x :=
  SMap.get_put_same ..

@[simp] theorem Seg.ni_setNi_other (s : Seg) {n k : Nat} (x : Ni) (h : k ≠ n) : (s.setNi n x).ni k = s.ni k :=
  SMap.get_put_other _ _ _ _ h

@[simp] theorem Seg.ep_setEp_same (s : Seg) (l : Nat) (x : Ep) : (s.setEp l x).ep l = x :=
  SMap.get_put_same ..

@[simp] theorem Seg.ep_setEp_other (s : Seg) {l k : Nat} (x : Ep) (h : k ≠ l) : (s.setEp l x).ep k = s.ep k :=
  SMap.get_put_other _ _ _ _ h

@[simp] theorem Seg.bank_setBank_same (s : Seg) (b : Nat) (x : Bank) : (s.setBank b x).bank b = x :=
  SMap.get_put_same ..

@[simp] theorem Seg.bank_setBank_other (s : Seg) {b k : Nat} (x : Bank) (h : k ≠ b) : (s.setBank b x).bank k = s.bank k :=
  SMap.get_put_other _ _ _ _ h

@[simp] theorem Seg.src_setSrc_same (s : Seg) (l : Nat) (x : Src) : (s.setSrc l x).src l = x :=
  SMap.get_put_same ..

@[simp] theorem Seg.src_setSrc_other (s : Seg) {l k : Nat} (x : Src) (h : k ≠ l) : (s.setSrc l x).src k = s.src k :=
  SMap.get_put_other _ _ _ _ h

@[simp] theorem Seg.pulse_setPulse_same (s : Seg) (l : Nat) (x : Pulse) : (s.setPulse l x).pulse l = x :=
  SMap.get_put_same ..

@[simp] theorem Seg.pulse_setPulse_other (s : Seg) {l k : Nat} (x : Pulse) (h : k ≠ l) : (s.setPulse l x).pulse k = s.pulse k :=
  SMap.get_put_other _ _ _ _ h

@[simp] theorem Seg.bay_setBay_same (s : Seg) (n : Nat) (x : Bay) : (s.setBay n x).bay n = x :=
  SMap.get_put_same ..

@[simp] theorem Seg.bay_setBay_other (s : Seg) {n k : Nat} (x : Bay) (h : k ≠ n) : (s.setBay n x).bay k = s.bay k :=
  SMap.get_put_other _ _ _ _ h

/-! ### Bank memory -/

@[simp] theorem Seg.bByte_setBByte_same (s : Seg) (b a : Nat) (v : Byte) : (s.setBByte b a v).bByte b a = v :=
  SMap.get_put_same ..

theorem Seg.bByte_setBByte_other (s : Seg) {b a b' a' : Nat} (v : Byte) (h : b' * 0x20000 + a' ≠ b * 0x20000 + a) :
    (s.setBByte b a v).bByte b' a' = s.bByte b' a' :=
  SMap.get_put_other _ _ _ _ h

/-- A store of `n` bytes leaves every byte outside it alone. -/
theorem Seg.bByte_setBBytes_other (s : Seg) (b a v : Nat) (n : Nat) {b' a' : Nat}
    (h : b' * 0x20000 + a' < b * 0x20000 + a ∨ b * 0x20000 + a + n ≤ b' * 0x20000 + a') :
    (s.setBBytes b a v n).bByte b' a' = s.bByte b' a' := by
  induction n generalizing s a v with
  | zero => rfl
  | succ n ih =>
    rw [Seg.setBBytes, ih _ _ _ (by omega), Seg.bByte_setBByte_other _ _ (by omega)]

theorem Seg.setBByte_wf (s : Seg) (b a : Nat) (v : Byte) (h : Memory.wf s.bmem = true) : Memory.wf (s.setBByte b a v).bmem = true :=
  SMap.wf_put (fun _ => 0) _ _ _ h

theorem Seg.setBBytes_wf (s : Seg) (b a v : Nat) (n : Nat) (h : Memory.wf s.bmem = true) :
    Memory.wf (s.setBBytes b a v n).bmem = true := by
  induction n generalizing s a v with
  | zero => exact h
  | succ n ih => exact ih _ _ _ (Seg.setBByte_wf s b a _ h)

theorem Seg.zeroBank_wf (s : Seg) (b : Nat) (h : Memory.wf s.bmem = true) : Memory.wf (s.zeroBank b).bmem = true :=
  SMap.wf_filter _ _ _ h

theorem State.reset_wf (g : Fin 4) : Memory.wf (State.reset.seg g).bmem = true := by
  match g with
  | 0 => rfl
  | 1 => rfl
  | 2 => rfl
  | 3 => rfl

/-! ### Frames of the updates -/

@[simp] theorem Seg.strap_setWord (s : Seg) (p off : Nat) (v : Word) : (s.setWord p off v).strap = s.strap := rfl
@[simp] theorem Seg.cnts_setWord (s : Seg) (p off : Nat) (v : Word) : (s.setWord p off v).cnts = s.cnts := rfl
@[simp] theorem Seg.flips_setWord (s : Seg) (p off : Nat) (v : Word) : (s.setWord p off v).flips = s.flips := rfl
@[simp] theorem Seg.fuses_setWord (s : Seg) (p off : Nat) (v : Word) : (s.setWord p off v).fuses = s.fuses := rfl
@[simp] theorem Seg.ramp_setWord (s : Seg) (p off : Nat) (v : Word) : (s.setWord p off v).ramp = s.ramp := rfl
@[simp] theorem Seg.vwait_setWord (s : Seg) (p off : Nat) (v : Word) : (s.setWord p off v).vwait = s.vwait := rfl
@[simp] theorem Seg.dcoLost_setWord (s : Seg) (p off : Nat) (v : Word) : (s.setWord p off v).dcoLost = s.dcoLost := rfl
@[simp] theorem Seg.held_setWord (s : Seg) (p off : Nat) (v : Word) : (s.setWord p off v).held = s.held := rfl
@[simp] theorem Seg.ftb_setWord (s : Seg) (p off : Nat) (v : Word) : (s.setWord p off v).ftb = s.ftb := rfl
@[simp] theorem Seg.bisque_setWord (s : Seg) (p off : Nat) (v : Word) : (s.setWord p off v).bisque = s.bisque := rfl
@[simp] theorem Seg.tileFtb_setWord (s : Seg) (p off : Nat) (v : Word) : (s.setWord p off v).tileFtb = s.tileFtb := rfl
@[simp] theorem Seg.synced_setWord (s : Seg) (p off : Nat) (v : Word) : (s.setWord p off v).synced = s.synced := rfl
@[simp] theorem Seg.pins_setWord (s : Seg) (p off : Nat) (v : Word) : (s.setWord p off v).pins = s.pins := rfl
@[simp] theorem Seg.mp_setWord (s : Seg) (p off : Nat) (v : Word) : (s.setWord p off v).mp = s.mp := rfl
@[simp] theorem Seg.ctl_setWord (s : Seg) (p off : Nat) (v : Word) : (s.setWord p off v).ctl = s.ctl := rfl
@[simp] theorem Seg.kiln_setWord (s : Seg) (p off : Nat) (v : Word) : (s.setWord p off v).kiln = s.kiln := rfl
@[simp] theorem Seg.srcs_setWord (s : Seg) (p off : Nat) (v : Word) : (s.setWord p off v).srcs = s.srcs := rfl
@[simp] theorem Seg.srcCfg_setWord (s : Seg) (p off : Nat) (v : Word) : (s.setWord p off v).srcCfg = s.srcCfg := rfl
@[simp] theorem Seg.pulses_setWord (s : Seg) (p off : Nat) (v : Word) : (s.setWord p off v).pulses = s.pulses := rfl
@[simp] theorem Seg.eps_setWord (s : Seg) (p off : Nat) (v : Word) : (s.setWord p off v).eps = s.eps := rfl
@[simp] theorem Seg.nis_setWord (s : Seg) (p off : Nat) (v : Word) : (s.setWord p off v).nis = s.nis := rfl
@[simp] theorem Seg.banks_setWord (s : Seg) (p off : Nat) (v : Word) : (s.setWord p off v).banks = s.banks := rfl
@[simp] theorem Seg.bmem_setWord (s : Seg) (p off : Nat) (v : Word) : (s.setWord p off v).bmem = s.bmem := rfl
@[simp] theorem Seg.marks_setWord (s : Seg) (p off : Nat) (v : Word) : (s.setWord p off v).marks = s.marks := rfl
@[simp] theorem Seg.canary_setWord (s : Seg) (p off : Nat) (v : Word) : (s.setWord p off v).canary = s.canary := rfl
@[simp] theorem Seg.landing_setWord (s : Seg) (p off : Nat) (v : Word) : (s.setWord p off v).landing = s.landing := rfl
@[simp] theorem Seg.vcbuf_setWord (s : Seg) (p off : Nat) (v : Word) : (s.setWord p off v).vcbuf = s.vcbuf := rfl
@[simp] theorem Seg.inFlow_setWord (s : Seg) (p off : Nat) (v : Word) : (s.setWord p off v).inFlow = s.inFlow := rfl
@[simp] theorem Seg.outVc_setWord (s : Seg) (p off : Nat) (v : Word) : (s.setWord p off v).outVc = s.outVc := rfl
@[simp] theorem Seg.cred_setWord (s : Seg) (p off : Nat) (v : Word) : (s.setWord p off v).cred = s.cred := rfl
@[simp] theorem Seg.freed_setWord (s : Seg) (p off : Nat) (v : Word) : (s.setWord p off v).freed = s.freed := rfl
@[simp] theorem Seg.seenGray_setWord (s : Seg) (p off : Nat) (v : Word) : (s.setWord p off v).seenGray = s.seenGray := rfl
@[simp] theorem Seg.waits_setWord (s : Seg) (p off : Nat) (v : Word) : (s.setWord p off v).waits = s.waits := rfl
@[simp] theorem Seg.outs_setWord (s : Seg) (p off : Nat) (v : Word) : (s.setWord p off v).outs = s.outs := rfl
@[simp] theorem Seg.linkDn_setWord (s : Seg) (p off : Nat) (v : Word) : (s.setWord p off v).linkDn = s.linkDn := rfl
@[simp] theorem Seg.initDue_setWord (s : Seg) (p off : Nat) (v : Word) : (s.setWord p off v).initDue = s.initDue := rfl
@[simp] theorem Seg.dropTail_setWord (s : Seg) (p off : Nat) (v : Word) : (s.setWord p off v).dropTail = s.dropTail := rfl
@[simp] theorem Seg.slots_setWord (s : Seg) (p off : Nat) (v : Word) : (s.setWord p off v).slots = s.slots := rfl
@[simp] theorem Seg.descs_setWord (s : Seg) (p off : Nat) (v : Word) : (s.setWord p off v).descs = s.descs := rfl
@[simp] theorem Seg.bslots_setWord (s : Seg) (p off : Nat) (v : Word) : (s.setWord p off v).bslots = s.bslots := rfl
@[simp] theorem Seg.brs_setWord (s : Seg) (p off : Nat) (v : Word) : (s.setWord p off v).brs = s.brs := rfl
@[simp] theorem Seg.bays_setWord (s : Seg) (p off : Nat) (v : Word) : (s.setWord p off v).bays = s.bays := rfl
@[simp] theorem Seg.aligned_setWord (s : Seg) (p off : Nat) (v : Word) : (s.setWord p off v).aligned = s.aligned := rfl
@[simp] theorem Seg.samp_setWord (s : Seg) (p off : Nat) (v : Word) : (s.setWord p off v).samp = s.samp := rfl
@[simp] theorem Seg.order_setWord (s : Seg) (p off : Nat) (v : Word) : (s.setWord p off v).order = s.order := rfl
@[simp] theorem Seg.free_setWord (s : Seg) (p off : Nat) (v : Word) : (s.setWord p off v).free = s.free := rfl

@[simp] theorem Seg.strap_setNi (s : Seg) (n : Nat) (x : Ni) : (s.setNi n x).strap = s.strap := rfl
@[simp] theorem Seg.regs_setNi (s : Seg) (n : Nat) (x : Ni) : (s.setNi n x).regs = s.regs := rfl
@[simp] theorem Seg.cnts_setNi (s : Seg) (n : Nat) (x : Ni) : (s.setNi n x).cnts = s.cnts := rfl
@[simp] theorem Seg.flips_setNi (s : Seg) (n : Nat) (x : Ni) : (s.setNi n x).flips = s.flips := rfl
@[simp] theorem Seg.fuses_setNi (s : Seg) (n : Nat) (x : Ni) : (s.setNi n x).fuses = s.fuses := rfl
@[simp] theorem Seg.ramp_setNi (s : Seg) (n : Nat) (x : Ni) : (s.setNi n x).ramp = s.ramp := rfl
@[simp] theorem Seg.vwait_setNi (s : Seg) (n : Nat) (x : Ni) : (s.setNi n x).vwait = s.vwait := rfl
@[simp] theorem Seg.dcoLost_setNi (s : Seg) (n : Nat) (x : Ni) : (s.setNi n x).dcoLost = s.dcoLost := rfl
@[simp] theorem Seg.held_setNi (s : Seg) (n : Nat) (x : Ni) : (s.setNi n x).held = s.held := rfl
@[simp] theorem Seg.ftb_setNi (s : Seg) (n : Nat) (x : Ni) : (s.setNi n x).ftb = s.ftb := rfl
@[simp] theorem Seg.bisque_setNi (s : Seg) (n : Nat) (x : Ni) : (s.setNi n x).bisque = s.bisque := rfl
@[simp] theorem Seg.tileFtb_setNi (s : Seg) (n : Nat) (x : Ni) : (s.setNi n x).tileFtb = s.tileFtb := rfl
@[simp] theorem Seg.synced_setNi (s : Seg) (n : Nat) (x : Ni) : (s.setNi n x).synced = s.synced := rfl
@[simp] theorem Seg.pins_setNi (s : Seg) (n : Nat) (x : Ni) : (s.setNi n x).pins = s.pins := rfl
@[simp] theorem Seg.mp_setNi (s : Seg) (n : Nat) (x : Ni) : (s.setNi n x).mp = s.mp := rfl
@[simp] theorem Seg.ctl_setNi (s : Seg) (n : Nat) (x : Ni) : (s.setNi n x).ctl = s.ctl := rfl
@[simp] theorem Seg.kiln_setNi (s : Seg) (n : Nat) (x : Ni) : (s.setNi n x).kiln = s.kiln := rfl
@[simp] theorem Seg.srcs_setNi (s : Seg) (n : Nat) (x : Ni) : (s.setNi n x).srcs = s.srcs := rfl
@[simp] theorem Seg.srcCfg_setNi (s : Seg) (n : Nat) (x : Ni) : (s.setNi n x).srcCfg = s.srcCfg := rfl
@[simp] theorem Seg.pulses_setNi (s : Seg) (n : Nat) (x : Ni) : (s.setNi n x).pulses = s.pulses := rfl
@[simp] theorem Seg.eps_setNi (s : Seg) (n : Nat) (x : Ni) : (s.setNi n x).eps = s.eps := rfl
@[simp] theorem Seg.banks_setNi (s : Seg) (n : Nat) (x : Ni) : (s.setNi n x).banks = s.banks := rfl
@[simp] theorem Seg.bmem_setNi (s : Seg) (n : Nat) (x : Ni) : (s.setNi n x).bmem = s.bmem := rfl
@[simp] theorem Seg.marks_setNi (s : Seg) (n : Nat) (x : Ni) : (s.setNi n x).marks = s.marks := rfl
@[simp] theorem Seg.canary_setNi (s : Seg) (n : Nat) (x : Ni) : (s.setNi n x).canary = s.canary := rfl
@[simp] theorem Seg.landing_setNi (s : Seg) (n : Nat) (x : Ni) : (s.setNi n x).landing = s.landing := rfl
@[simp] theorem Seg.vcbuf_setNi (s : Seg) (n : Nat) (x : Ni) : (s.setNi n x).vcbuf = s.vcbuf := rfl
@[simp] theorem Seg.inFlow_setNi (s : Seg) (n : Nat) (x : Ni) : (s.setNi n x).inFlow = s.inFlow := rfl
@[simp] theorem Seg.outVc_setNi (s : Seg) (n : Nat) (x : Ni) : (s.setNi n x).outVc = s.outVc := rfl
@[simp] theorem Seg.cred_setNi (s : Seg) (n : Nat) (x : Ni) : (s.setNi n x).cred = s.cred := rfl
@[simp] theorem Seg.freed_setNi (s : Seg) (n : Nat) (x : Ni) : (s.setNi n x).freed = s.freed := rfl
@[simp] theorem Seg.seenGray_setNi (s : Seg) (n : Nat) (x : Ni) : (s.setNi n x).seenGray = s.seenGray := rfl
@[simp] theorem Seg.waits_setNi (s : Seg) (n : Nat) (x : Ni) : (s.setNi n x).waits = s.waits := rfl
@[simp] theorem Seg.outs_setNi (s : Seg) (n : Nat) (x : Ni) : (s.setNi n x).outs = s.outs := rfl
@[simp] theorem Seg.linkDn_setNi (s : Seg) (n : Nat) (x : Ni) : (s.setNi n x).linkDn = s.linkDn := rfl
@[simp] theorem Seg.initDue_setNi (s : Seg) (n : Nat) (x : Ni) : (s.setNi n x).initDue = s.initDue := rfl
@[simp] theorem Seg.dropTail_setNi (s : Seg) (n : Nat) (x : Ni) : (s.setNi n x).dropTail = s.dropTail := rfl
@[simp] theorem Seg.slots_setNi (s : Seg) (n : Nat) (x : Ni) : (s.setNi n x).slots = s.slots := rfl
@[simp] theorem Seg.descs_setNi (s : Seg) (n : Nat) (x : Ni) : (s.setNi n x).descs = s.descs := rfl
@[simp] theorem Seg.bslots_setNi (s : Seg) (n : Nat) (x : Ni) : (s.setNi n x).bslots = s.bslots := rfl
@[simp] theorem Seg.brs_setNi (s : Seg) (n : Nat) (x : Ni) : (s.setNi n x).brs = s.brs := rfl
@[simp] theorem Seg.bays_setNi (s : Seg) (n : Nat) (x : Ni) : (s.setNi n x).bays = s.bays := rfl
@[simp] theorem Seg.aligned_setNi (s : Seg) (n : Nat) (x : Ni) : (s.setNi n x).aligned = s.aligned := rfl
@[simp] theorem Seg.samp_setNi (s : Seg) (n : Nat) (x : Ni) : (s.setNi n x).samp = s.samp := rfl
@[simp] theorem Seg.order_setNi (s : Seg) (n : Nat) (x : Ni) : (s.setNi n x).order = s.order := rfl
@[simp] theorem Seg.free_setNi (s : Seg) (n : Nat) (x : Ni) : (s.setNi n x).free = s.free := rfl

@[simp] theorem Seg.strap_setEp (s : Seg) (l : Nat) (x : Ep) : (s.setEp l x).strap = s.strap := rfl
@[simp] theorem Seg.regs_setEp (s : Seg) (l : Nat) (x : Ep) : (s.setEp l x).regs = s.regs := rfl
@[simp] theorem Seg.cnts_setEp (s : Seg) (l : Nat) (x : Ep) : (s.setEp l x).cnts = s.cnts := rfl
@[simp] theorem Seg.flips_setEp (s : Seg) (l : Nat) (x : Ep) : (s.setEp l x).flips = s.flips := rfl
@[simp] theorem Seg.fuses_setEp (s : Seg) (l : Nat) (x : Ep) : (s.setEp l x).fuses = s.fuses := rfl
@[simp] theorem Seg.ramp_setEp (s : Seg) (l : Nat) (x : Ep) : (s.setEp l x).ramp = s.ramp := rfl
@[simp] theorem Seg.vwait_setEp (s : Seg) (l : Nat) (x : Ep) : (s.setEp l x).vwait = s.vwait := rfl
@[simp] theorem Seg.dcoLost_setEp (s : Seg) (l : Nat) (x : Ep) : (s.setEp l x).dcoLost = s.dcoLost := rfl
@[simp] theorem Seg.held_setEp (s : Seg) (l : Nat) (x : Ep) : (s.setEp l x).held = s.held := rfl
@[simp] theorem Seg.ftb_setEp (s : Seg) (l : Nat) (x : Ep) : (s.setEp l x).ftb = s.ftb := rfl
@[simp] theorem Seg.bisque_setEp (s : Seg) (l : Nat) (x : Ep) : (s.setEp l x).bisque = s.bisque := rfl
@[simp] theorem Seg.tileFtb_setEp (s : Seg) (l : Nat) (x : Ep) : (s.setEp l x).tileFtb = s.tileFtb := rfl
@[simp] theorem Seg.synced_setEp (s : Seg) (l : Nat) (x : Ep) : (s.setEp l x).synced = s.synced := rfl
@[simp] theorem Seg.pins_setEp (s : Seg) (l : Nat) (x : Ep) : (s.setEp l x).pins = s.pins := rfl
@[simp] theorem Seg.mp_setEp (s : Seg) (l : Nat) (x : Ep) : (s.setEp l x).mp = s.mp := rfl
@[simp] theorem Seg.ctl_setEp (s : Seg) (l : Nat) (x : Ep) : (s.setEp l x).ctl = s.ctl := rfl
@[simp] theorem Seg.kiln_setEp (s : Seg) (l : Nat) (x : Ep) : (s.setEp l x).kiln = s.kiln := rfl
@[simp] theorem Seg.srcs_setEp (s : Seg) (l : Nat) (x : Ep) : (s.setEp l x).srcs = s.srcs := rfl
@[simp] theorem Seg.srcCfg_setEp (s : Seg) (l : Nat) (x : Ep) : (s.setEp l x).srcCfg = s.srcCfg := rfl
@[simp] theorem Seg.pulses_setEp (s : Seg) (l : Nat) (x : Ep) : (s.setEp l x).pulses = s.pulses := rfl
@[simp] theorem Seg.nis_setEp (s : Seg) (l : Nat) (x : Ep) : (s.setEp l x).nis = s.nis := rfl
@[simp] theorem Seg.banks_setEp (s : Seg) (l : Nat) (x : Ep) : (s.setEp l x).banks = s.banks := rfl
@[simp] theorem Seg.bmem_setEp (s : Seg) (l : Nat) (x : Ep) : (s.setEp l x).bmem = s.bmem := rfl
@[simp] theorem Seg.marks_setEp (s : Seg) (l : Nat) (x : Ep) : (s.setEp l x).marks = s.marks := rfl
@[simp] theorem Seg.canary_setEp (s : Seg) (l : Nat) (x : Ep) : (s.setEp l x).canary = s.canary := rfl
@[simp] theorem Seg.landing_setEp (s : Seg) (l : Nat) (x : Ep) : (s.setEp l x).landing = s.landing := rfl
@[simp] theorem Seg.vcbuf_setEp (s : Seg) (l : Nat) (x : Ep) : (s.setEp l x).vcbuf = s.vcbuf := rfl
@[simp] theorem Seg.inFlow_setEp (s : Seg) (l : Nat) (x : Ep) : (s.setEp l x).inFlow = s.inFlow := rfl
@[simp] theorem Seg.outVc_setEp (s : Seg) (l : Nat) (x : Ep) : (s.setEp l x).outVc = s.outVc := rfl
@[simp] theorem Seg.cred_setEp (s : Seg) (l : Nat) (x : Ep) : (s.setEp l x).cred = s.cred := rfl
@[simp] theorem Seg.freed_setEp (s : Seg) (l : Nat) (x : Ep) : (s.setEp l x).freed = s.freed := rfl
@[simp] theorem Seg.seenGray_setEp (s : Seg) (l : Nat) (x : Ep) : (s.setEp l x).seenGray = s.seenGray := rfl
@[simp] theorem Seg.waits_setEp (s : Seg) (l : Nat) (x : Ep) : (s.setEp l x).waits = s.waits := rfl
@[simp] theorem Seg.outs_setEp (s : Seg) (l : Nat) (x : Ep) : (s.setEp l x).outs = s.outs := rfl
@[simp] theorem Seg.linkDn_setEp (s : Seg) (l : Nat) (x : Ep) : (s.setEp l x).linkDn = s.linkDn := rfl
@[simp] theorem Seg.initDue_setEp (s : Seg) (l : Nat) (x : Ep) : (s.setEp l x).initDue = s.initDue := rfl
@[simp] theorem Seg.dropTail_setEp (s : Seg) (l : Nat) (x : Ep) : (s.setEp l x).dropTail = s.dropTail := rfl
@[simp] theorem Seg.slots_setEp (s : Seg) (l : Nat) (x : Ep) : (s.setEp l x).slots = s.slots := rfl
@[simp] theorem Seg.descs_setEp (s : Seg) (l : Nat) (x : Ep) : (s.setEp l x).descs = s.descs := rfl
@[simp] theorem Seg.bslots_setEp (s : Seg) (l : Nat) (x : Ep) : (s.setEp l x).bslots = s.bslots := rfl
@[simp] theorem Seg.brs_setEp (s : Seg) (l : Nat) (x : Ep) : (s.setEp l x).brs = s.brs := rfl
@[simp] theorem Seg.bays_setEp (s : Seg) (l : Nat) (x : Ep) : (s.setEp l x).bays = s.bays := rfl
@[simp] theorem Seg.aligned_setEp (s : Seg) (l : Nat) (x : Ep) : (s.setEp l x).aligned = s.aligned := rfl
@[simp] theorem Seg.samp_setEp (s : Seg) (l : Nat) (x : Ep) : (s.setEp l x).samp = s.samp := rfl
@[simp] theorem Seg.order_setEp (s : Seg) (l : Nat) (x : Ep) : (s.setEp l x).order = s.order := rfl
@[simp] theorem Seg.free_setEp (s : Seg) (l : Nat) (x : Ep) : (s.setEp l x).free = s.free := rfl

@[simp] theorem Seg.strap_setBank (s : Seg) (b : Nat) (x : Bank) : (s.setBank b x).strap = s.strap := rfl
@[simp] theorem Seg.regs_setBank (s : Seg) (b : Nat) (x : Bank) : (s.setBank b x).regs = s.regs := rfl
@[simp] theorem Seg.cnts_setBank (s : Seg) (b : Nat) (x : Bank) : (s.setBank b x).cnts = s.cnts := rfl
@[simp] theorem Seg.flips_setBank (s : Seg) (b : Nat) (x : Bank) : (s.setBank b x).flips = s.flips := rfl
@[simp] theorem Seg.fuses_setBank (s : Seg) (b : Nat) (x : Bank) : (s.setBank b x).fuses = s.fuses := rfl
@[simp] theorem Seg.ramp_setBank (s : Seg) (b : Nat) (x : Bank) : (s.setBank b x).ramp = s.ramp := rfl
@[simp] theorem Seg.vwait_setBank (s : Seg) (b : Nat) (x : Bank) : (s.setBank b x).vwait = s.vwait := rfl
@[simp] theorem Seg.dcoLost_setBank (s : Seg) (b : Nat) (x : Bank) : (s.setBank b x).dcoLost = s.dcoLost := rfl
@[simp] theorem Seg.held_setBank (s : Seg) (b : Nat) (x : Bank) : (s.setBank b x).held = s.held := rfl
@[simp] theorem Seg.ftb_setBank (s : Seg) (b : Nat) (x : Bank) : (s.setBank b x).ftb = s.ftb := rfl
@[simp] theorem Seg.bisque_setBank (s : Seg) (b : Nat) (x : Bank) : (s.setBank b x).bisque = s.bisque := rfl
@[simp] theorem Seg.tileFtb_setBank (s : Seg) (b : Nat) (x : Bank) : (s.setBank b x).tileFtb = s.tileFtb := rfl
@[simp] theorem Seg.synced_setBank (s : Seg) (b : Nat) (x : Bank) : (s.setBank b x).synced = s.synced := rfl
@[simp] theorem Seg.pins_setBank (s : Seg) (b : Nat) (x : Bank) : (s.setBank b x).pins = s.pins := rfl
@[simp] theorem Seg.mp_setBank (s : Seg) (b : Nat) (x : Bank) : (s.setBank b x).mp = s.mp := rfl
@[simp] theorem Seg.ctl_setBank (s : Seg) (b : Nat) (x : Bank) : (s.setBank b x).ctl = s.ctl := rfl
@[simp] theorem Seg.kiln_setBank (s : Seg) (b : Nat) (x : Bank) : (s.setBank b x).kiln = s.kiln := rfl
@[simp] theorem Seg.srcs_setBank (s : Seg) (b : Nat) (x : Bank) : (s.setBank b x).srcs = s.srcs := rfl
@[simp] theorem Seg.srcCfg_setBank (s : Seg) (b : Nat) (x : Bank) : (s.setBank b x).srcCfg = s.srcCfg := rfl
@[simp] theorem Seg.pulses_setBank (s : Seg) (b : Nat) (x : Bank) : (s.setBank b x).pulses = s.pulses := rfl
@[simp] theorem Seg.eps_setBank (s : Seg) (b : Nat) (x : Bank) : (s.setBank b x).eps = s.eps := rfl
@[simp] theorem Seg.nis_setBank (s : Seg) (b : Nat) (x : Bank) : (s.setBank b x).nis = s.nis := rfl
@[simp] theorem Seg.bmem_setBank (s : Seg) (b : Nat) (x : Bank) : (s.setBank b x).bmem = s.bmem := rfl
@[simp] theorem Seg.marks_setBank (s : Seg) (b : Nat) (x : Bank) : (s.setBank b x).marks = s.marks := rfl
@[simp] theorem Seg.canary_setBank (s : Seg) (b : Nat) (x : Bank) : (s.setBank b x).canary = s.canary := rfl
@[simp] theorem Seg.landing_setBank (s : Seg) (b : Nat) (x : Bank) : (s.setBank b x).landing = s.landing := rfl
@[simp] theorem Seg.vcbuf_setBank (s : Seg) (b : Nat) (x : Bank) : (s.setBank b x).vcbuf = s.vcbuf := rfl
@[simp] theorem Seg.inFlow_setBank (s : Seg) (b : Nat) (x : Bank) : (s.setBank b x).inFlow = s.inFlow := rfl
@[simp] theorem Seg.outVc_setBank (s : Seg) (b : Nat) (x : Bank) : (s.setBank b x).outVc = s.outVc := rfl
@[simp] theorem Seg.cred_setBank (s : Seg) (b : Nat) (x : Bank) : (s.setBank b x).cred = s.cred := rfl
@[simp] theorem Seg.freed_setBank (s : Seg) (b : Nat) (x : Bank) : (s.setBank b x).freed = s.freed := rfl
@[simp] theorem Seg.seenGray_setBank (s : Seg) (b : Nat) (x : Bank) : (s.setBank b x).seenGray = s.seenGray := rfl
@[simp] theorem Seg.waits_setBank (s : Seg) (b : Nat) (x : Bank) : (s.setBank b x).waits = s.waits := rfl
@[simp] theorem Seg.outs_setBank (s : Seg) (b : Nat) (x : Bank) : (s.setBank b x).outs = s.outs := rfl
@[simp] theorem Seg.linkDn_setBank (s : Seg) (b : Nat) (x : Bank) : (s.setBank b x).linkDn = s.linkDn := rfl
@[simp] theorem Seg.initDue_setBank (s : Seg) (b : Nat) (x : Bank) : (s.setBank b x).initDue = s.initDue := rfl
@[simp] theorem Seg.dropTail_setBank (s : Seg) (b : Nat) (x : Bank) : (s.setBank b x).dropTail = s.dropTail := rfl
@[simp] theorem Seg.slots_setBank (s : Seg) (b : Nat) (x : Bank) : (s.setBank b x).slots = s.slots := rfl
@[simp] theorem Seg.descs_setBank (s : Seg) (b : Nat) (x : Bank) : (s.setBank b x).descs = s.descs := rfl
@[simp] theorem Seg.bslots_setBank (s : Seg) (b : Nat) (x : Bank) : (s.setBank b x).bslots = s.bslots := rfl
@[simp] theorem Seg.brs_setBank (s : Seg) (b : Nat) (x : Bank) : (s.setBank b x).brs = s.brs := rfl
@[simp] theorem Seg.bays_setBank (s : Seg) (b : Nat) (x : Bank) : (s.setBank b x).bays = s.bays := rfl
@[simp] theorem Seg.aligned_setBank (s : Seg) (b : Nat) (x : Bank) : (s.setBank b x).aligned = s.aligned := rfl
@[simp] theorem Seg.samp_setBank (s : Seg) (b : Nat) (x : Bank) : (s.setBank b x).samp = s.samp := rfl
@[simp] theorem Seg.order_setBank (s : Seg) (b : Nat) (x : Bank) : (s.setBank b x).order = s.order := rfl
@[simp] theorem Seg.free_setBank (s : Seg) (b : Nat) (x : Bank) : (s.setBank b x).free = s.free := rfl

@[simp] theorem Seg.strap_setSrc (s : Seg) (l : Nat) (x : Src) : (s.setSrc l x).strap = s.strap := rfl
@[simp] theorem Seg.regs_setSrc (s : Seg) (l : Nat) (x : Src) : (s.setSrc l x).regs = s.regs := rfl
@[simp] theorem Seg.cnts_setSrc (s : Seg) (l : Nat) (x : Src) : (s.setSrc l x).cnts = s.cnts := rfl
@[simp] theorem Seg.flips_setSrc (s : Seg) (l : Nat) (x : Src) : (s.setSrc l x).flips = s.flips := rfl
@[simp] theorem Seg.fuses_setSrc (s : Seg) (l : Nat) (x : Src) : (s.setSrc l x).fuses = s.fuses := rfl
@[simp] theorem Seg.ramp_setSrc (s : Seg) (l : Nat) (x : Src) : (s.setSrc l x).ramp = s.ramp := rfl
@[simp] theorem Seg.vwait_setSrc (s : Seg) (l : Nat) (x : Src) : (s.setSrc l x).vwait = s.vwait := rfl
@[simp] theorem Seg.dcoLost_setSrc (s : Seg) (l : Nat) (x : Src) : (s.setSrc l x).dcoLost = s.dcoLost := rfl
@[simp] theorem Seg.held_setSrc (s : Seg) (l : Nat) (x : Src) : (s.setSrc l x).held = s.held := rfl
@[simp] theorem Seg.ftb_setSrc (s : Seg) (l : Nat) (x : Src) : (s.setSrc l x).ftb = s.ftb := rfl
@[simp] theorem Seg.bisque_setSrc (s : Seg) (l : Nat) (x : Src) : (s.setSrc l x).bisque = s.bisque := rfl
@[simp] theorem Seg.tileFtb_setSrc (s : Seg) (l : Nat) (x : Src) : (s.setSrc l x).tileFtb = s.tileFtb := rfl
@[simp] theorem Seg.synced_setSrc (s : Seg) (l : Nat) (x : Src) : (s.setSrc l x).synced = s.synced := rfl
@[simp] theorem Seg.pins_setSrc (s : Seg) (l : Nat) (x : Src) : (s.setSrc l x).pins = s.pins := rfl
@[simp] theorem Seg.mp_setSrc (s : Seg) (l : Nat) (x : Src) : (s.setSrc l x).mp = s.mp := rfl
@[simp] theorem Seg.ctl_setSrc (s : Seg) (l : Nat) (x : Src) : (s.setSrc l x).ctl = s.ctl := rfl
@[simp] theorem Seg.kiln_setSrc (s : Seg) (l : Nat) (x : Src) : (s.setSrc l x).kiln = s.kiln := rfl
@[simp] theorem Seg.srcCfg_setSrc (s : Seg) (l : Nat) (x : Src) : (s.setSrc l x).srcCfg = s.srcCfg := rfl
@[simp] theorem Seg.pulses_setSrc (s : Seg) (l : Nat) (x : Src) : (s.setSrc l x).pulses = s.pulses := rfl
@[simp] theorem Seg.eps_setSrc (s : Seg) (l : Nat) (x : Src) : (s.setSrc l x).eps = s.eps := rfl
@[simp] theorem Seg.nis_setSrc (s : Seg) (l : Nat) (x : Src) : (s.setSrc l x).nis = s.nis := rfl
@[simp] theorem Seg.banks_setSrc (s : Seg) (l : Nat) (x : Src) : (s.setSrc l x).banks = s.banks := rfl
@[simp] theorem Seg.bmem_setSrc (s : Seg) (l : Nat) (x : Src) : (s.setSrc l x).bmem = s.bmem := rfl
@[simp] theorem Seg.marks_setSrc (s : Seg) (l : Nat) (x : Src) : (s.setSrc l x).marks = s.marks := rfl
@[simp] theorem Seg.canary_setSrc (s : Seg) (l : Nat) (x : Src) : (s.setSrc l x).canary = s.canary := rfl
@[simp] theorem Seg.landing_setSrc (s : Seg) (l : Nat) (x : Src) : (s.setSrc l x).landing = s.landing := rfl
@[simp] theorem Seg.vcbuf_setSrc (s : Seg) (l : Nat) (x : Src) : (s.setSrc l x).vcbuf = s.vcbuf := rfl
@[simp] theorem Seg.inFlow_setSrc (s : Seg) (l : Nat) (x : Src) : (s.setSrc l x).inFlow = s.inFlow := rfl
@[simp] theorem Seg.outVc_setSrc (s : Seg) (l : Nat) (x : Src) : (s.setSrc l x).outVc = s.outVc := rfl
@[simp] theorem Seg.cred_setSrc (s : Seg) (l : Nat) (x : Src) : (s.setSrc l x).cred = s.cred := rfl
@[simp] theorem Seg.freed_setSrc (s : Seg) (l : Nat) (x : Src) : (s.setSrc l x).freed = s.freed := rfl
@[simp] theorem Seg.seenGray_setSrc (s : Seg) (l : Nat) (x : Src) : (s.setSrc l x).seenGray = s.seenGray := rfl
@[simp] theorem Seg.waits_setSrc (s : Seg) (l : Nat) (x : Src) : (s.setSrc l x).waits = s.waits := rfl
@[simp] theorem Seg.outs_setSrc (s : Seg) (l : Nat) (x : Src) : (s.setSrc l x).outs = s.outs := rfl
@[simp] theorem Seg.linkDn_setSrc (s : Seg) (l : Nat) (x : Src) : (s.setSrc l x).linkDn = s.linkDn := rfl
@[simp] theorem Seg.initDue_setSrc (s : Seg) (l : Nat) (x : Src) : (s.setSrc l x).initDue = s.initDue := rfl
@[simp] theorem Seg.dropTail_setSrc (s : Seg) (l : Nat) (x : Src) : (s.setSrc l x).dropTail = s.dropTail := rfl
@[simp] theorem Seg.slots_setSrc (s : Seg) (l : Nat) (x : Src) : (s.setSrc l x).slots = s.slots := rfl
@[simp] theorem Seg.descs_setSrc (s : Seg) (l : Nat) (x : Src) : (s.setSrc l x).descs = s.descs := rfl
@[simp] theorem Seg.bslots_setSrc (s : Seg) (l : Nat) (x : Src) : (s.setSrc l x).bslots = s.bslots := rfl
@[simp] theorem Seg.brs_setSrc (s : Seg) (l : Nat) (x : Src) : (s.setSrc l x).brs = s.brs := rfl
@[simp] theorem Seg.bays_setSrc (s : Seg) (l : Nat) (x : Src) : (s.setSrc l x).bays = s.bays := rfl
@[simp] theorem Seg.aligned_setSrc (s : Seg) (l : Nat) (x : Src) : (s.setSrc l x).aligned = s.aligned := rfl
@[simp] theorem Seg.samp_setSrc (s : Seg) (l : Nat) (x : Src) : (s.setSrc l x).samp = s.samp := rfl
@[simp] theorem Seg.order_setSrc (s : Seg) (l : Nat) (x : Src) : (s.setSrc l x).order = s.order := rfl
@[simp] theorem Seg.free_setSrc (s : Seg) (l : Nat) (x : Src) : (s.setSrc l x).free = s.free := rfl

@[simp] theorem Seg.strap_setCfgOf (s : Seg) (l : Nat) (w : Word) : (s.setCfgOf l w).strap = s.strap := rfl
@[simp] theorem Seg.regs_setCfgOf (s : Seg) (l : Nat) (w : Word) : (s.setCfgOf l w).regs = s.regs := rfl
@[simp] theorem Seg.cnts_setCfgOf (s : Seg) (l : Nat) (w : Word) : (s.setCfgOf l w).cnts = s.cnts := rfl
@[simp] theorem Seg.flips_setCfgOf (s : Seg) (l : Nat) (w : Word) : (s.setCfgOf l w).flips = s.flips := rfl
@[simp] theorem Seg.fuses_setCfgOf (s : Seg) (l : Nat) (w : Word) : (s.setCfgOf l w).fuses = s.fuses := rfl
@[simp] theorem Seg.ramp_setCfgOf (s : Seg) (l : Nat) (w : Word) : (s.setCfgOf l w).ramp = s.ramp := rfl
@[simp] theorem Seg.vwait_setCfgOf (s : Seg) (l : Nat) (w : Word) : (s.setCfgOf l w).vwait = s.vwait := rfl
@[simp] theorem Seg.dcoLost_setCfgOf (s : Seg) (l : Nat) (w : Word) : (s.setCfgOf l w).dcoLost = s.dcoLost := rfl
@[simp] theorem Seg.held_setCfgOf (s : Seg) (l : Nat) (w : Word) : (s.setCfgOf l w).held = s.held := rfl
@[simp] theorem Seg.ftb_setCfgOf (s : Seg) (l : Nat) (w : Word) : (s.setCfgOf l w).ftb = s.ftb := rfl
@[simp] theorem Seg.bisque_setCfgOf (s : Seg) (l : Nat) (w : Word) : (s.setCfgOf l w).bisque = s.bisque := rfl
@[simp] theorem Seg.tileFtb_setCfgOf (s : Seg) (l : Nat) (w : Word) : (s.setCfgOf l w).tileFtb = s.tileFtb := rfl
@[simp] theorem Seg.synced_setCfgOf (s : Seg) (l : Nat) (w : Word) : (s.setCfgOf l w).synced = s.synced := rfl
@[simp] theorem Seg.pins_setCfgOf (s : Seg) (l : Nat) (w : Word) : (s.setCfgOf l w).pins = s.pins := rfl
@[simp] theorem Seg.mp_setCfgOf (s : Seg) (l : Nat) (w : Word) : (s.setCfgOf l w).mp = s.mp := rfl
@[simp] theorem Seg.ctl_setCfgOf (s : Seg) (l : Nat) (w : Word) : (s.setCfgOf l w).ctl = s.ctl := rfl
@[simp] theorem Seg.kiln_setCfgOf (s : Seg) (l : Nat) (w : Word) : (s.setCfgOf l w).kiln = s.kiln := rfl
@[simp] theorem Seg.srcs_setCfgOf (s : Seg) (l : Nat) (w : Word) : (s.setCfgOf l w).srcs = s.srcs := rfl
@[simp] theorem Seg.pulses_setCfgOf (s : Seg) (l : Nat) (w : Word) : (s.setCfgOf l w).pulses = s.pulses := rfl
@[simp] theorem Seg.eps_setCfgOf (s : Seg) (l : Nat) (w : Word) : (s.setCfgOf l w).eps = s.eps := rfl
@[simp] theorem Seg.nis_setCfgOf (s : Seg) (l : Nat) (w : Word) : (s.setCfgOf l w).nis = s.nis := rfl
@[simp] theorem Seg.banks_setCfgOf (s : Seg) (l : Nat) (w : Word) : (s.setCfgOf l w).banks = s.banks := rfl
@[simp] theorem Seg.bmem_setCfgOf (s : Seg) (l : Nat) (w : Word) : (s.setCfgOf l w).bmem = s.bmem := rfl
@[simp] theorem Seg.marks_setCfgOf (s : Seg) (l : Nat) (w : Word) : (s.setCfgOf l w).marks = s.marks := rfl
@[simp] theorem Seg.canary_setCfgOf (s : Seg) (l : Nat) (w : Word) : (s.setCfgOf l w).canary = s.canary := rfl
@[simp] theorem Seg.landing_setCfgOf (s : Seg) (l : Nat) (w : Word) : (s.setCfgOf l w).landing = s.landing := rfl
@[simp] theorem Seg.vcbuf_setCfgOf (s : Seg) (l : Nat) (w : Word) : (s.setCfgOf l w).vcbuf = s.vcbuf := rfl
@[simp] theorem Seg.inFlow_setCfgOf (s : Seg) (l : Nat) (w : Word) : (s.setCfgOf l w).inFlow = s.inFlow := rfl
@[simp] theorem Seg.outVc_setCfgOf (s : Seg) (l : Nat) (w : Word) : (s.setCfgOf l w).outVc = s.outVc := rfl
@[simp] theorem Seg.cred_setCfgOf (s : Seg) (l : Nat) (w : Word) : (s.setCfgOf l w).cred = s.cred := rfl
@[simp] theorem Seg.freed_setCfgOf (s : Seg) (l : Nat) (w : Word) : (s.setCfgOf l w).freed = s.freed := rfl
@[simp] theorem Seg.seenGray_setCfgOf (s : Seg) (l : Nat) (w : Word) : (s.setCfgOf l w).seenGray = s.seenGray := rfl
@[simp] theorem Seg.waits_setCfgOf (s : Seg) (l : Nat) (w : Word) : (s.setCfgOf l w).waits = s.waits := rfl
@[simp] theorem Seg.outs_setCfgOf (s : Seg) (l : Nat) (w : Word) : (s.setCfgOf l w).outs = s.outs := rfl
@[simp] theorem Seg.linkDn_setCfgOf (s : Seg) (l : Nat) (w : Word) : (s.setCfgOf l w).linkDn = s.linkDn := rfl
@[simp] theorem Seg.initDue_setCfgOf (s : Seg) (l : Nat) (w : Word) : (s.setCfgOf l w).initDue = s.initDue := rfl
@[simp] theorem Seg.dropTail_setCfgOf (s : Seg) (l : Nat) (w : Word) : (s.setCfgOf l w).dropTail = s.dropTail := rfl
@[simp] theorem Seg.slots_setCfgOf (s : Seg) (l : Nat) (w : Word) : (s.setCfgOf l w).slots = s.slots := rfl
@[simp] theorem Seg.descs_setCfgOf (s : Seg) (l : Nat) (w : Word) : (s.setCfgOf l w).descs = s.descs := rfl
@[simp] theorem Seg.bslots_setCfgOf (s : Seg) (l : Nat) (w : Word) : (s.setCfgOf l w).bslots = s.bslots := rfl
@[simp] theorem Seg.brs_setCfgOf (s : Seg) (l : Nat) (w : Word) : (s.setCfgOf l w).brs = s.brs := rfl
@[simp] theorem Seg.bays_setCfgOf (s : Seg) (l : Nat) (w : Word) : (s.setCfgOf l w).bays = s.bays := rfl
@[simp] theorem Seg.aligned_setCfgOf (s : Seg) (l : Nat) (w : Word) : (s.setCfgOf l w).aligned = s.aligned := rfl
@[simp] theorem Seg.samp_setCfgOf (s : Seg) (l : Nat) (w : Word) : (s.setCfgOf l w).samp = s.samp := rfl
@[simp] theorem Seg.order_setCfgOf (s : Seg) (l : Nat) (w : Word) : (s.setCfgOf l w).order = s.order := rfl
@[simp] theorem Seg.free_setCfgOf (s : Seg) (l : Nat) (w : Word) : (s.setCfgOf l w).free = s.free := rfl

@[simp] theorem Seg.strap_setPulse (s : Seg) (l : Nat) (x : Pulse) : (s.setPulse l x).strap = s.strap := rfl
@[simp] theorem Seg.regs_setPulse (s : Seg) (l : Nat) (x : Pulse) : (s.setPulse l x).regs = s.regs := rfl
@[simp] theorem Seg.cnts_setPulse (s : Seg) (l : Nat) (x : Pulse) : (s.setPulse l x).cnts = s.cnts := rfl
@[simp] theorem Seg.flips_setPulse (s : Seg) (l : Nat) (x : Pulse) : (s.setPulse l x).flips = s.flips := rfl
@[simp] theorem Seg.fuses_setPulse (s : Seg) (l : Nat) (x : Pulse) : (s.setPulse l x).fuses = s.fuses := rfl
@[simp] theorem Seg.ramp_setPulse (s : Seg) (l : Nat) (x : Pulse) : (s.setPulse l x).ramp = s.ramp := rfl
@[simp] theorem Seg.vwait_setPulse (s : Seg) (l : Nat) (x : Pulse) : (s.setPulse l x).vwait = s.vwait := rfl
@[simp] theorem Seg.dcoLost_setPulse (s : Seg) (l : Nat) (x : Pulse) : (s.setPulse l x).dcoLost = s.dcoLost := rfl
@[simp] theorem Seg.held_setPulse (s : Seg) (l : Nat) (x : Pulse) : (s.setPulse l x).held = s.held := rfl
@[simp] theorem Seg.ftb_setPulse (s : Seg) (l : Nat) (x : Pulse) : (s.setPulse l x).ftb = s.ftb := rfl
@[simp] theorem Seg.bisque_setPulse (s : Seg) (l : Nat) (x : Pulse) : (s.setPulse l x).bisque = s.bisque := rfl
@[simp] theorem Seg.tileFtb_setPulse (s : Seg) (l : Nat) (x : Pulse) : (s.setPulse l x).tileFtb = s.tileFtb := rfl
@[simp] theorem Seg.synced_setPulse (s : Seg) (l : Nat) (x : Pulse) : (s.setPulse l x).synced = s.synced := rfl
@[simp] theorem Seg.pins_setPulse (s : Seg) (l : Nat) (x : Pulse) : (s.setPulse l x).pins = s.pins := rfl
@[simp] theorem Seg.mp_setPulse (s : Seg) (l : Nat) (x : Pulse) : (s.setPulse l x).mp = s.mp := rfl
@[simp] theorem Seg.ctl_setPulse (s : Seg) (l : Nat) (x : Pulse) : (s.setPulse l x).ctl = s.ctl := rfl
@[simp] theorem Seg.kiln_setPulse (s : Seg) (l : Nat) (x : Pulse) : (s.setPulse l x).kiln = s.kiln := rfl
@[simp] theorem Seg.srcs_setPulse (s : Seg) (l : Nat) (x : Pulse) : (s.setPulse l x).srcs = s.srcs := rfl
@[simp] theorem Seg.srcCfg_setPulse (s : Seg) (l : Nat) (x : Pulse) : (s.setPulse l x).srcCfg = s.srcCfg := rfl
@[simp] theorem Seg.eps_setPulse (s : Seg) (l : Nat) (x : Pulse) : (s.setPulse l x).eps = s.eps := rfl
@[simp] theorem Seg.nis_setPulse (s : Seg) (l : Nat) (x : Pulse) : (s.setPulse l x).nis = s.nis := rfl
@[simp] theorem Seg.banks_setPulse (s : Seg) (l : Nat) (x : Pulse) : (s.setPulse l x).banks = s.banks := rfl
@[simp] theorem Seg.bmem_setPulse (s : Seg) (l : Nat) (x : Pulse) : (s.setPulse l x).bmem = s.bmem := rfl
@[simp] theorem Seg.marks_setPulse (s : Seg) (l : Nat) (x : Pulse) : (s.setPulse l x).marks = s.marks := rfl
@[simp] theorem Seg.canary_setPulse (s : Seg) (l : Nat) (x : Pulse) : (s.setPulse l x).canary = s.canary := rfl
@[simp] theorem Seg.landing_setPulse (s : Seg) (l : Nat) (x : Pulse) : (s.setPulse l x).landing = s.landing := rfl
@[simp] theorem Seg.vcbuf_setPulse (s : Seg) (l : Nat) (x : Pulse) : (s.setPulse l x).vcbuf = s.vcbuf := rfl
@[simp] theorem Seg.inFlow_setPulse (s : Seg) (l : Nat) (x : Pulse) : (s.setPulse l x).inFlow = s.inFlow := rfl
@[simp] theorem Seg.outVc_setPulse (s : Seg) (l : Nat) (x : Pulse) : (s.setPulse l x).outVc = s.outVc := rfl
@[simp] theorem Seg.cred_setPulse (s : Seg) (l : Nat) (x : Pulse) : (s.setPulse l x).cred = s.cred := rfl
@[simp] theorem Seg.freed_setPulse (s : Seg) (l : Nat) (x : Pulse) : (s.setPulse l x).freed = s.freed := rfl
@[simp] theorem Seg.seenGray_setPulse (s : Seg) (l : Nat) (x : Pulse) : (s.setPulse l x).seenGray = s.seenGray := rfl
@[simp] theorem Seg.waits_setPulse (s : Seg) (l : Nat) (x : Pulse) : (s.setPulse l x).waits = s.waits := rfl
@[simp] theorem Seg.outs_setPulse (s : Seg) (l : Nat) (x : Pulse) : (s.setPulse l x).outs = s.outs := rfl
@[simp] theorem Seg.linkDn_setPulse (s : Seg) (l : Nat) (x : Pulse) : (s.setPulse l x).linkDn = s.linkDn := rfl
@[simp] theorem Seg.initDue_setPulse (s : Seg) (l : Nat) (x : Pulse) : (s.setPulse l x).initDue = s.initDue := rfl
@[simp] theorem Seg.dropTail_setPulse (s : Seg) (l : Nat) (x : Pulse) : (s.setPulse l x).dropTail = s.dropTail := rfl
@[simp] theorem Seg.slots_setPulse (s : Seg) (l : Nat) (x : Pulse) : (s.setPulse l x).slots = s.slots := rfl
@[simp] theorem Seg.descs_setPulse (s : Seg) (l : Nat) (x : Pulse) : (s.setPulse l x).descs = s.descs := rfl
@[simp] theorem Seg.bslots_setPulse (s : Seg) (l : Nat) (x : Pulse) : (s.setPulse l x).bslots = s.bslots := rfl
@[simp] theorem Seg.brs_setPulse (s : Seg) (l : Nat) (x : Pulse) : (s.setPulse l x).brs = s.brs := rfl
@[simp] theorem Seg.bays_setPulse (s : Seg) (l : Nat) (x : Pulse) : (s.setPulse l x).bays = s.bays := rfl
@[simp] theorem Seg.aligned_setPulse (s : Seg) (l : Nat) (x : Pulse) : (s.setPulse l x).aligned = s.aligned := rfl
@[simp] theorem Seg.samp_setPulse (s : Seg) (l : Nat) (x : Pulse) : (s.setPulse l x).samp = s.samp := rfl
@[simp] theorem Seg.order_setPulse (s : Seg) (l : Nat) (x : Pulse) : (s.setPulse l x).order = s.order := rfl
@[simp] theorem Seg.free_setPulse (s : Seg) (l : Nat) (x : Pulse) : (s.setPulse l x).free = s.free := rfl

@[simp] theorem Seg.strap_setBr (s : Seg) (b : Nat) (x : Bridge) : (s.setBr b x).strap = s.strap := rfl
@[simp] theorem Seg.regs_setBr (s : Seg) (b : Nat) (x : Bridge) : (s.setBr b x).regs = s.regs := rfl
@[simp] theorem Seg.cnts_setBr (s : Seg) (b : Nat) (x : Bridge) : (s.setBr b x).cnts = s.cnts := rfl
@[simp] theorem Seg.flips_setBr (s : Seg) (b : Nat) (x : Bridge) : (s.setBr b x).flips = s.flips := rfl
@[simp] theorem Seg.fuses_setBr (s : Seg) (b : Nat) (x : Bridge) : (s.setBr b x).fuses = s.fuses := rfl
@[simp] theorem Seg.ramp_setBr (s : Seg) (b : Nat) (x : Bridge) : (s.setBr b x).ramp = s.ramp := rfl
@[simp] theorem Seg.vwait_setBr (s : Seg) (b : Nat) (x : Bridge) : (s.setBr b x).vwait = s.vwait := rfl
@[simp] theorem Seg.dcoLost_setBr (s : Seg) (b : Nat) (x : Bridge) : (s.setBr b x).dcoLost = s.dcoLost := rfl
@[simp] theorem Seg.held_setBr (s : Seg) (b : Nat) (x : Bridge) : (s.setBr b x).held = s.held := rfl
@[simp] theorem Seg.ftb_setBr (s : Seg) (b : Nat) (x : Bridge) : (s.setBr b x).ftb = s.ftb := rfl
@[simp] theorem Seg.bisque_setBr (s : Seg) (b : Nat) (x : Bridge) : (s.setBr b x).bisque = s.bisque := rfl
@[simp] theorem Seg.tileFtb_setBr (s : Seg) (b : Nat) (x : Bridge) : (s.setBr b x).tileFtb = s.tileFtb := rfl
@[simp] theorem Seg.synced_setBr (s : Seg) (b : Nat) (x : Bridge) : (s.setBr b x).synced = s.synced := rfl
@[simp] theorem Seg.pins_setBr (s : Seg) (b : Nat) (x : Bridge) : (s.setBr b x).pins = s.pins := rfl
@[simp] theorem Seg.mp_setBr (s : Seg) (b : Nat) (x : Bridge) : (s.setBr b x).mp = s.mp := rfl
@[simp] theorem Seg.ctl_setBr (s : Seg) (b : Nat) (x : Bridge) : (s.setBr b x).ctl = s.ctl := rfl
@[simp] theorem Seg.kiln_setBr (s : Seg) (b : Nat) (x : Bridge) : (s.setBr b x).kiln = s.kiln := rfl
@[simp] theorem Seg.srcs_setBr (s : Seg) (b : Nat) (x : Bridge) : (s.setBr b x).srcs = s.srcs := rfl
@[simp] theorem Seg.srcCfg_setBr (s : Seg) (b : Nat) (x : Bridge) : (s.setBr b x).srcCfg = s.srcCfg := rfl
@[simp] theorem Seg.pulses_setBr (s : Seg) (b : Nat) (x : Bridge) : (s.setBr b x).pulses = s.pulses := rfl
@[simp] theorem Seg.eps_setBr (s : Seg) (b : Nat) (x : Bridge) : (s.setBr b x).eps = s.eps := rfl
@[simp] theorem Seg.nis_setBr (s : Seg) (b : Nat) (x : Bridge) : (s.setBr b x).nis = s.nis := rfl
@[simp] theorem Seg.banks_setBr (s : Seg) (b : Nat) (x : Bridge) : (s.setBr b x).banks = s.banks := rfl
@[simp] theorem Seg.bmem_setBr (s : Seg) (b : Nat) (x : Bridge) : (s.setBr b x).bmem = s.bmem := rfl
@[simp] theorem Seg.marks_setBr (s : Seg) (b : Nat) (x : Bridge) : (s.setBr b x).marks = s.marks := rfl
@[simp] theorem Seg.canary_setBr (s : Seg) (b : Nat) (x : Bridge) : (s.setBr b x).canary = s.canary := rfl
@[simp] theorem Seg.landing_setBr (s : Seg) (b : Nat) (x : Bridge) : (s.setBr b x).landing = s.landing := rfl
@[simp] theorem Seg.vcbuf_setBr (s : Seg) (b : Nat) (x : Bridge) : (s.setBr b x).vcbuf = s.vcbuf := rfl
@[simp] theorem Seg.inFlow_setBr (s : Seg) (b : Nat) (x : Bridge) : (s.setBr b x).inFlow = s.inFlow := rfl
@[simp] theorem Seg.outVc_setBr (s : Seg) (b : Nat) (x : Bridge) : (s.setBr b x).outVc = s.outVc := rfl
@[simp] theorem Seg.cred_setBr (s : Seg) (b : Nat) (x : Bridge) : (s.setBr b x).cred = s.cred := rfl
@[simp] theorem Seg.freed_setBr (s : Seg) (b : Nat) (x : Bridge) : (s.setBr b x).freed = s.freed := rfl
@[simp] theorem Seg.seenGray_setBr (s : Seg) (b : Nat) (x : Bridge) : (s.setBr b x).seenGray = s.seenGray := rfl
@[simp] theorem Seg.waits_setBr (s : Seg) (b : Nat) (x : Bridge) : (s.setBr b x).waits = s.waits := rfl
@[simp] theorem Seg.outs_setBr (s : Seg) (b : Nat) (x : Bridge) : (s.setBr b x).outs = s.outs := rfl
@[simp] theorem Seg.linkDn_setBr (s : Seg) (b : Nat) (x : Bridge) : (s.setBr b x).linkDn = s.linkDn := rfl
@[simp] theorem Seg.initDue_setBr (s : Seg) (b : Nat) (x : Bridge) : (s.setBr b x).initDue = s.initDue := rfl
@[simp] theorem Seg.dropTail_setBr (s : Seg) (b : Nat) (x : Bridge) : (s.setBr b x).dropTail = s.dropTail := rfl
@[simp] theorem Seg.slots_setBr (s : Seg) (b : Nat) (x : Bridge) : (s.setBr b x).slots = s.slots := rfl
@[simp] theorem Seg.descs_setBr (s : Seg) (b : Nat) (x : Bridge) : (s.setBr b x).descs = s.descs := rfl
@[simp] theorem Seg.bslots_setBr (s : Seg) (b : Nat) (x : Bridge) : (s.setBr b x).bslots = s.bslots := rfl
@[simp] theorem Seg.bays_setBr (s : Seg) (b : Nat) (x : Bridge) : (s.setBr b x).bays = s.bays := rfl
@[simp] theorem Seg.aligned_setBr (s : Seg) (b : Nat) (x : Bridge) : (s.setBr b x).aligned = s.aligned := rfl
@[simp] theorem Seg.samp_setBr (s : Seg) (b : Nat) (x : Bridge) : (s.setBr b x).samp = s.samp := rfl
@[simp] theorem Seg.order_setBr (s : Seg) (b : Nat) (x : Bridge) : (s.setBr b x).order = s.order := rfl
@[simp] theorem Seg.free_setBr (s : Seg) (b : Nat) (x : Bridge) : (s.setBr b x).free = s.free := rfl

@[simp] theorem Seg.strap_setBay (s : Seg) (n : Nat) (x : Bay) : (s.setBay n x).strap = s.strap := rfl
@[simp] theorem Seg.regs_setBay (s : Seg) (n : Nat) (x : Bay) : (s.setBay n x).regs = s.regs := rfl
@[simp] theorem Seg.cnts_setBay (s : Seg) (n : Nat) (x : Bay) : (s.setBay n x).cnts = s.cnts := rfl
@[simp] theorem Seg.flips_setBay (s : Seg) (n : Nat) (x : Bay) : (s.setBay n x).flips = s.flips := rfl
@[simp] theorem Seg.fuses_setBay (s : Seg) (n : Nat) (x : Bay) : (s.setBay n x).fuses = s.fuses := rfl
@[simp] theorem Seg.ramp_setBay (s : Seg) (n : Nat) (x : Bay) : (s.setBay n x).ramp = s.ramp := rfl
@[simp] theorem Seg.vwait_setBay (s : Seg) (n : Nat) (x : Bay) : (s.setBay n x).vwait = s.vwait := rfl
@[simp] theorem Seg.dcoLost_setBay (s : Seg) (n : Nat) (x : Bay) : (s.setBay n x).dcoLost = s.dcoLost := rfl
@[simp] theorem Seg.held_setBay (s : Seg) (n : Nat) (x : Bay) : (s.setBay n x).held = s.held := rfl
@[simp] theorem Seg.ftb_setBay (s : Seg) (n : Nat) (x : Bay) : (s.setBay n x).ftb = s.ftb := rfl
@[simp] theorem Seg.bisque_setBay (s : Seg) (n : Nat) (x : Bay) : (s.setBay n x).bisque = s.bisque := rfl
@[simp] theorem Seg.tileFtb_setBay (s : Seg) (n : Nat) (x : Bay) : (s.setBay n x).tileFtb = s.tileFtb := rfl
@[simp] theorem Seg.synced_setBay (s : Seg) (n : Nat) (x : Bay) : (s.setBay n x).synced = s.synced := rfl
@[simp] theorem Seg.pins_setBay (s : Seg) (n : Nat) (x : Bay) : (s.setBay n x).pins = s.pins := rfl
@[simp] theorem Seg.mp_setBay (s : Seg) (n : Nat) (x : Bay) : (s.setBay n x).mp = s.mp := rfl
@[simp] theorem Seg.ctl_setBay (s : Seg) (n : Nat) (x : Bay) : (s.setBay n x).ctl = s.ctl := rfl
@[simp] theorem Seg.kiln_setBay (s : Seg) (n : Nat) (x : Bay) : (s.setBay n x).kiln = s.kiln := rfl
@[simp] theorem Seg.srcs_setBay (s : Seg) (n : Nat) (x : Bay) : (s.setBay n x).srcs = s.srcs := rfl
@[simp] theorem Seg.srcCfg_setBay (s : Seg) (n : Nat) (x : Bay) : (s.setBay n x).srcCfg = s.srcCfg := rfl
@[simp] theorem Seg.pulses_setBay (s : Seg) (n : Nat) (x : Bay) : (s.setBay n x).pulses = s.pulses := rfl
@[simp] theorem Seg.eps_setBay (s : Seg) (n : Nat) (x : Bay) : (s.setBay n x).eps = s.eps := rfl
@[simp] theorem Seg.nis_setBay (s : Seg) (n : Nat) (x : Bay) : (s.setBay n x).nis = s.nis := rfl
@[simp] theorem Seg.banks_setBay (s : Seg) (n : Nat) (x : Bay) : (s.setBay n x).banks = s.banks := rfl
@[simp] theorem Seg.bmem_setBay (s : Seg) (n : Nat) (x : Bay) : (s.setBay n x).bmem = s.bmem := rfl
@[simp] theorem Seg.marks_setBay (s : Seg) (n : Nat) (x : Bay) : (s.setBay n x).marks = s.marks := rfl
@[simp] theorem Seg.canary_setBay (s : Seg) (n : Nat) (x : Bay) : (s.setBay n x).canary = s.canary := rfl
@[simp] theorem Seg.landing_setBay (s : Seg) (n : Nat) (x : Bay) : (s.setBay n x).landing = s.landing := rfl
@[simp] theorem Seg.vcbuf_setBay (s : Seg) (n : Nat) (x : Bay) : (s.setBay n x).vcbuf = s.vcbuf := rfl
@[simp] theorem Seg.inFlow_setBay (s : Seg) (n : Nat) (x : Bay) : (s.setBay n x).inFlow = s.inFlow := rfl
@[simp] theorem Seg.outVc_setBay (s : Seg) (n : Nat) (x : Bay) : (s.setBay n x).outVc = s.outVc := rfl
@[simp] theorem Seg.cred_setBay (s : Seg) (n : Nat) (x : Bay) : (s.setBay n x).cred = s.cred := rfl
@[simp] theorem Seg.freed_setBay (s : Seg) (n : Nat) (x : Bay) : (s.setBay n x).freed = s.freed := rfl
@[simp] theorem Seg.seenGray_setBay (s : Seg) (n : Nat) (x : Bay) : (s.setBay n x).seenGray = s.seenGray := rfl
@[simp] theorem Seg.waits_setBay (s : Seg) (n : Nat) (x : Bay) : (s.setBay n x).waits = s.waits := rfl
@[simp] theorem Seg.outs_setBay (s : Seg) (n : Nat) (x : Bay) : (s.setBay n x).outs = s.outs := rfl
@[simp] theorem Seg.linkDn_setBay (s : Seg) (n : Nat) (x : Bay) : (s.setBay n x).linkDn = s.linkDn := rfl
@[simp] theorem Seg.initDue_setBay (s : Seg) (n : Nat) (x : Bay) : (s.setBay n x).initDue = s.initDue := rfl
@[simp] theorem Seg.dropTail_setBay (s : Seg) (n : Nat) (x : Bay) : (s.setBay n x).dropTail = s.dropTail := rfl
@[simp] theorem Seg.slots_setBay (s : Seg) (n : Nat) (x : Bay) : (s.setBay n x).slots = s.slots := rfl
@[simp] theorem Seg.descs_setBay (s : Seg) (n : Nat) (x : Bay) : (s.setBay n x).descs = s.descs := rfl
@[simp] theorem Seg.bslots_setBay (s : Seg) (n : Nat) (x : Bay) : (s.setBay n x).bslots = s.bslots := rfl
@[simp] theorem Seg.aligned_setBay (s : Seg) (n : Nat) (x : Bay) : (s.setBay n x).aligned = s.aligned := rfl
@[simp] theorem Seg.samp_setBay (s : Seg) (n : Nat) (x : Bay) : (s.setBay n x).samp = s.samp := rfl
@[simp] theorem Seg.order_setBay (s : Seg) (n : Nat) (x : Bay) : (s.setBay n x).order = s.order := rfl
@[simp] theorem Seg.brs_setBay (s : Seg) (n : Nat) (x : Bay) : (s.setBay n x).brs = s.brs := rfl
@[simp] theorem Seg.free_setBay (s : Seg) (n : Nat) (x : Bay) : (s.setBay n x).free = s.free := rfl

@[simp] theorem Seg.strap_setOut (s : Seg) (t pl o : Nat) (x : OutArb) : (s.setOut t pl o x).strap = s.strap := rfl
@[simp] theorem Seg.regs_setOut (s : Seg) (t pl o : Nat) (x : OutArb) : (s.setOut t pl o x).regs = s.regs := rfl
@[simp] theorem Seg.cnts_setOut (s : Seg) (t pl o : Nat) (x : OutArb) : (s.setOut t pl o x).cnts = s.cnts := rfl
@[simp] theorem Seg.flips_setOut (s : Seg) (t pl o : Nat) (x : OutArb) : (s.setOut t pl o x).flips = s.flips := rfl
@[simp] theorem Seg.fuses_setOut (s : Seg) (t pl o : Nat) (x : OutArb) : (s.setOut t pl o x).fuses = s.fuses := rfl
@[simp] theorem Seg.ramp_setOut (s : Seg) (t pl o : Nat) (x : OutArb) : (s.setOut t pl o x).ramp = s.ramp := rfl
@[simp] theorem Seg.vwait_setOut (s : Seg) (t pl o : Nat) (x : OutArb) : (s.setOut t pl o x).vwait = s.vwait := rfl
@[simp] theorem Seg.dcoLost_setOut (s : Seg) (t pl o : Nat) (x : OutArb) : (s.setOut t pl o x).dcoLost = s.dcoLost := rfl
@[simp] theorem Seg.held_setOut (s : Seg) (t pl o : Nat) (x : OutArb) : (s.setOut t pl o x).held = s.held := rfl
@[simp] theorem Seg.ftb_setOut (s : Seg) (t pl o : Nat) (x : OutArb) : (s.setOut t pl o x).ftb = s.ftb := rfl
@[simp] theorem Seg.bisque_setOut (s : Seg) (t pl o : Nat) (x : OutArb) : (s.setOut t pl o x).bisque = s.bisque := rfl
@[simp] theorem Seg.tileFtb_setOut (s : Seg) (t pl o : Nat) (x : OutArb) : (s.setOut t pl o x).tileFtb = s.tileFtb := rfl
@[simp] theorem Seg.synced_setOut (s : Seg) (t pl o : Nat) (x : OutArb) : (s.setOut t pl o x).synced = s.synced := rfl
@[simp] theorem Seg.pins_setOut (s : Seg) (t pl o : Nat) (x : OutArb) : (s.setOut t pl o x).pins = s.pins := rfl
@[simp] theorem Seg.mp_setOut (s : Seg) (t pl o : Nat) (x : OutArb) : (s.setOut t pl o x).mp = s.mp := rfl
@[simp] theorem Seg.ctl_setOut (s : Seg) (t pl o : Nat) (x : OutArb) : (s.setOut t pl o x).ctl = s.ctl := rfl
@[simp] theorem Seg.kiln_setOut (s : Seg) (t pl o : Nat) (x : OutArb) : (s.setOut t pl o x).kiln = s.kiln := rfl
@[simp] theorem Seg.srcs_setOut (s : Seg) (t pl o : Nat) (x : OutArb) : (s.setOut t pl o x).srcs = s.srcs := rfl
@[simp] theorem Seg.srcCfg_setOut (s : Seg) (t pl o : Nat) (x : OutArb) : (s.setOut t pl o x).srcCfg = s.srcCfg := rfl
@[simp] theorem Seg.pulses_setOut (s : Seg) (t pl o : Nat) (x : OutArb) : (s.setOut t pl o x).pulses = s.pulses := rfl
@[simp] theorem Seg.eps_setOut (s : Seg) (t pl o : Nat) (x : OutArb) : (s.setOut t pl o x).eps = s.eps := rfl
@[simp] theorem Seg.nis_setOut (s : Seg) (t pl o : Nat) (x : OutArb) : (s.setOut t pl o x).nis = s.nis := rfl
@[simp] theorem Seg.banks_setOut (s : Seg) (t pl o : Nat) (x : OutArb) : (s.setOut t pl o x).banks = s.banks := rfl
@[simp] theorem Seg.bmem_setOut (s : Seg) (t pl o : Nat) (x : OutArb) : (s.setOut t pl o x).bmem = s.bmem := rfl
@[simp] theorem Seg.marks_setOut (s : Seg) (t pl o : Nat) (x : OutArb) : (s.setOut t pl o x).marks = s.marks := rfl
@[simp] theorem Seg.canary_setOut (s : Seg) (t pl o : Nat) (x : OutArb) : (s.setOut t pl o x).canary = s.canary := rfl
@[simp] theorem Seg.landing_setOut (s : Seg) (t pl o : Nat) (x : OutArb) : (s.setOut t pl o x).landing = s.landing := rfl
@[simp] theorem Seg.vcbuf_setOut (s : Seg) (t pl o : Nat) (x : OutArb) : (s.setOut t pl o x).vcbuf = s.vcbuf := rfl
@[simp] theorem Seg.inFlow_setOut (s : Seg) (t pl o : Nat) (x : OutArb) : (s.setOut t pl o x).inFlow = s.inFlow := rfl
@[simp] theorem Seg.outVc_setOut (s : Seg) (t pl o : Nat) (x : OutArb) : (s.setOut t pl o x).outVc = s.outVc := rfl
@[simp] theorem Seg.cred_setOut (s : Seg) (t pl o : Nat) (x : OutArb) : (s.setOut t pl o x).cred = s.cred := rfl
@[simp] theorem Seg.freed_setOut (s : Seg) (t pl o : Nat) (x : OutArb) : (s.setOut t pl o x).freed = s.freed := rfl
@[simp] theorem Seg.seenGray_setOut (s : Seg) (t pl o : Nat) (x : OutArb) : (s.setOut t pl o x).seenGray = s.seenGray := rfl
@[simp] theorem Seg.waits_setOut (s : Seg) (t pl o : Nat) (x : OutArb) : (s.setOut t pl o x).waits = s.waits := rfl
@[simp] theorem Seg.linkDn_setOut (s : Seg) (t pl o : Nat) (x : OutArb) : (s.setOut t pl o x).linkDn = s.linkDn := rfl
@[simp] theorem Seg.initDue_setOut (s : Seg) (t pl o : Nat) (x : OutArb) : (s.setOut t pl o x).initDue = s.initDue := rfl
@[simp] theorem Seg.dropTail_setOut (s : Seg) (t pl o : Nat) (x : OutArb) : (s.setOut t pl o x).dropTail = s.dropTail := rfl
@[simp] theorem Seg.slots_setOut (s : Seg) (t pl o : Nat) (x : OutArb) : (s.setOut t pl o x).slots = s.slots := rfl
@[simp] theorem Seg.descs_setOut (s : Seg) (t pl o : Nat) (x : OutArb) : (s.setOut t pl o x).descs = s.descs := rfl
@[simp] theorem Seg.bslots_setOut (s : Seg) (t pl o : Nat) (x : OutArb) : (s.setOut t pl o x).bslots = s.bslots := rfl
@[simp] theorem Seg.brs_setOut (s : Seg) (t pl o : Nat) (x : OutArb) : (s.setOut t pl o x).brs = s.brs := rfl
@[simp] theorem Seg.bays_setOut (s : Seg) (t pl o : Nat) (x : OutArb) : (s.setOut t pl o x).bays = s.bays := rfl
@[simp] theorem Seg.aligned_setOut (s : Seg) (t pl o : Nat) (x : OutArb) : (s.setOut t pl o x).aligned = s.aligned := rfl
@[simp] theorem Seg.samp_setOut (s : Seg) (t pl o : Nat) (x : OutArb) : (s.setOut t pl o x).samp = s.samp := rfl
@[simp] theorem Seg.order_setOut (s : Seg) (t pl o : Nat) (x : OutArb) : (s.setOut t pl o x).order = s.order := rfl
@[simp] theorem Seg.free_setOut (s : Seg) (t pl o : Nat) (x : OutArb) : (s.setOut t pl o x).free = s.free := rfl

@[simp] theorem Seg.strap_modCtl (s : Seg) (f : Ctl → Ctl) : (s.modCtl f).strap = s.strap := rfl
@[simp] theorem Seg.regs_modCtl (s : Seg) (f : Ctl → Ctl) : (s.modCtl f).regs = s.regs := rfl
@[simp] theorem Seg.cnts_modCtl (s : Seg) (f : Ctl → Ctl) : (s.modCtl f).cnts = s.cnts := rfl
@[simp] theorem Seg.flips_modCtl (s : Seg) (f : Ctl → Ctl) : (s.modCtl f).flips = s.flips := rfl
@[simp] theorem Seg.fuses_modCtl (s : Seg) (f : Ctl → Ctl) : (s.modCtl f).fuses = s.fuses := rfl
@[simp] theorem Seg.ramp_modCtl (s : Seg) (f : Ctl → Ctl) : (s.modCtl f).ramp = s.ramp := rfl
@[simp] theorem Seg.vwait_modCtl (s : Seg) (f : Ctl → Ctl) : (s.modCtl f).vwait = s.vwait := rfl
@[simp] theorem Seg.dcoLost_modCtl (s : Seg) (f : Ctl → Ctl) : (s.modCtl f).dcoLost = s.dcoLost := rfl
@[simp] theorem Seg.held_modCtl (s : Seg) (f : Ctl → Ctl) : (s.modCtl f).held = s.held := rfl
@[simp] theorem Seg.ftb_modCtl (s : Seg) (f : Ctl → Ctl) : (s.modCtl f).ftb = s.ftb := rfl
@[simp] theorem Seg.bisque_modCtl (s : Seg) (f : Ctl → Ctl) : (s.modCtl f).bisque = s.bisque := rfl
@[simp] theorem Seg.tileFtb_modCtl (s : Seg) (f : Ctl → Ctl) : (s.modCtl f).tileFtb = s.tileFtb := rfl
@[simp] theorem Seg.synced_modCtl (s : Seg) (f : Ctl → Ctl) : (s.modCtl f).synced = s.synced := rfl
@[simp] theorem Seg.pins_modCtl (s : Seg) (f : Ctl → Ctl) : (s.modCtl f).pins = s.pins := rfl
@[simp] theorem Seg.mp_modCtl (s : Seg) (f : Ctl → Ctl) : (s.modCtl f).mp = s.mp := rfl
@[simp] theorem Seg.kiln_modCtl (s : Seg) (f : Ctl → Ctl) : (s.modCtl f).kiln = s.kiln := rfl
@[simp] theorem Seg.srcs_modCtl (s : Seg) (f : Ctl → Ctl) : (s.modCtl f).srcs = s.srcs := rfl
@[simp] theorem Seg.srcCfg_modCtl (s : Seg) (f : Ctl → Ctl) : (s.modCtl f).srcCfg = s.srcCfg := rfl
@[simp] theorem Seg.pulses_modCtl (s : Seg) (f : Ctl → Ctl) : (s.modCtl f).pulses = s.pulses := rfl
@[simp] theorem Seg.eps_modCtl (s : Seg) (f : Ctl → Ctl) : (s.modCtl f).eps = s.eps := rfl
@[simp] theorem Seg.nis_modCtl (s : Seg) (f : Ctl → Ctl) : (s.modCtl f).nis = s.nis := rfl
@[simp] theorem Seg.banks_modCtl (s : Seg) (f : Ctl → Ctl) : (s.modCtl f).banks = s.banks := rfl
@[simp] theorem Seg.bmem_modCtl (s : Seg) (f : Ctl → Ctl) : (s.modCtl f).bmem = s.bmem := rfl
@[simp] theorem Seg.marks_modCtl (s : Seg) (f : Ctl → Ctl) : (s.modCtl f).marks = s.marks := rfl
@[simp] theorem Seg.canary_modCtl (s : Seg) (f : Ctl → Ctl) : (s.modCtl f).canary = s.canary := rfl
@[simp] theorem Seg.landing_modCtl (s : Seg) (f : Ctl → Ctl) : (s.modCtl f).landing = s.landing := rfl
@[simp] theorem Seg.vcbuf_modCtl (s : Seg) (f : Ctl → Ctl) : (s.modCtl f).vcbuf = s.vcbuf := rfl
@[simp] theorem Seg.inFlow_modCtl (s : Seg) (f : Ctl → Ctl) : (s.modCtl f).inFlow = s.inFlow := rfl
@[simp] theorem Seg.outVc_modCtl (s : Seg) (f : Ctl → Ctl) : (s.modCtl f).outVc = s.outVc := rfl
@[simp] theorem Seg.cred_modCtl (s : Seg) (f : Ctl → Ctl) : (s.modCtl f).cred = s.cred := rfl
@[simp] theorem Seg.freed_modCtl (s : Seg) (f : Ctl → Ctl) : (s.modCtl f).freed = s.freed := rfl
@[simp] theorem Seg.seenGray_modCtl (s : Seg) (f : Ctl → Ctl) : (s.modCtl f).seenGray = s.seenGray := rfl
@[simp] theorem Seg.waits_modCtl (s : Seg) (f : Ctl → Ctl) : (s.modCtl f).waits = s.waits := rfl
@[simp] theorem Seg.outs_modCtl (s : Seg) (f : Ctl → Ctl) : (s.modCtl f).outs = s.outs := rfl
@[simp] theorem Seg.linkDn_modCtl (s : Seg) (f : Ctl → Ctl) : (s.modCtl f).linkDn = s.linkDn := rfl
@[simp] theorem Seg.initDue_modCtl (s : Seg) (f : Ctl → Ctl) : (s.modCtl f).initDue = s.initDue := rfl
@[simp] theorem Seg.dropTail_modCtl (s : Seg) (f : Ctl → Ctl) : (s.modCtl f).dropTail = s.dropTail := rfl
@[simp] theorem Seg.slots_modCtl (s : Seg) (f : Ctl → Ctl) : (s.modCtl f).slots = s.slots := rfl
@[simp] theorem Seg.descs_modCtl (s : Seg) (f : Ctl → Ctl) : (s.modCtl f).descs = s.descs := rfl
@[simp] theorem Seg.bslots_modCtl (s : Seg) (f : Ctl → Ctl) : (s.modCtl f).bslots = s.bslots := rfl
@[simp] theorem Seg.brs_modCtl (s : Seg) (f : Ctl → Ctl) : (s.modCtl f).brs = s.brs := rfl
@[simp] theorem Seg.bays_modCtl (s : Seg) (f : Ctl → Ctl) : (s.modCtl f).bays = s.bays := rfl
@[simp] theorem Seg.aligned_modCtl (s : Seg) (f : Ctl → Ctl) : (s.modCtl f).aligned = s.aligned := rfl
@[simp] theorem Seg.samp_modCtl (s : Seg) (f : Ctl → Ctl) : (s.modCtl f).samp = s.samp := rfl
@[simp] theorem Seg.order_modCtl (s : Seg) (f : Ctl → Ctl) : (s.modCtl f).order = s.order := rfl
@[simp] theorem Seg.free_modCtl (s : Seg) (f : Ctl → Ctl) : (s.modCtl f).free = s.free := rfl

@[simp] theorem Seg.strap_modPins (s : Seg) (f : Pins → Pins) : (s.modPins f).strap = s.strap := rfl
@[simp] theorem Seg.regs_modPins (s : Seg) (f : Pins → Pins) : (s.modPins f).regs = s.regs := rfl
@[simp] theorem Seg.cnts_modPins (s : Seg) (f : Pins → Pins) : (s.modPins f).cnts = s.cnts := rfl
@[simp] theorem Seg.flips_modPins (s : Seg) (f : Pins → Pins) : (s.modPins f).flips = s.flips := rfl
@[simp] theorem Seg.fuses_modPins (s : Seg) (f : Pins → Pins) : (s.modPins f).fuses = s.fuses := rfl
@[simp] theorem Seg.ramp_modPins (s : Seg) (f : Pins → Pins) : (s.modPins f).ramp = s.ramp := rfl
@[simp] theorem Seg.vwait_modPins (s : Seg) (f : Pins → Pins) : (s.modPins f).vwait = s.vwait := rfl
@[simp] theorem Seg.dcoLost_modPins (s : Seg) (f : Pins → Pins) : (s.modPins f).dcoLost = s.dcoLost := rfl
@[simp] theorem Seg.held_modPins (s : Seg) (f : Pins → Pins) : (s.modPins f).held = s.held := rfl
@[simp] theorem Seg.ftb_modPins (s : Seg) (f : Pins → Pins) : (s.modPins f).ftb = s.ftb := rfl
@[simp] theorem Seg.bisque_modPins (s : Seg) (f : Pins → Pins) : (s.modPins f).bisque = s.bisque := rfl
@[simp] theorem Seg.tileFtb_modPins (s : Seg) (f : Pins → Pins) : (s.modPins f).tileFtb = s.tileFtb := rfl
@[simp] theorem Seg.synced_modPins (s : Seg) (f : Pins → Pins) : (s.modPins f).synced = s.synced := rfl
@[simp] theorem Seg.mp_modPins (s : Seg) (f : Pins → Pins) : (s.modPins f).mp = s.mp := rfl
@[simp] theorem Seg.ctl_modPins (s : Seg) (f : Pins → Pins) : (s.modPins f).ctl = s.ctl := rfl
@[simp] theorem Seg.kiln_modPins (s : Seg) (f : Pins → Pins) : (s.modPins f).kiln = s.kiln := rfl
@[simp] theorem Seg.srcs_modPins (s : Seg) (f : Pins → Pins) : (s.modPins f).srcs = s.srcs := rfl
@[simp] theorem Seg.srcCfg_modPins (s : Seg) (f : Pins → Pins) : (s.modPins f).srcCfg = s.srcCfg := rfl
@[simp] theorem Seg.pulses_modPins (s : Seg) (f : Pins → Pins) : (s.modPins f).pulses = s.pulses := rfl
@[simp] theorem Seg.eps_modPins (s : Seg) (f : Pins → Pins) : (s.modPins f).eps = s.eps := rfl
@[simp] theorem Seg.nis_modPins (s : Seg) (f : Pins → Pins) : (s.modPins f).nis = s.nis := rfl
@[simp] theorem Seg.banks_modPins (s : Seg) (f : Pins → Pins) : (s.modPins f).banks = s.banks := rfl
@[simp] theorem Seg.bmem_modPins (s : Seg) (f : Pins → Pins) : (s.modPins f).bmem = s.bmem := rfl
@[simp] theorem Seg.marks_modPins (s : Seg) (f : Pins → Pins) : (s.modPins f).marks = s.marks := rfl
@[simp] theorem Seg.canary_modPins (s : Seg) (f : Pins → Pins) : (s.modPins f).canary = s.canary := rfl
@[simp] theorem Seg.landing_modPins (s : Seg) (f : Pins → Pins) : (s.modPins f).landing = s.landing := rfl
@[simp] theorem Seg.vcbuf_modPins (s : Seg) (f : Pins → Pins) : (s.modPins f).vcbuf = s.vcbuf := rfl
@[simp] theorem Seg.inFlow_modPins (s : Seg) (f : Pins → Pins) : (s.modPins f).inFlow = s.inFlow := rfl
@[simp] theorem Seg.outVc_modPins (s : Seg) (f : Pins → Pins) : (s.modPins f).outVc = s.outVc := rfl
@[simp] theorem Seg.cred_modPins (s : Seg) (f : Pins → Pins) : (s.modPins f).cred = s.cred := rfl
@[simp] theorem Seg.freed_modPins (s : Seg) (f : Pins → Pins) : (s.modPins f).freed = s.freed := rfl
@[simp] theorem Seg.seenGray_modPins (s : Seg) (f : Pins → Pins) : (s.modPins f).seenGray = s.seenGray := rfl
@[simp] theorem Seg.waits_modPins (s : Seg) (f : Pins → Pins) : (s.modPins f).waits = s.waits := rfl
@[simp] theorem Seg.outs_modPins (s : Seg) (f : Pins → Pins) : (s.modPins f).outs = s.outs := rfl
@[simp] theorem Seg.linkDn_modPins (s : Seg) (f : Pins → Pins) : (s.modPins f).linkDn = s.linkDn := rfl
@[simp] theorem Seg.initDue_modPins (s : Seg) (f : Pins → Pins) : (s.modPins f).initDue = s.initDue := rfl
@[simp] theorem Seg.dropTail_modPins (s : Seg) (f : Pins → Pins) : (s.modPins f).dropTail = s.dropTail := rfl
@[simp] theorem Seg.slots_modPins (s : Seg) (f : Pins → Pins) : (s.modPins f).slots = s.slots := rfl
@[simp] theorem Seg.descs_modPins (s : Seg) (f : Pins → Pins) : (s.modPins f).descs = s.descs := rfl
@[simp] theorem Seg.bslots_modPins (s : Seg) (f : Pins → Pins) : (s.modPins f).bslots = s.bslots := rfl
@[simp] theorem Seg.brs_modPins (s : Seg) (f : Pins → Pins) : (s.modPins f).brs = s.brs := rfl
@[simp] theorem Seg.bays_modPins (s : Seg) (f : Pins → Pins) : (s.modPins f).bays = s.bays := rfl
@[simp] theorem Seg.aligned_modPins (s : Seg) (f : Pins → Pins) : (s.modPins f).aligned = s.aligned := rfl
@[simp] theorem Seg.samp_modPins (s : Seg) (f : Pins → Pins) : (s.modPins f).samp = s.samp := rfl
@[simp] theorem Seg.order_modPins (s : Seg) (f : Pins → Pins) : (s.modPins f).order = s.order := rfl
@[simp] theorem Seg.free_modPins (s : Seg) (f : Pins → Pins) : (s.modPins f).free = s.free := rfl

@[simp] theorem Seg.strap_setMp (s : Seg) (m : Mp) : (s.setMp m).strap = s.strap := rfl
@[simp] theorem Seg.regs_setMp (s : Seg) (m : Mp) : (s.setMp m).regs = s.regs := rfl
@[simp] theorem Seg.cnts_setMp (s : Seg) (m : Mp) : (s.setMp m).cnts = s.cnts := rfl
@[simp] theorem Seg.flips_setMp (s : Seg) (m : Mp) : (s.setMp m).flips = s.flips := rfl
@[simp] theorem Seg.fuses_setMp (s : Seg) (m : Mp) : (s.setMp m).fuses = s.fuses := rfl
@[simp] theorem Seg.ramp_setMp (s : Seg) (m : Mp) : (s.setMp m).ramp = s.ramp := rfl
@[simp] theorem Seg.vwait_setMp (s : Seg) (m : Mp) : (s.setMp m).vwait = s.vwait := rfl
@[simp] theorem Seg.dcoLost_setMp (s : Seg) (m : Mp) : (s.setMp m).dcoLost = s.dcoLost := rfl
@[simp] theorem Seg.held_setMp (s : Seg) (m : Mp) : (s.setMp m).held = s.held := rfl
@[simp] theorem Seg.ftb_setMp (s : Seg) (m : Mp) : (s.setMp m).ftb = s.ftb := rfl
@[simp] theorem Seg.bisque_setMp (s : Seg) (m : Mp) : (s.setMp m).bisque = s.bisque := rfl
@[simp] theorem Seg.tileFtb_setMp (s : Seg) (m : Mp) : (s.setMp m).tileFtb = s.tileFtb := rfl
@[simp] theorem Seg.synced_setMp (s : Seg) (m : Mp) : (s.setMp m).synced = s.synced := rfl
@[simp] theorem Seg.pins_setMp (s : Seg) (m : Mp) : (s.setMp m).pins = s.pins := rfl
@[simp] theorem Seg.ctl_setMp (s : Seg) (m : Mp) : (s.setMp m).ctl = s.ctl := rfl
@[simp] theorem Seg.kiln_setMp (s : Seg) (m : Mp) : (s.setMp m).kiln = s.kiln := rfl
@[simp] theorem Seg.srcs_setMp (s : Seg) (m : Mp) : (s.setMp m).srcs = s.srcs := rfl
@[simp] theorem Seg.srcCfg_setMp (s : Seg) (m : Mp) : (s.setMp m).srcCfg = s.srcCfg := rfl
@[simp] theorem Seg.pulses_setMp (s : Seg) (m : Mp) : (s.setMp m).pulses = s.pulses := rfl
@[simp] theorem Seg.eps_setMp (s : Seg) (m : Mp) : (s.setMp m).eps = s.eps := rfl
@[simp] theorem Seg.nis_setMp (s : Seg) (m : Mp) : (s.setMp m).nis = s.nis := rfl
@[simp] theorem Seg.banks_setMp (s : Seg) (m : Mp) : (s.setMp m).banks = s.banks := rfl
@[simp] theorem Seg.bmem_setMp (s : Seg) (m : Mp) : (s.setMp m).bmem = s.bmem := rfl
@[simp] theorem Seg.marks_setMp (s : Seg) (m : Mp) : (s.setMp m).marks = s.marks := rfl
@[simp] theorem Seg.canary_setMp (s : Seg) (m : Mp) : (s.setMp m).canary = s.canary := rfl
@[simp] theorem Seg.landing_setMp (s : Seg) (m : Mp) : (s.setMp m).landing = s.landing := rfl
@[simp] theorem Seg.vcbuf_setMp (s : Seg) (m : Mp) : (s.setMp m).vcbuf = s.vcbuf := rfl
@[simp] theorem Seg.inFlow_setMp (s : Seg) (m : Mp) : (s.setMp m).inFlow = s.inFlow := rfl
@[simp] theorem Seg.outVc_setMp (s : Seg) (m : Mp) : (s.setMp m).outVc = s.outVc := rfl
@[simp] theorem Seg.cred_setMp (s : Seg) (m : Mp) : (s.setMp m).cred = s.cred := rfl
@[simp] theorem Seg.freed_setMp (s : Seg) (m : Mp) : (s.setMp m).freed = s.freed := rfl
@[simp] theorem Seg.seenGray_setMp (s : Seg) (m : Mp) : (s.setMp m).seenGray = s.seenGray := rfl
@[simp] theorem Seg.waits_setMp (s : Seg) (m : Mp) : (s.setMp m).waits = s.waits := rfl
@[simp] theorem Seg.outs_setMp (s : Seg) (m : Mp) : (s.setMp m).outs = s.outs := rfl
@[simp] theorem Seg.linkDn_setMp (s : Seg) (m : Mp) : (s.setMp m).linkDn = s.linkDn := rfl
@[simp] theorem Seg.initDue_setMp (s : Seg) (m : Mp) : (s.setMp m).initDue = s.initDue := rfl
@[simp] theorem Seg.dropTail_setMp (s : Seg) (m : Mp) : (s.setMp m).dropTail = s.dropTail := rfl
@[simp] theorem Seg.slots_setMp (s : Seg) (m : Mp) : (s.setMp m).slots = s.slots := rfl
@[simp] theorem Seg.descs_setMp (s : Seg) (m : Mp) : (s.setMp m).descs = s.descs := rfl
@[simp] theorem Seg.bslots_setMp (s : Seg) (m : Mp) : (s.setMp m).bslots = s.bslots := rfl
@[simp] theorem Seg.brs_setMp (s : Seg) (m : Mp) : (s.setMp m).brs = s.brs := rfl
@[simp] theorem Seg.bays_setMp (s : Seg) (m : Mp) : (s.setMp m).bays = s.bays := rfl
@[simp] theorem Seg.aligned_setMp (s : Seg) (m : Mp) : (s.setMp m).aligned = s.aligned := rfl
@[simp] theorem Seg.samp_setMp (s : Seg) (m : Mp) : (s.setMp m).samp = s.samp := rfl
@[simp] theorem Seg.order_setMp (s : Seg) (m : Mp) : (s.setMp m).order = s.order := rfl
@[simp] theorem Seg.free_setMp (s : Seg) (m : Mp) : (s.setMp m).free = s.free := rfl

@[simp] theorem Seg.strap_tick1 (s : Seg) : (s.tick1).strap = s.strap := rfl
@[simp] theorem Seg.regs_tick1 (s : Seg) : (s.tick1).regs = s.regs := rfl
@[simp] theorem Seg.cnts_tick1 (s : Seg) : (s.tick1).cnts = s.cnts := rfl
@[simp] theorem Seg.flips_tick1 (s : Seg) : (s.tick1).flips = s.flips := rfl
@[simp] theorem Seg.fuses_tick1 (s : Seg) : (s.tick1).fuses = s.fuses := rfl
@[simp] theorem Seg.ramp_tick1 (s : Seg) : (s.tick1).ramp = s.ramp := rfl
@[simp] theorem Seg.vwait_tick1 (s : Seg) : (s.tick1).vwait = s.vwait := rfl
@[simp] theorem Seg.dcoLost_tick1 (s : Seg) : (s.tick1).dcoLost = s.dcoLost := rfl
@[simp] theorem Seg.held_tick1 (s : Seg) : (s.tick1).held = s.held := rfl
@[simp] theorem Seg.ftb_tick1 (s : Seg) : (s.tick1).ftb = s.ftb := rfl
@[simp] theorem Seg.bisque_tick1 (s : Seg) : (s.tick1).bisque = s.bisque := rfl
@[simp] theorem Seg.tileFtb_tick1 (s : Seg) : (s.tick1).tileFtb = s.tileFtb := rfl
@[simp] theorem Seg.synced_tick1 (s : Seg) : (s.tick1).synced = s.synced := rfl
@[simp] theorem Seg.pins_tick1 (s : Seg) : (s.tick1).pins = s.pins := rfl
@[simp] theorem Seg.mp_tick1 (s : Seg) : (s.tick1).mp = s.mp := rfl
@[simp] theorem Seg.ctl_tick1 (s : Seg) : (s.tick1).ctl = s.ctl := rfl
@[simp] theorem Seg.kiln_tick1 (s : Seg) : (s.tick1).kiln = s.kiln := rfl
@[simp] theorem Seg.srcs_tick1 (s : Seg) : (s.tick1).srcs = s.srcs := rfl
@[simp] theorem Seg.srcCfg_tick1 (s : Seg) : (s.tick1).srcCfg = s.srcCfg := rfl
@[simp] theorem Seg.pulses_tick1 (s : Seg) : (s.tick1).pulses = s.pulses := rfl
@[simp] theorem Seg.eps_tick1 (s : Seg) : (s.tick1).eps = s.eps := rfl
@[simp] theorem Seg.nis_tick1 (s : Seg) : (s.tick1).nis = s.nis := rfl
@[simp] theorem Seg.banks_tick1 (s : Seg) : (s.tick1).banks = s.banks := rfl
@[simp] theorem Seg.bmem_tick1 (s : Seg) : (s.tick1).bmem = s.bmem := rfl
@[simp] theorem Seg.marks_tick1 (s : Seg) : (s.tick1).marks = s.marks := rfl
@[simp] theorem Seg.canary_tick1 (s : Seg) : (s.tick1).canary = s.canary := rfl
@[simp] theorem Seg.landing_tick1 (s : Seg) : (s.tick1).landing = s.landing := rfl
@[simp] theorem Seg.vcbuf_tick1 (s : Seg) : (s.tick1).vcbuf = s.vcbuf := rfl
@[simp] theorem Seg.inFlow_tick1 (s : Seg) : (s.tick1).inFlow = s.inFlow := rfl
@[simp] theorem Seg.outVc_tick1 (s : Seg) : (s.tick1).outVc = s.outVc := rfl
@[simp] theorem Seg.cred_tick1 (s : Seg) : (s.tick1).cred = s.cred := rfl
@[simp] theorem Seg.freed_tick1 (s : Seg) : (s.tick1).freed = s.freed := rfl
@[simp] theorem Seg.seenGray_tick1 (s : Seg) : (s.tick1).seenGray = s.seenGray := rfl
@[simp] theorem Seg.waits_tick1 (s : Seg) : (s.tick1).waits = s.waits := rfl
@[simp] theorem Seg.outs_tick1 (s : Seg) : (s.tick1).outs = s.outs := rfl
@[simp] theorem Seg.linkDn_tick1 (s : Seg) : (s.tick1).linkDn = s.linkDn := rfl
@[simp] theorem Seg.initDue_tick1 (s : Seg) : (s.tick1).initDue = s.initDue := rfl
@[simp] theorem Seg.dropTail_tick1 (s : Seg) : (s.tick1).dropTail = s.dropTail := rfl
@[simp] theorem Seg.slots_tick1 (s : Seg) : (s.tick1).slots = s.slots := rfl
@[simp] theorem Seg.descs_tick1 (s : Seg) : (s.tick1).descs = s.descs := rfl
@[simp] theorem Seg.bslots_tick1 (s : Seg) : (s.tick1).bslots = s.bslots := rfl
@[simp] theorem Seg.brs_tick1 (s : Seg) : (s.tick1).brs = s.brs := rfl
@[simp] theorem Seg.bays_tick1 (s : Seg) : (s.tick1).bays = s.bays := rfl
@[simp] theorem Seg.aligned_tick1 (s : Seg) : (s.tick1).aligned = s.aligned := rfl
@[simp] theorem Seg.samp_tick1 (s : Seg) : (s.tick1).samp = s.samp := rfl
@[simp] theorem Seg.order_tick1 (s : Seg) : (s.tick1).order = s.order := rfl

@[simp] theorem Seg.strap_setTftb (s : Seg) (t : Nat) (v : BitVec 64) : (s.setTftb t v).strap = s.strap := rfl
@[simp] theorem Seg.regs_setTftb (s : Seg) (t : Nat) (v : BitVec 64) : (s.setTftb t v).regs = s.regs := rfl
@[simp] theorem Seg.cnts_setTftb (s : Seg) (t : Nat) (v : BitVec 64) : (s.setTftb t v).cnts = s.cnts := rfl
@[simp] theorem Seg.flips_setTftb (s : Seg) (t : Nat) (v : BitVec 64) : (s.setTftb t v).flips = s.flips := rfl
@[simp] theorem Seg.fuses_setTftb (s : Seg) (t : Nat) (v : BitVec 64) : (s.setTftb t v).fuses = s.fuses := rfl
@[simp] theorem Seg.ramp_setTftb (s : Seg) (t : Nat) (v : BitVec 64) : (s.setTftb t v).ramp = s.ramp := rfl
@[simp] theorem Seg.vwait_setTftb (s : Seg) (t : Nat) (v : BitVec 64) : (s.setTftb t v).vwait = s.vwait := rfl
@[simp] theorem Seg.dcoLost_setTftb (s : Seg) (t : Nat) (v : BitVec 64) : (s.setTftb t v).dcoLost = s.dcoLost := rfl
@[simp] theorem Seg.held_setTftb (s : Seg) (t : Nat) (v : BitVec 64) : (s.setTftb t v).held = s.held := rfl
@[simp] theorem Seg.ftb_setTftb (s : Seg) (t : Nat) (v : BitVec 64) : (s.setTftb t v).ftb = s.ftb := rfl
@[simp] theorem Seg.bisque_setTftb (s : Seg) (t : Nat) (v : BitVec 64) : (s.setTftb t v).bisque = s.bisque := rfl
@[simp] theorem Seg.synced_setTftb (s : Seg) (t : Nat) (v : BitVec 64) : (s.setTftb t v).synced = s.synced := rfl
@[simp] theorem Seg.pins_setTftb (s : Seg) (t : Nat) (v : BitVec 64) : (s.setTftb t v).pins = s.pins := rfl
@[simp] theorem Seg.mp_setTftb (s : Seg) (t : Nat) (v : BitVec 64) : (s.setTftb t v).mp = s.mp := rfl
@[simp] theorem Seg.ctl_setTftb (s : Seg) (t : Nat) (v : BitVec 64) : (s.setTftb t v).ctl = s.ctl := rfl
@[simp] theorem Seg.kiln_setTftb (s : Seg) (t : Nat) (v : BitVec 64) : (s.setTftb t v).kiln = s.kiln := rfl
@[simp] theorem Seg.srcs_setTftb (s : Seg) (t : Nat) (v : BitVec 64) : (s.setTftb t v).srcs = s.srcs := rfl
@[simp] theorem Seg.srcCfg_setTftb (s : Seg) (t : Nat) (v : BitVec 64) : (s.setTftb t v).srcCfg = s.srcCfg := rfl
@[simp] theorem Seg.pulses_setTftb (s : Seg) (t : Nat) (v : BitVec 64) : (s.setTftb t v).pulses = s.pulses := rfl
@[simp] theorem Seg.eps_setTftb (s : Seg) (t : Nat) (v : BitVec 64) : (s.setTftb t v).eps = s.eps := rfl
@[simp] theorem Seg.nis_setTftb (s : Seg) (t : Nat) (v : BitVec 64) : (s.setTftb t v).nis = s.nis := rfl
@[simp] theorem Seg.banks_setTftb (s : Seg) (t : Nat) (v : BitVec 64) : (s.setTftb t v).banks = s.banks := rfl
@[simp] theorem Seg.bmem_setTftb (s : Seg) (t : Nat) (v : BitVec 64) : (s.setTftb t v).bmem = s.bmem := rfl
@[simp] theorem Seg.marks_setTftb (s : Seg) (t : Nat) (v : BitVec 64) : (s.setTftb t v).marks = s.marks := rfl
@[simp] theorem Seg.canary_setTftb (s : Seg) (t : Nat) (v : BitVec 64) : (s.setTftb t v).canary = s.canary := rfl
@[simp] theorem Seg.landing_setTftb (s : Seg) (t : Nat) (v : BitVec 64) : (s.setTftb t v).landing = s.landing := rfl
@[simp] theorem Seg.vcbuf_setTftb (s : Seg) (t : Nat) (v : BitVec 64) : (s.setTftb t v).vcbuf = s.vcbuf := rfl
@[simp] theorem Seg.inFlow_setTftb (s : Seg) (t : Nat) (v : BitVec 64) : (s.setTftb t v).inFlow = s.inFlow := rfl
@[simp] theorem Seg.outVc_setTftb (s : Seg) (t : Nat) (v : BitVec 64) : (s.setTftb t v).outVc = s.outVc := rfl
@[simp] theorem Seg.cred_setTftb (s : Seg) (t : Nat) (v : BitVec 64) : (s.setTftb t v).cred = s.cred := rfl
@[simp] theorem Seg.freed_setTftb (s : Seg) (t : Nat) (v : BitVec 64) : (s.setTftb t v).freed = s.freed := rfl
@[simp] theorem Seg.seenGray_setTftb (s : Seg) (t : Nat) (v : BitVec 64) : (s.setTftb t v).seenGray = s.seenGray := rfl
@[simp] theorem Seg.waits_setTftb (s : Seg) (t : Nat) (v : BitVec 64) : (s.setTftb t v).waits = s.waits := rfl
@[simp] theorem Seg.outs_setTftb (s : Seg) (t : Nat) (v : BitVec 64) : (s.setTftb t v).outs = s.outs := rfl
@[simp] theorem Seg.linkDn_setTftb (s : Seg) (t : Nat) (v : BitVec 64) : (s.setTftb t v).linkDn = s.linkDn := rfl
@[simp] theorem Seg.initDue_setTftb (s : Seg) (t : Nat) (v : BitVec 64) : (s.setTftb t v).initDue = s.initDue := rfl
@[simp] theorem Seg.dropTail_setTftb (s : Seg) (t : Nat) (v : BitVec 64) : (s.setTftb t v).dropTail = s.dropTail := rfl
@[simp] theorem Seg.slots_setTftb (s : Seg) (t : Nat) (v : BitVec 64) : (s.setTftb t v).slots = s.slots := rfl
@[simp] theorem Seg.descs_setTftb (s : Seg) (t : Nat) (v : BitVec 64) : (s.setTftb t v).descs = s.descs := rfl
@[simp] theorem Seg.bslots_setTftb (s : Seg) (t : Nat) (v : BitVec 64) : (s.setTftb t v).bslots = s.bslots := rfl
@[simp] theorem Seg.brs_setTftb (s : Seg) (t : Nat) (v : BitVec 64) : (s.setTftb t v).brs = s.brs := rfl
@[simp] theorem Seg.bays_setTftb (s : Seg) (t : Nat) (v : BitVec 64) : (s.setTftb t v).bays = s.bays := rfl
@[simp] theorem Seg.aligned_setTftb (s : Seg) (t : Nat) (v : BitVec 64) : (s.setTftb t v).aligned = s.aligned := rfl
@[simp] theorem Seg.samp_setTftb (s : Seg) (t : Nat) (v : BitVec 64) : (s.setTftb t v).samp = s.samp := rfl
@[simp] theorem Seg.order_setTftb (s : Seg) (t : Nat) (v : BitVec 64) : (s.setTftb t v).order = s.order := rfl
@[simp] theorem Seg.free_setTftb (s : Seg) (t : Nat) (v : BitVec 64) : (s.setTftb t v).free = s.free := rfl

@[simp] theorem Seg.strap_setBByte (s : Seg) (b a : Nat) (v : Byte) : (s.setBByte b a v).strap = s.strap := rfl
@[simp] theorem Seg.regs_setBByte (s : Seg) (b a : Nat) (v : Byte) : (s.setBByte b a v).regs = s.regs := rfl
@[simp] theorem Seg.cnts_setBByte (s : Seg) (b a : Nat) (v : Byte) : (s.setBByte b a v).cnts = s.cnts := rfl
@[simp] theorem Seg.flips_setBByte (s : Seg) (b a : Nat) (v : Byte) : (s.setBByte b a v).flips = s.flips := rfl
@[simp] theorem Seg.fuses_setBByte (s : Seg) (b a : Nat) (v : Byte) : (s.setBByte b a v).fuses = s.fuses := rfl
@[simp] theorem Seg.ramp_setBByte (s : Seg) (b a : Nat) (v : Byte) : (s.setBByte b a v).ramp = s.ramp := rfl
@[simp] theorem Seg.vwait_setBByte (s : Seg) (b a : Nat) (v : Byte) : (s.setBByte b a v).vwait = s.vwait := rfl
@[simp] theorem Seg.dcoLost_setBByte (s : Seg) (b a : Nat) (v : Byte) : (s.setBByte b a v).dcoLost = s.dcoLost := rfl
@[simp] theorem Seg.held_setBByte (s : Seg) (b a : Nat) (v : Byte) : (s.setBByte b a v).held = s.held := rfl
@[simp] theorem Seg.ftb_setBByte (s : Seg) (b a : Nat) (v : Byte) : (s.setBByte b a v).ftb = s.ftb := rfl
@[simp] theorem Seg.bisque_setBByte (s : Seg) (b a : Nat) (v : Byte) : (s.setBByte b a v).bisque = s.bisque := rfl
@[simp] theorem Seg.tileFtb_setBByte (s : Seg) (b a : Nat) (v : Byte) : (s.setBByte b a v).tileFtb = s.tileFtb := rfl
@[simp] theorem Seg.synced_setBByte (s : Seg) (b a : Nat) (v : Byte) : (s.setBByte b a v).synced = s.synced := rfl
@[simp] theorem Seg.pins_setBByte (s : Seg) (b a : Nat) (v : Byte) : (s.setBByte b a v).pins = s.pins := rfl
@[simp] theorem Seg.mp_setBByte (s : Seg) (b a : Nat) (v : Byte) : (s.setBByte b a v).mp = s.mp := rfl
@[simp] theorem Seg.ctl_setBByte (s : Seg) (b a : Nat) (v : Byte) : (s.setBByte b a v).ctl = s.ctl := rfl
@[simp] theorem Seg.kiln_setBByte (s : Seg) (b a : Nat) (v : Byte) : (s.setBByte b a v).kiln = s.kiln := rfl
@[simp] theorem Seg.srcs_setBByte (s : Seg) (b a : Nat) (v : Byte) : (s.setBByte b a v).srcs = s.srcs := rfl
@[simp] theorem Seg.srcCfg_setBByte (s : Seg) (b a : Nat) (v : Byte) : (s.setBByte b a v).srcCfg = s.srcCfg := rfl
@[simp] theorem Seg.pulses_setBByte (s : Seg) (b a : Nat) (v : Byte) : (s.setBByte b a v).pulses = s.pulses := rfl
@[simp] theorem Seg.eps_setBByte (s : Seg) (b a : Nat) (v : Byte) : (s.setBByte b a v).eps = s.eps := rfl
@[simp] theorem Seg.nis_setBByte (s : Seg) (b a : Nat) (v : Byte) : (s.setBByte b a v).nis = s.nis := rfl
@[simp] theorem Seg.banks_setBByte (s : Seg) (b a : Nat) (v : Byte) : (s.setBByte b a v).banks = s.banks := rfl
@[simp] theorem Seg.marks_setBByte (s : Seg) (b a : Nat) (v : Byte) : (s.setBByte b a v).marks = s.marks := rfl
@[simp] theorem Seg.canary_setBByte (s : Seg) (b a : Nat) (v : Byte) : (s.setBByte b a v).canary = s.canary := rfl
@[simp] theorem Seg.landing_setBByte (s : Seg) (b a : Nat) (v : Byte) : (s.setBByte b a v).landing = s.landing := rfl
@[simp] theorem Seg.vcbuf_setBByte (s : Seg) (b a : Nat) (v : Byte) : (s.setBByte b a v).vcbuf = s.vcbuf := rfl
@[simp] theorem Seg.inFlow_setBByte (s : Seg) (b a : Nat) (v : Byte) : (s.setBByte b a v).inFlow = s.inFlow := rfl
@[simp] theorem Seg.outVc_setBByte (s : Seg) (b a : Nat) (v : Byte) : (s.setBByte b a v).outVc = s.outVc := rfl
@[simp] theorem Seg.cred_setBByte (s : Seg) (b a : Nat) (v : Byte) : (s.setBByte b a v).cred = s.cred := rfl
@[simp] theorem Seg.freed_setBByte (s : Seg) (b a : Nat) (v : Byte) : (s.setBByte b a v).freed = s.freed := rfl
@[simp] theorem Seg.seenGray_setBByte (s : Seg) (b a : Nat) (v : Byte) : (s.setBByte b a v).seenGray = s.seenGray := rfl
@[simp] theorem Seg.waits_setBByte (s : Seg) (b a : Nat) (v : Byte) : (s.setBByte b a v).waits = s.waits := rfl
@[simp] theorem Seg.outs_setBByte (s : Seg) (b a : Nat) (v : Byte) : (s.setBByte b a v).outs = s.outs := rfl
@[simp] theorem Seg.linkDn_setBByte (s : Seg) (b a : Nat) (v : Byte) : (s.setBByte b a v).linkDn = s.linkDn := rfl
@[simp] theorem Seg.initDue_setBByte (s : Seg) (b a : Nat) (v : Byte) : (s.setBByte b a v).initDue = s.initDue := rfl
@[simp] theorem Seg.dropTail_setBByte (s : Seg) (b a : Nat) (v : Byte) : (s.setBByte b a v).dropTail = s.dropTail := rfl
@[simp] theorem Seg.slots_setBByte (s : Seg) (b a : Nat) (v : Byte) : (s.setBByte b a v).slots = s.slots := rfl
@[simp] theorem Seg.descs_setBByte (s : Seg) (b a : Nat) (v : Byte) : (s.setBByte b a v).descs = s.descs := rfl
@[simp] theorem Seg.bslots_setBByte (s : Seg) (b a : Nat) (v : Byte) : (s.setBByte b a v).bslots = s.bslots := rfl
@[simp] theorem Seg.brs_setBByte (s : Seg) (b a : Nat) (v : Byte) : (s.setBByte b a v).brs = s.brs := rfl
@[simp] theorem Seg.bays_setBByte (s : Seg) (b a : Nat) (v : Byte) : (s.setBByte b a v).bays = s.bays := rfl
@[simp] theorem Seg.aligned_setBByte (s : Seg) (b a : Nat) (v : Byte) : (s.setBByte b a v).aligned = s.aligned := rfl
@[simp] theorem Seg.samp_setBByte (s : Seg) (b a : Nat) (v : Byte) : (s.setBByte b a v).samp = s.samp := rfl
@[simp] theorem Seg.order_setBByte (s : Seg) (b a : Nat) (v : Byte) : (s.setBByte b a v).order = s.order := rfl
@[simp] theorem Seg.free_setBByte (s : Seg) (b a : Nat) (v : Byte) : (s.setBByte b a v).free = s.free := rfl

@[simp] theorem Seg.strap_setMark (s : Seg) (b w : Nat) (v : Bool) : (s.setMark b w v).strap = s.strap := rfl
@[simp] theorem Seg.regs_setMark (s : Seg) (b w : Nat) (v : Bool) : (s.setMark b w v).regs = s.regs := rfl
@[simp] theorem Seg.cnts_setMark (s : Seg) (b w : Nat) (v : Bool) : (s.setMark b w v).cnts = s.cnts := rfl
@[simp] theorem Seg.flips_setMark (s : Seg) (b w : Nat) (v : Bool) : (s.setMark b w v).flips = s.flips := rfl
@[simp] theorem Seg.fuses_setMark (s : Seg) (b w : Nat) (v : Bool) : (s.setMark b w v).fuses = s.fuses := rfl
@[simp] theorem Seg.ramp_setMark (s : Seg) (b w : Nat) (v : Bool) : (s.setMark b w v).ramp = s.ramp := rfl
@[simp] theorem Seg.vwait_setMark (s : Seg) (b w : Nat) (v : Bool) : (s.setMark b w v).vwait = s.vwait := rfl
@[simp] theorem Seg.dcoLost_setMark (s : Seg) (b w : Nat) (v : Bool) : (s.setMark b w v).dcoLost = s.dcoLost := rfl
@[simp] theorem Seg.held_setMark (s : Seg) (b w : Nat) (v : Bool) : (s.setMark b w v).held = s.held := rfl
@[simp] theorem Seg.ftb_setMark (s : Seg) (b w : Nat) (v : Bool) : (s.setMark b w v).ftb = s.ftb := rfl
@[simp] theorem Seg.bisque_setMark (s : Seg) (b w : Nat) (v : Bool) : (s.setMark b w v).bisque = s.bisque := rfl
@[simp] theorem Seg.tileFtb_setMark (s : Seg) (b w : Nat) (v : Bool) : (s.setMark b w v).tileFtb = s.tileFtb := rfl
@[simp] theorem Seg.synced_setMark (s : Seg) (b w : Nat) (v : Bool) : (s.setMark b w v).synced = s.synced := rfl
@[simp] theorem Seg.pins_setMark (s : Seg) (b w : Nat) (v : Bool) : (s.setMark b w v).pins = s.pins := rfl
@[simp] theorem Seg.mp_setMark (s : Seg) (b w : Nat) (v : Bool) : (s.setMark b w v).mp = s.mp := rfl
@[simp] theorem Seg.ctl_setMark (s : Seg) (b w : Nat) (v : Bool) : (s.setMark b w v).ctl = s.ctl := rfl
@[simp] theorem Seg.kiln_setMark (s : Seg) (b w : Nat) (v : Bool) : (s.setMark b w v).kiln = s.kiln := rfl
@[simp] theorem Seg.srcs_setMark (s : Seg) (b w : Nat) (v : Bool) : (s.setMark b w v).srcs = s.srcs := rfl
@[simp] theorem Seg.srcCfg_setMark (s : Seg) (b w : Nat) (v : Bool) : (s.setMark b w v).srcCfg = s.srcCfg := rfl
@[simp] theorem Seg.pulses_setMark (s : Seg) (b w : Nat) (v : Bool) : (s.setMark b w v).pulses = s.pulses := rfl
@[simp] theorem Seg.eps_setMark (s : Seg) (b w : Nat) (v : Bool) : (s.setMark b w v).eps = s.eps := rfl
@[simp] theorem Seg.nis_setMark (s : Seg) (b w : Nat) (v : Bool) : (s.setMark b w v).nis = s.nis := rfl
@[simp] theorem Seg.banks_setMark (s : Seg) (b w : Nat) (v : Bool) : (s.setMark b w v).banks = s.banks := rfl
@[simp] theorem Seg.bmem_setMark (s : Seg) (b w : Nat) (v : Bool) : (s.setMark b w v).bmem = s.bmem := rfl
@[simp] theorem Seg.canary_setMark (s : Seg) (b w : Nat) (v : Bool) : (s.setMark b w v).canary = s.canary := rfl
@[simp] theorem Seg.landing_setMark (s : Seg) (b w : Nat) (v : Bool) : (s.setMark b w v).landing = s.landing := rfl
@[simp] theorem Seg.vcbuf_setMark (s : Seg) (b w : Nat) (v : Bool) : (s.setMark b w v).vcbuf = s.vcbuf := rfl
@[simp] theorem Seg.inFlow_setMark (s : Seg) (b w : Nat) (v : Bool) : (s.setMark b w v).inFlow = s.inFlow := rfl
@[simp] theorem Seg.outVc_setMark (s : Seg) (b w : Nat) (v : Bool) : (s.setMark b w v).outVc = s.outVc := rfl
@[simp] theorem Seg.cred_setMark (s : Seg) (b w : Nat) (v : Bool) : (s.setMark b w v).cred = s.cred := rfl
@[simp] theorem Seg.freed_setMark (s : Seg) (b w : Nat) (v : Bool) : (s.setMark b w v).freed = s.freed := rfl
@[simp] theorem Seg.seenGray_setMark (s : Seg) (b w : Nat) (v : Bool) : (s.setMark b w v).seenGray = s.seenGray := rfl
@[simp] theorem Seg.waits_setMark (s : Seg) (b w : Nat) (v : Bool) : (s.setMark b w v).waits = s.waits := rfl
@[simp] theorem Seg.outs_setMark (s : Seg) (b w : Nat) (v : Bool) : (s.setMark b w v).outs = s.outs := rfl
@[simp] theorem Seg.linkDn_setMark (s : Seg) (b w : Nat) (v : Bool) : (s.setMark b w v).linkDn = s.linkDn := rfl
@[simp] theorem Seg.initDue_setMark (s : Seg) (b w : Nat) (v : Bool) : (s.setMark b w v).initDue = s.initDue := rfl
@[simp] theorem Seg.dropTail_setMark (s : Seg) (b w : Nat) (v : Bool) : (s.setMark b w v).dropTail = s.dropTail := rfl
@[simp] theorem Seg.slots_setMark (s : Seg) (b w : Nat) (v : Bool) : (s.setMark b w v).slots = s.slots := rfl
@[simp] theorem Seg.descs_setMark (s : Seg) (b w : Nat) (v : Bool) : (s.setMark b w v).descs = s.descs := rfl
@[simp] theorem Seg.bslots_setMark (s : Seg) (b w : Nat) (v : Bool) : (s.setMark b w v).bslots = s.bslots := rfl
@[simp] theorem Seg.brs_setMark (s : Seg) (b w : Nat) (v : Bool) : (s.setMark b w v).brs = s.brs := rfl
@[simp] theorem Seg.bays_setMark (s : Seg) (b w : Nat) (v : Bool) : (s.setMark b w v).bays = s.bays := rfl
@[simp] theorem Seg.aligned_setMark (s : Seg) (b w : Nat) (v : Bool) : (s.setMark b w v).aligned = s.aligned := rfl
@[simp] theorem Seg.samp_setMark (s : Seg) (b w : Nat) (v : Bool) : (s.setMark b w v).samp = s.samp := rfl
@[simp] theorem Seg.order_setMark (s : Seg) (b w : Nat) (v : Bool) : (s.setMark b w v).order = s.order := rfl
@[simp] theorem Seg.free_setMark (s : Seg) (b w : Nat) (v : Bool) : (s.setMark b w v).free = s.free := rfl

@[simp] theorem Seg.strap_zeroBank (s : Seg) (b : Nat) : (s.zeroBank b).strap = s.strap := rfl
@[simp] theorem Seg.regs_zeroBank (s : Seg) (b : Nat) : (s.zeroBank b).regs = s.regs := rfl
@[simp] theorem Seg.cnts_zeroBank (s : Seg) (b : Nat) : (s.zeroBank b).cnts = s.cnts := rfl
@[simp] theorem Seg.flips_zeroBank (s : Seg) (b : Nat) : (s.zeroBank b).flips = s.flips := rfl
@[simp] theorem Seg.fuses_zeroBank (s : Seg) (b : Nat) : (s.zeroBank b).fuses = s.fuses := rfl
@[simp] theorem Seg.ramp_zeroBank (s : Seg) (b : Nat) : (s.zeroBank b).ramp = s.ramp := rfl
@[simp] theorem Seg.vwait_zeroBank (s : Seg) (b : Nat) : (s.zeroBank b).vwait = s.vwait := rfl
@[simp] theorem Seg.dcoLost_zeroBank (s : Seg) (b : Nat) : (s.zeroBank b).dcoLost = s.dcoLost := rfl
@[simp] theorem Seg.held_zeroBank (s : Seg) (b : Nat) : (s.zeroBank b).held = s.held := rfl
@[simp] theorem Seg.ftb_zeroBank (s : Seg) (b : Nat) : (s.zeroBank b).ftb = s.ftb := rfl
@[simp] theorem Seg.bisque_zeroBank (s : Seg) (b : Nat) : (s.zeroBank b).bisque = s.bisque := rfl
@[simp] theorem Seg.tileFtb_zeroBank (s : Seg) (b : Nat) : (s.zeroBank b).tileFtb = s.tileFtb := rfl
@[simp] theorem Seg.synced_zeroBank (s : Seg) (b : Nat) : (s.zeroBank b).synced = s.synced := rfl
@[simp] theorem Seg.pins_zeroBank (s : Seg) (b : Nat) : (s.zeroBank b).pins = s.pins := rfl
@[simp] theorem Seg.mp_zeroBank (s : Seg) (b : Nat) : (s.zeroBank b).mp = s.mp := rfl
@[simp] theorem Seg.ctl_zeroBank (s : Seg) (b : Nat) : (s.zeroBank b).ctl = s.ctl := rfl
@[simp] theorem Seg.kiln_zeroBank (s : Seg) (b : Nat) : (s.zeroBank b).kiln = s.kiln := rfl
@[simp] theorem Seg.srcs_zeroBank (s : Seg) (b : Nat) : (s.zeroBank b).srcs = s.srcs := rfl
@[simp] theorem Seg.srcCfg_zeroBank (s : Seg) (b : Nat) : (s.zeroBank b).srcCfg = s.srcCfg := rfl
@[simp] theorem Seg.pulses_zeroBank (s : Seg) (b : Nat) : (s.zeroBank b).pulses = s.pulses := rfl
@[simp] theorem Seg.eps_zeroBank (s : Seg) (b : Nat) : (s.zeroBank b).eps = s.eps := rfl
@[simp] theorem Seg.nis_zeroBank (s : Seg) (b : Nat) : (s.zeroBank b).nis = s.nis := rfl
@[simp] theorem Seg.banks_zeroBank (s : Seg) (b : Nat) : (s.zeroBank b).banks = s.banks := rfl
@[simp] theorem Seg.canary_zeroBank (s : Seg) (b : Nat) : (s.zeroBank b).canary = s.canary := rfl
@[simp] theorem Seg.landing_zeroBank (s : Seg) (b : Nat) : (s.zeroBank b).landing = s.landing := rfl
@[simp] theorem Seg.vcbuf_zeroBank (s : Seg) (b : Nat) : (s.zeroBank b).vcbuf = s.vcbuf := rfl
@[simp] theorem Seg.inFlow_zeroBank (s : Seg) (b : Nat) : (s.zeroBank b).inFlow = s.inFlow := rfl
@[simp] theorem Seg.outVc_zeroBank (s : Seg) (b : Nat) : (s.zeroBank b).outVc = s.outVc := rfl
@[simp] theorem Seg.cred_zeroBank (s : Seg) (b : Nat) : (s.zeroBank b).cred = s.cred := rfl
@[simp] theorem Seg.freed_zeroBank (s : Seg) (b : Nat) : (s.zeroBank b).freed = s.freed := rfl
@[simp] theorem Seg.seenGray_zeroBank (s : Seg) (b : Nat) : (s.zeroBank b).seenGray = s.seenGray := rfl
@[simp] theorem Seg.waits_zeroBank (s : Seg) (b : Nat) : (s.zeroBank b).waits = s.waits := rfl
@[simp] theorem Seg.outs_zeroBank (s : Seg) (b : Nat) : (s.zeroBank b).outs = s.outs := rfl
@[simp] theorem Seg.linkDn_zeroBank (s : Seg) (b : Nat) : (s.zeroBank b).linkDn = s.linkDn := rfl
@[simp] theorem Seg.initDue_zeroBank (s : Seg) (b : Nat) : (s.zeroBank b).initDue = s.initDue := rfl
@[simp] theorem Seg.dropTail_zeroBank (s : Seg) (b : Nat) : (s.zeroBank b).dropTail = s.dropTail := rfl
@[simp] theorem Seg.slots_zeroBank (s : Seg) (b : Nat) : (s.zeroBank b).slots = s.slots := rfl
@[simp] theorem Seg.descs_zeroBank (s : Seg) (b : Nat) : (s.zeroBank b).descs = s.descs := rfl
@[simp] theorem Seg.bslots_zeroBank (s : Seg) (b : Nat) : (s.zeroBank b).bslots = s.bslots := rfl
@[simp] theorem Seg.brs_zeroBank (s : Seg) (b : Nat) : (s.zeroBank b).brs = s.brs := rfl
@[simp] theorem Seg.bays_zeroBank (s : Seg) (b : Nat) : (s.zeroBank b).bays = s.bays := rfl
@[simp] theorem Seg.aligned_zeroBank (s : Seg) (b : Nat) : (s.zeroBank b).aligned = s.aligned := rfl
@[simp] theorem Seg.samp_zeroBank (s : Seg) (b : Nat) : (s.zeroBank b).samp = s.samp := rfl
@[simp] theorem Seg.order_zeroBank (s : Seg) (b : Nat) : (s.zeroBank b).order = s.order := rfl
@[simp] theorem Seg.free_zeroBank (s : Seg) (b : Nat) : (s.zeroBank b).free = s.free := rfl

end Sys2Proof.Machine
end

