-- ==== Sys2Proof/Tests/Slice0.lean ====
section
/-!
SUPPORT. The well-formedness checks each refuse a term; one-step checks against the values of the spec's rules; and for
every statement that has hypotheses, states and operands that meet them, clause by clause (`test_meets_…`, one namespace
for each group of states).
-/
set_option Elab.async false

namespace Sys2Proof.Tests

open Sys2Proof.Machine Sys2Proof.Machine.Reg

/-! ### Well-formedness: a term that each check refuses -/

theorem test_wf_pages :
    instrWf (.guardTimeout 0 0x30) = false ∧ instrWf (.pageDisable 0 .mp 0x0F) = false ∧
    instrWf (.pageEnable 0 .mp 0x190) = false ∧ instrWf (.pageDrain 0 .mp 0x320) = false ∧
    instrWf (.drainComplete 0 0x448) = false ∧ instrWf (.pageOwnerWrite 0 .mp 0x28 0 false) = false ∧
    instrWf (.glazeMismatch 0 0x12 0 1) = false ∧ instrWf (.glazeMismatch 0 0 0x1000 1) = false ∧
    instrWf (.glazeMismatch 0 0 0x102 1) = false := by decide

theorem test_wf_ports :
    instrWf (.flitArrival 0 0 .req .s ⟨0, 0⟩) = false ∧ instrWf (.outputArbitration 0 143 .rsp ⟨.n, []⟩) = false ∧
    instrWf (.escapeSwitch 0 1 .req .k 0) = false ∧ instrWf (.escapeSwitch 0 0 .mgt .e 1) = false ∧
    instrWf (.escapeWatchdog 0 0 .snp .e ⟨3, false⟩) = false ∧ instrWf (.linkDnRise 0 0 .w) = false ∧
    instrWf (.creditInitReceive 0 11 .e) = false := by decide

theorem test_wf_endpoints :
    instrWf (.packetArrivalEgress 0 0x120 ⟨.req, [], [], false⟩) = false ∧ instrWf (.ackDelayExpiry 0 0x1FF 0 .req) = false ∧
    instrWf (.ackReceive 0 ⟨0x248, 0⟩) = false ∧ instrWf (.retryTimeout 0 0x3F0 0 .req) = false ∧
    instrWf (.sourceGrantRelease 0 0x3F1 0 .req) = false ∧ instrWf (.egressGrantReclaim 0 0x3FF 0 .req) = false := by decide

theorem test_wf_sources :
    instrWf (.fenceMapAdopt 0 ⟨0x100, []⟩) = false ∧ instrWf (.ringNoticeReceive 0 0x005) = false ∧
    instrWf (.pulseRaise 0 0x012 0 0) = false ∧ instrWf (.eventProcess 0 ⟨0x020, 0, true⟩) = false ∧
    instrWf (.activeLevelChange 0 0x0D0 true) = false ∧ instrWf (.autoClear 0 0x148) = false ∧
    instrWf (.prepareReceive 0 ⟨0x320, 0, false⟩) = false ∧ instrWf (.sleepVote 0 ⟨0x3FF, 0, false⟩) = false ∧
    instrWf (.commitReceive 0 ⟨0x1FF, 0, false⟩) = false ∧ instrWf (.abortReceive 0 ⟨0x017, 0, false⟩) = false ∧
    instrWf (.acknowledgePhaseEnd 0 0x03F) = false := by decide

theorem test_wf_domains :
    instrWf (.autoIdleEntry 0 0x3F) = false ∧ instrWf (.autoDrowsyEntry 0 0xD0) = false ∧
    instrWf (.autoRetainEntry 0 0x148) = false ∧ instrWf (.domainWake 0 0x200) = false ∧
    instrWf (.domainWakeDone 0 0 none) = false ∧ instrWf (.brownOut 0 [0x40, 0x3F] false) = false := by decide

theorem test_wf_frames :
    instrWf (.frameReceive 0 0 0 { plane := .snp, vc := 3 }) = false ∧
    instrWf (.frameReceive 0 0 0 { vc := 1, flit := some { body := .data 0, vc := 2 } }) = false := by decide

/-- The four corner tiles have the links the mesh gives them, and the attachment tiles the K port on MGT (R8, R319). -/
theorem test_wf_accepts :
    instrWf (.linkDnRise 0 0 .n) = true ∧ instrWf (.linkDnRise 0 143 .s) = true ∧
    instrWf (.flitArrival 0 65 .mgt .k ⟨0, 0⟩) = true ∧ instrWf (.pageDrain 0 .mp 0x18F) = true := by decide

/-! ### The queue and the words of the table -/

theorem test_no_word : decodeTableWord 32 0 = none ∧ State.reset.withFetchWord 32 0 = State.reset := by decide +kernel

/-! ### States -/

/-- What holds of segment 0. -/
abbrev On (s : State) (P : Seg → Prop) : Prop := P (s.seg 0)
/-- What holds of a state and its segment 0. -/
abbrev At (s : State) (P : State → Seg → Prop) : Prop := P s (s.seg 0)
/-- A value named. -/
abbrev With {α : Type} (x : α) (P : α → Prop) : Prop := P x
/-- Reset, the controller of segment 0 running and its first eight tiles and banks ACTIVE. -/
def chkBase : State :=
  { State.reset with s0 := (({ Seg.reset 0 with mp := { ready := true } } : Seg).setWord pgPwr 0x200 0).setWord pgPwr 0x250 0 }
/-- Fields set, then `f`. -/
def mkR (l : List (Nat × Field × Nat)) (f : Seg → Seg := id) : State :=
  { chkBase with s0 := f (l.foldl (fun s e => s.wr e.1 e.2.1 e.2.2) chkBase.s0) }
def mk0 (f : Seg → Seg) : State := { chkBase with s0 := f chkBase.s0 }
/-- `Seg.Open`, decided. -/
def wayOpen (s : Seg) (r : Requester) (p off : Nat) : Bool :=
  !s.inReset && s.mp.ready && s.ctl.stalled.isEmpty && s.ctl.guards.isEmpty && (r != .mp || s.mp.half.isNone) &&
    s.accessError { req := r, wr := true, size := 2, addr := mgmtAddr s.strap p off } == 0 && !s.soak &&
    (match pageKind p with | some (k, i) => s.pageState k i == 0 | none => true)

theorem wayOpen_open {s : Seg} {r : Requester} {p off : Nat} (h : wayOpen s r p off = true) : s.Open r p off := by
  simp only [wayOpen, Bool.and_eq_true, Bool.not_eq_true', List.isEmpty_iff, beq_iff_eq] at h
  obtain ⟨⟨⟨⟨⟨⟨⟨h1, h2⟩, h3⟩, h4⟩, h5⟩, h7⟩, h8⟩, h9⟩ := h
  exact ⟨h1, h2, h3, h4, h7, h8, fun hr => by subst hr; simpa using h5, fun k i hk => by simpa [hk] using h9⟩

/-- A command's next state meets `P` in segment 0. -/
def after (c : Instr) (s : State) (P : Seg → Bool) : Bool :=
  match exec c s with
  | .next t => P t.s0
  | _ => false

/-! ### One step, by the rules' own values -/

/-- PAGE_ID of the SEG page, and its version word, 3.2.0 (R58). -/
theorem test_page_id :
    On chkBase (fun S => (S.computedWord .seg 0 0 0).getD (S.word 0 0) = 0x01000320 ∧ mapMask .seg 0 = 0xFFFFFFFF ∧
      (S.computedWord .seg 0 0 0x104).getD (S.word 0 0x104) &&& mapMask .seg 0x104 = 0x00030200) := by decide +kernel
/-- An unimplemented page: code 0x1 (R80). -/
theorem test_mp_address : after (.mpRequest 0 false 2 0x30000 0) chkBase (fun S => S.mp.err && S.mp.rdata == 1) = true := by
  decide +kernel
/-- The router of a tile that is OFF: code 0x5 (R80); every tile is OFF at reset. -/
theorem test_mp_unit_off : after (.mpRequest 0 false 2 0x108100 0) chkBase (fun S => S.mp.err && S.mp.rdata == 5) = true := by
  decide +kernel
/-- A misaligned word: code 0x2 (R48, R80). -/
theorem test_mp_width : after (.mpRequest 0 false 2 0x102 0) chkBase (fun S => S.mp.err && S.mp.rdata == 2) = true := by
  decide +kernel
/-- An opening guard write leaves the register as it is (R41). -/
theorem test_guard_open :
    after (.guardOpen 0 .mp 0x110 2) chkBase (fun S => S.ctl.guards == [⟨0, 0x110, 2, .mp⟩] && S.word 0 0x110 == chkBase.s0.word 0 0x110) = true := by
  decide +kernel
/-- A command in a segment in reset does nothing. -/
theorem test_reset_silent :
    after (.tempSample 0 0 150) (mk0 fun s => { s with pins := { s.pins with poresetN := false } }) (fun S => S.tcode 0 == chkBase.s0.tcode 0) = true := by
  decide +kernel
/-- The thermal limit codes at 125 °C and 150 °C (R349). -/
theorem test_thermal :
    after (.tempSample 0 0 125) chkBase (fun S => S.tcode 0 == 48) = true ∧ after (.tempSample 0 0 150) chkBase (fun S => S.tcode 0 == 36) = true := by
  decide +kernel
/-- Above 150 °C the code stays 36 and the thermal bit rises (R349). -/
theorem test_thermal_top : after (.tempSample 0 0 170) chkBase (fun S => S.tcode 0 == 36 && S.bit pgClk 0x010 11) = true := by
  decide +kernel
/-- Bank 5's canary rows (R335). -/
theorem test_canary :
    canaryWord 5 0 7 = 0xAAAAAAAAAAAAAAAA ∧ canaryWord 5 1 0 = 0x5555555555555555 ∧ canaryWord 5 2 2 = 0x0303030303030303 ∧
    canaryWord 5 3 0 = 0xFFFFFFFAFFFFFF85 := by decide +kernel
/-- After 24 identical bits comes one of the opposite value, and it starts a new run (R381). -/
theorem test_stuff :
    stuff true 0 (List.replicate 25 false) = List.replicate 24 false ++ [true, false] ∧
    destuff true 0 (List.replicate 24 false ++ [false]) = none := by decide +kernel
/-- Bundle buffers (R389). -/
theorem test_bundle_depths :
    [0, 1, 2, 3, 4, 5].map (bunDepth .rsp) = [8, 16, 16, 8, 4, 4] ∧ [0, 1, 2, 3, 4, 5].map (bunDepth .snp) = [8, 8, 8, 0, 4, 4] ∧
    [0, 1, 2, 3, 4, 5].map (bunDepth .mgt) = [8, 0, 0, 0, 2, 2] := by decide +kernel
/-- Overcurrent at a bay without power is counted and is no strike (R485). -/
theorem test_oc_idle :
    after (.bayOvercurrent 0 0 false) chkBase (fun S => S.cnt (pgBay 0) 0 0x820 == 1 && S.rd (pgBay 0) BAY.BAY_STAT_STRIKES == 0) = true := by
  decide +kernel
/-- A wrong factory key counts one failure (R511). -/
theorem test_wrong_key : after (.factoryKeyWrite 0 .mp 0x1234 false) chkBase (fun S => S.rd pgKiln KILN.KILN_BOOT_KEY_FAILS == 1) = true := by
  decide +kernel
/-- A bank byte written, then zeroed (R326). -/
theorem test_bank_bytes :
    On (mk0 fun s => s.setBBytes 3 0x100 0x0807060504030201 8) (fun S => S.bByte 3 0x100 = 1 ∧ S.bByte 3 0x107 = 8 ∧
      S.bBytes 3 0x102 2 = 0x0403 ∧ Memory.wf S.bmem = true ∧ (S.zeroBank 3).bByte 3 0x104 = 0 ∧ (S.zeroBank 3).bmem = []) := by
  decide +kernel
/-- A share of 0 is taken as 1 (R58). -/
theorem test_share_zero : 
    after (.registerWrite 0 .mp 2 0x400 0) (mkR [(pgSeg, SEG.SEG_CTRL_EXPERT_EN, 1)]) (fun S => S.word 0 0x400 == 1) = true := by
  decide +kernel
/-- A mismatch of SEG_LOCK acts as both locks (R430). -/
theorem test_forced_locks : after (.glazeMismatch 0 0 0x118 1) chkBase (fun S => S.lockedOwners && S.lockedExpert) = true := by
  decide +kernel
/-- The agent lets WAKE fall (R74). -/
theorem test_wake_falls :
    after (.agentWake 0 0 false) (mk0 fun s => s.modNi 0 fun x => { x with clk := true, arstN := true, wake := true })
      (fun S => !(S.ni 0).wake) = true := by decide +kernel
/-- With an empty queue one oscillator cycle passes before the time base runs (log 1). -/
theorem test_idle_step :
    (match step State.reset with | .next t => t.s0.bisque == 1 && t.s0.ftb == 0 && t.pending == [] | _ => false) = true := by
  decide +kernel
/-- A command for a port that does not exist stops with the one fault (log 73). -/
theorem test_absent_unit : (match exec (.flitArrival 0 0 .req .s ⟨0, 0⟩) State.reset with | .fault .absentUnit => true | _ => false) = true := by
  decide +kernel

/-! ### States and operands that meet the statements' hypotheses -/

theorem test_meets_StepTakesACommandOrTime :
    ({ State.reset with pending := [.admitLapse 0] } : State).pending = .admitLapse 0 :: [] ∧ State.reset.pending = [] := by decide +kernel

theorem test_meets_ResetSegmentIsSilent :
    With (.tempSample 0 0 150 : Instr) fun c => instrWf c = true ∧ (∀ g, c ≠ .poresetAssert g) ∧ (∀ g b, c ≠ .poresetRelease g b) ∧
      (∀ g, c ≠ .segResetAssert g) ∧ (∀ g, c ≠ .segResetRelease g) ∧
      ((mk0 fun s => { s with pins := { s.pins with segResetN := false } }).seg (instrSeg c)).inReset = true := by
  refine ⟨by decide, ?_, ?_, ?_, ?_, by decide +kernel⟩ <;> intros <;> exact Instr.noConfusion

theorem test_meets_StepKeepsUpAndAvail :
    (∀ g : Fin 4, (State.reset.seg g).UpShown ∧ (State.reset.seg g).AvailShown) ∧ ∃ t, step State.reset = .next t := by
  refine ⟨fun g => ⟨fun n h => ?_, ?_⟩, _, rfl⟩
  · match g with
    | 0 | 1 | 2 | 3 => exact absurd (show false = true from h) (by decide)
  · match g with
    | 0 | 1 | 2 | 3 => unfold Seg.AvailShown; decide +kernel

theorem test_meets_HeadersReadBackAndGlaze :
    With ({ dest := 5, type := tRead } : Hdr) fun h => With h.glaze fun k => k.destGz = h.glaze.destGz ∧ k.clsGz = h.glaze.clsGz ∧
      k.typeGz = h.glaze.typeGz ∧ k.epochGz = h.glaze.epochGz ∧ k.seqGz = h.glaze.seqGz := by decide +kernel

theorem test_meets_RouteLeadsNearer :
    target {} {} 0 ⟨0x00F, 0x000, tRead, 0, false, false, 2, 0, 0, false, false⟩ = some (7, 0, .l1) ∧ ({} : FenceMap).rects = [] := by
  decide +kernel

/-- A write that waits at the port past its limit (the last clause of ManagementPortAccess). -/
theorem test_meets_PortTimeoutWrite :
    On (mk0 fun s => s.modCtl fun c => { c with stalled := [{ req := .mp, wr := true, size := 2, addr := mgmtAddr 0 0x200 0x14, data := 9 }] })
      (fun S => pageKind 0x200 = some (.ni, 0) ∧ S.inReset = false ∧ S.ctl.guards = [] ∧
        S.ctl.stalled = [{ req := .mp, wr := true, size := 2, addr := mgmtAddr 0 0x200 0x14, data := 9 }]) := by
  and_intros <;> decide +kernel

namespace Access

def wr_ (p : Nat) (f : Field) (v : Nat) (s : Seg) : Seg := s.wr p f v

theorem test_meets_BadAddressHasNoEffect :
    On (chkBase) (fun S => addrMbz 536870912 ≠ 0 ∧ S.inReset = false ∧ S.mp.ready = true ∧ S.mp.half = none ∧ S.ctl.stalled
      = [] ∧ addrSeg (mgmtAddr 1 0 0) ≠ S.strap ∧ pageKind (addrPage (mgmtAddr 0 48 0)) = none) := by
  and_intros <;> decide +kernel

theorem test_meets_UnmatchedSecondRequest :
    On (mk0 fun s => s.setMp { ready := true, half := some (true, mgmtAddr 0 4 0x400, 7) }) (fun S => ¬(2 = 3 ∧ false = true
      ∧ mgmtAddr 0 4 1028 = mgmtAddr 0 4 1024 + 4) ∧ S.inReset = false ∧ S.mp.ready = true ∧ S.mp.half = some (true,
      mgmtAddr 0 4 1024, 7) ∧ S.mpWaiting = false) := by
  and_intros <;> decide +kernel

theorem test_meets_ManagementPortAccess :
    On (chkBase) (fun S => pageKind (addrPage (mgmtAddr 0 4 1024)) = some (Kind.kiln, 0) ∧ S.inReset = false ∧ S.mp.ready =
      true ∧ S.mp.half = none ∧ S.ctl.stalled = [] ∧ S.pageState Kind.kiln 0 = 0 ∧ S.accessError
      { req := Requester.mp, wr := false, size := 3, addr := mgmtAddr 0 4 1024, data := 99 } = 0 ∧ S.accessError
      { req := Requester.mp, wr := false, size := 2, addr := mgmtAddr 0 4 1024, data := 99 } = 0 ∧ S.soak = false ∧
      S.accessError { req := Requester.mp, wr := true, size := 3, addr := mgmtAddr 0 4 1024 } = 0) ∧
    On (mk0 (fun s => s.setMp { ready := true, half := some (false, mgmtAddr 0 4 0x400, 7) })) (fun S => pageKind (addrPage
      (mgmtAddr 0 4 1024)) = some (Kind.kiln, 0) ∧ S.inReset = false ∧ S.mp.ready = true ∧ S.mp.half = some (false, mgmtAddr
      0 4 1024, 7) ∧ S.mpWaiting = false) ∧
    On (mk0 (fun s => (s.wr pgSeg SEG.SEG_CTRL_EXPERT_EN 1).setMp
      { ready := true, half := some (true, mgmtAddr 0 4 0x400, 7) })) (fun S => pageKind (addrPage (mgmtAddr 0 4 1024)) =
      some (Kind.kiln, 0) ∧ S.inReset = false ∧ S.strap = 0 ∧ S.mp.ready = true ∧ S.mp.half = some (true, mgmtAddr 0 pgKiln
      1024, 7) ∧ S.ctl.stalled = [] ∧ S.ctl.guards = [] ∧ S.soak = false ∧ S.expertEn = true) ∧
    On (mk0 (fun s => s.modCtl fun c =>
      { c with stalled := [{ req := .mp, wr := false, size := 2, addr := mgmtAddr 0 0x200 0x14 }] })) (fun S => (With
      (({ req := .mp, wr := false, size := 2, addr := mgmtAddr 0 0x200 0x14 } : Access) : Access) fun a => a.req =
      Requester.mp ∧ a.size ≠ 3 ∧ a.wr = false ∧ S.ctl.stalled = [a]) ∧ S.inReset = false) := by
  and_intros <;> decide +kernel

theorem test_meets_GuardedPairs :
    On (mk0 fun s => s.modCtl fun c => { c with guards := [⟨0x200, 0x1C, 64, .mp⟩] }) (fun S => pageKind 512 = some
      (Kind.ni, 0) ∧ counterWord Kind.ni 0 28 = false ∧ absentWord Kind.ni 0 28 = false ∧ (((wordRows Kind.ni 28).any fun x
      => x.acc == Acc.wg) = true) ∧ S.inReset = false ∧ S.strap = 0 ∧ S.mp.ready = true ∧ S.ctl.stalled = [] ∧ S.ctl.guards
      = [{ page := 512, off := 28, val := 64, req := Requester.mp }] ∧ S.soak = false ∧ S.pageState Kind.ni 0 = 0 ∧
      S.lockedOwners = false ∧ Requester.mp.dom = 0 ∧ (Kind.ni.cap / 2048 % 2 = 1 → 64 % 64 = 0) ∧ S.accessError
      { req := Requester.mp, wr := true, size := 2, addr := mgmtAddr 0 512 32 } = 0 ∧ S.accessError
      { req := Requester.mp, wr := true, size := 2, addr := mgmtAddr 0 512 276 } = 0) ∧
    At (chkBase) (fun s S => pageKind 0 = some (Kind.seg, 0) ∧ counterWord Kind.seg 0 28 = false ∧ absentWord Kind.seg 0 28
      = false ∧ (((wordRows Kind.seg 28).any fun x => x.acc == Acc.wg) = true) ∧ wayOpen S Requester.mp 0 28 ∧ s.stampBad
      Requester.mp = false ∧ S.strap = 0) := by
  and_intros <;> decide +kernel

theorem test_meets_PlainWrites :
    At (chkBase) (fun s S => pageKind 0 = some (Kind.seg, 0) ∧ wayOpen S Requester.mp 0 20 ∧ s.stampBad Requester.mp = false
      ∧ S.strap = 0 ∧ (((wordRows Kind.seg 1024).any fun x => x.acc == Acc.wg) = false) ∧ wayOpen S Requester.mp 0 1024 ∧
      S.expertEn = false ∧ pageKind 2 = some (Kind.pwr, 0) ∧ counterWord Kind.pwr 0 2048 = true ∧ Kind.pwr ≠ Kind.router ∧
      Kind.pwr ≠ Kind.br ∧ Kind.pwr ≠ Kind.coll ∧ 2 ≠ pgSeg ∧ 2 ≠ pgClk ∧ wayOpen S Requester.mp 2 2048) := by
  and_intros <;> decide +kernel

theorem test_meets_PageControlAndOwners :
    At (mk0 (wr_ pgFlow PAGE.PAGE_CTRL_ENABLE 1)) (fun s S => pageKind 0 = some (Kind.seg, 0) ∧ Kind.seg.alwaysOn = true
      ∧ wayOpen S Requester.mp 0 8 ∧ s.stampBad Requester.mp = false ∧ pageKind 256 = some (Kind.router, 0) ∧
      Kind.router.alwaysOn = false ∧ Kind.router ≠ Kind.bay ∧ Kind.router ≠ Kind.flowwin ∧ wayOpen S Requester.mp 256 8 ∧
      S.flag 256 PAGE.PAGE_CTRL_ENABLE = true ∧ (Kind.router = Kind.router → S.c1Tile 0 = false) ∧ pageKind 6 = some
      (Kind.flowwin, 0) ∧ wayOpen S Requester.mp 6 8 ∧ S.flag 6 PAGE.PAGE_CTRL_ENABLE = true ∧ Kind.flowwin.alwaysOn =
      false ∧ Kind.flowwin ≠ Kind.bay ∧ (Kind.flowwin = Kind.router → S.c1Tile 0 = false) ∧ Kind.router.cap / 4096 % 2 = 1 ∧
      pageKind 512 = some (Kind.ni, 0) ∧ Kind.ni.cap / 4096 % 2 = 1 ∧ wayOpen S Requester.mp 512 8 ∧ S.flag 512
      PAGE.PAGE_CTRL_ENABLE = false ∧ (Kind.ni = Kind.router → S.c1Tile 0 = false) ∧ S.inReset = false ∧ S.pageBusy
      Kind.ni 0 = false ∧ (S.flag 0 PAGE.PAGE_CTRL_ENABLE = true ∨ S.pageBusy Kind.seg 0 = true) ∧ wayOpen S
      Requester.mp 0 28 ∧ S.lockedOwners = false ∧ (Kind.seg.cap / 2048 % 2 = 1 → 0 = 0)) ∧
    At (mk0 (wr_ pgSeg SEG.SEG_LOCK_LOCK_OWNERS 1)) (fun s S => pageKind 0 = some (Kind.seg, 0) ∧ wayOpen S Requester.mp
      0 28 ∧ s.stampBad Requester.mp = false ∧ S.lockedOwners = true) ∧
    At (mk0 (fun s => s.wr (pgRt 0) ROUTER.C1_STAT_C1_TILE 1)) (fun s S => pageKind 256 = some (Kind.router, 0) ∧
      wayOpen S Requester.mp 256 8 ∧ s.stampBad Requester.mp = false ∧ S.c1Tile 0 = true) := by
  and_intros <;> decide +kernel

theorem test_meets_LocksStayAndClearExpert :
    At (chkBase) (fun s S => wayOpen S Requester.mp pgSeg 280 ∧ s.stampBad Requester.mp = false ∧ wayOpen S Requester.mp
      pgSeg 272) ∧
    On (mk0 fun s => (s.wr pgSeg SEG.SEG_LOCK_LOCK_EXPERT 1).modCtl fun c => { c with guards := [⟨0, 0x118, 0, .mp⟩] })
      (fun S => S.inReset = false ∧ S.strap = 0 ∧ S.mp.ready = true ∧ S.ctl.stalled = [] ∧ S.ctl.guards =
      [{ page := pgSeg, off := 280, val := 0, req := Requester.mp }] ∧ S.soak = false ∧ S.word pgSeg 280 &&& ~~~0 &&& 3 ≠ 0
      ∧ S.accessError { req := Requester.mp, wr := true, size := 2, addr := mgmtAddr 0 pgSeg 284 } = 0) := by
  and_intros <;> decide +kernel

theorem test_meets_SegmentControlWrites :
    At (mk0 fun s => (s.wr pgSeg SEG.SEG_LOCK_LOCK_EXPERT 1)) (fun s S => wayOpen S Requester.mp pgSeg 280 ∧ s.stampBad
      Requester.mp = false ∧ S.flag pgSeg SEG.SEG_LOCK_LOCK_EXPERT = true ∧ wayOpen S Requester.mp pgSeg 272 ∧ (S.flag
      pgSeg SEG.SEG_CTRL_EXPERT_EN = false ∨ S.lockedExpert = false) ∧ (false = false ∨ S.lockedExpert = false) ∧
      S.lockedExpert = true) ∧
    At (chkBase) (fun s S => wayOpen S Requester.mp pgSeg 280 ∧ s.stampBad Requester.mp = false ∧ S.flag pgSeg
      SEG.SEG_LOCK_LOCK_EXPERT = false) := by
  and_intros <;> decide +kernel

end Access

namespace Binding


theorem test_meets_TenantsGlazeAndBinding :
    At (mkR [(pgNi 0, PAGE.PAGE_OWNER_OWNER_DOM, 3)] (fun s => (s.modNi 0 fun x => { x with bind := [(0, 7)] }))) (fun s
      S => wayOpen S Requester.mp pgTen (256 + 8 * 5) ∧ s.stampBad Requester.mp = false ∧ S.lockedOwners = false ∧ wayOpen S
      Requester.mp pgTen 912 ∧ pageKind 0 = some (Kind.seg, 0) ∧ Kind.seg ≠ Kind.coll ∧ glazeBit Kind.seg 272 = some 9 ∧
      S.inReset = false ∧ SMap.get 0 S.flips (1024 * 0 + 272 / 4) ^^^ 1 ≠ 0 ∧ wayOpen S Requester.mp (pgNi 0) 272 ∧
      Requester.mp.dom = 0 ∧ (Requester.agent 5 3).dom ≠ 0 ∧ wayOpen S (Requester.agent 5 3) (pgNi 0) 272 ∧ s.stampBad
      (Requester.agent 5 3) = false) := by
  and_intros <;> decide +kernel

end Binding

namespace Collect

def ev (c : Byte) : EvRec := ⟨c, 0x123, false⟩
def evS (c : Byte) (l : List (Nat × Field × Nat)) :=
  mkR ([(pgColl, COLL.COLL_STAT_RUNNING, 1)] ++ l) fun s => s.setPulse 0x40 { phase := 1, flight := some (ev c) }
def sv (f : Src → Src) (l : List (Nat × Field × Nat) := []) := mkR l fun s => (s.setSevere 0x40 true).modSrc 0x40 f
def inj (l : List (Nat × Field × Nat)) (f := fun s : Seg => s) :=
  mkR ([(pgSeg, SEG.SEG_STAT_FACTORY, 1), (pgColl, COLL.INJ_SEL_INJ_SRC, 0x100)] ++ l) f
def fac (l : List (Nat × Field × Nat)) (f := fun s : Seg => s) :=
  mkR ([(pgKiln, KILN.KILN_BOOT_TEST_MODE, 1), (pgSeg, SEG.SEG_CTRL_MODE, 2)] ++ l) f

theorem test_meets_PulseCrossing :
    On (mk0 fun s => s.setPulse 0x40 { phase := 2 }) (fun S => 64 = srcRt 0 ∧ S.inReset = false ∧ S.ctl.halted = false ∧
      S.stTile 0 ≠ 4 ∧ S.bit (pgRt 0) 20 9 = false ∧ (S.pulse 64).phase ≠ 0 ∧ (S.pulse 64).slot = none ∧ (S.pulse 64).phase
      = 2) ∧
    On (mk0 fun s => s.setPulse 0x40 { phase := 2, slot := some ⟨1, 2, false⟩ }) (fun S => 64 = srcRt 0 ∧ S.inReset = false
      ∧ S.ctl.halted = false ∧ S.stTile 0 ≠ 4 ∧ S.bit (pgRt 0) 20 9 = false ∧ (S.pulse 64).phase ≠ 0 ∧ (S.pulse 64).slot ≠
      none ∧ (S.pulse 64).phase = 2 ∧ (With ((⟨1, 2, false⟩ : EvRec) : EvRec) fun e => (S.pulse 64).slot = some e)) ∧
    On (chkBase) (fun S => 64 = srcRt 0 ∧ S.inReset = false ∧ S.ctl.halted = false ∧ S.stTile 0 ≠ 4 ∧ S.bit (pgRt 0) 20 9 =
      false ∧ (S.pulse 64).phase = 0) := by
  and_intros <;> decide +kernel

theorem test_meets_CollectorEvents :
    On (evS 0x85 []) (fun S => srcOk 64 = true ∧ S.inReset = false ∧ (S.pulse 64).phase = 1 ∧ (S.pulse 64).flight = some (ev
      133) ∧ (S.pulse 64).lost ≤ (S.pulse 64).prev ∧ S.ctl.halted = false ∧ S.flag pgColl COLL.COLL_STAT_RUNNING = true ∧
      S.collBad 64 = none ∧ S.soak = false ∧ S.causeKind 64 (ev 133).cause < 2 ∧ S.isSaggared (S.sagUnit 64 (ev 133).cause
      (ev 133).synd) = false ∧ S.kilnAt 64 = false ∧ cfgSherdAll (S.cfgOf 64) = false ∧ (S.faultLevel 64 ≠ true ∨
      S.ctl.halted = true)) := by
  and_intros <;> decide +kernel

theorem test_meets_CollectorClearsAndCommands :
    At (mk0 fun s => { s with flips := [(1024*1+0x130/4, 1)] }) (fun s S => srcOk 64 = true ∧ wayOpen S Requester.mp pgColl
      280 ∧ s.stampBad Requester.mp = false ∧ (S.src 64).severe = false ∧ S.collBad 64 = none ∧ S.inReset = false ∧ S.soak =
      false ∧ S.collMismatch = some (304, 0) ∧ S.ctl.bulk = none ∧ S.ctl.halted = false ∧ S.rd pgPwr PWR.PWR_SEG_STAT_PHASE
      = 0 ∧ S.ctl.tileCmd = none ∧ S.kiln.run = none) ∧
    At (sv (fun x => { x with active := true })) (fun s S => srcOk 64 = true ∧ wayOpen S Requester.mp pgColl 280 ∧
      s.stampBad Requester.mp = false ∧ (S.src 64).severe = true ∧ (S.src 64).active = true ∧ S.collBad 64 = none) ∧
    At (sv (fun x => { x with faulted := true })) (fun s S => srcOk 64 = true ∧ wayOpen S Requester.mp pgColl 280 ∧
      s.stampBad Requester.mp = false ∧ (S.src 64).severe = true ∧ (S.src 64).active = false ∧ S.collBad 64 = none ∧ (S.src
      64).faulted = true ∧ (S.now - (S.src 64).lastFault).toNat < S.units4096 (cfgW (S.cfgOf 64))) ∧
    On (mkR [(pgBank 0, PAGE.PAGE_STAT_SAGGARED, 1)] (fun s => s.modCtl fun c => { c with restore := some (0x100, 0) }))
      (fun S => 256 = srcBank 0 ∧ S.inReset = false ∧ S.ctl.restore = some (srcBank 0, 0) ∧ (S.bank 0).zeroing = false) := by
  and_intros <;> decide +kernel

theorem test_meets_Injections :
    At (chkBase) (fun s S => wayOpen S Requester.mp pgColl 3840 ∧ s.stampBad Requester.mp = false ∧ S.factory = false ∧
      S.inReset = false ∧ (S.factory = false ∨ S.ctl.inj = none)) ∧
    At (inj [] (fun s => s.modCtl fun c => { c with inj := some ⟨1, 1⟩ })) (fun s S => wayOpen S Requester.mp pgColl 3840 ∧
      s.stampBad Requester.mp = false ∧ S.factory = true ∧ S.ctl.inj ≠ none ∧ S.inReset = false ∧ S.ctl.inj = some
      { left := 1, mode := 1 }) ∧
    At (inj [(pgColl, COLL.INJ_LOC_OFFSET, 0x100)]) (fun s S => wayOpen S Requester.mp pgColl 3840 ∧ s.stampBad Requester.mp
      = false ∧ S.factory = true ∧ S.ctl.inj = none ∧ S.rd pgColl COLL.INJ_SEL_INJ_SRC = srcBank 0 ∧ S.stTile (bankTile 0) ≠
      4 ∧ (S.pulse (srcBank 0)).phase = 0 ∧ S.rd pgColl COLL.INJ_LOC_OFFSET = 256 ∧ S.mismatched (pgBank 0) 256 = false) ∧
    On (inj [] (fun s => s.modCtl fun c => { c with inj := some ⟨2, 1⟩ })) (fun S => S.inReset = false ∧ S.factory = true ∧
      S.ctl.inj = some { left := 2, mode := 1 }) := by
  and_intros <;> decide +kernel

theorem test_meets_KilnRuns :
    At (mkR [(pgSeg, SEG.SEG_CTRL_EXPERT_EN, 1), (pgBank 0, PAGE.PAGE_STAT_SAGGARED, 1)] (fun s =>
      { s with kiln := { s.kiln with solOk := [(0, 3)], sols := [(0, 0x8001)] } })) (fun s S => wayOpen S Requester.mp
      pgKiln 256 ∧ s.stampBad Requester.mp = false ∧ S.flag pgKiln KILN.KILN_STAT_BUSY = false ∧ S.kilnCheck 1 false 256 0 =
      1 ∧ S.kilnCheck 1 false 64 0 ≠ 1 ∧ S.kilnCheck 2 false 256 0 = 1 ∧ S.kilnCheck 2 false 64 0 ≠ 1 ∧ S.kilnCheck 3 false
      256 0 = 1 ∧ S.kilnCheck 3 false 64 0 ≠ 1 ∧ S.inReset = false ∧ S.kiln.run = none ∧ S.solSel = 0 ∧ S.solStat 0 % 4 = 3
      ∧ S.expertEn = true ∧ (S.enabled (pgBank 0) = false ∨ S.saggared (pgBank 0) = true)) := by
  and_intros <;> decide +kernel

theorem test_meets_FactoryModeAndFuses :
    At (fac [(pgSeg, SEG.SEG_STAT_FACTORY, 1), (pgColl, COLL.INJ_CTRL_COUNT, 5)]) (fun s S => wayOpen S Requester.mp pgKiln
      352 ∧ s.stampBad Requester.mp = false ∧ S.factoryOk = true ∧ S.rd pgKiln KILN.KILN_BOOT_KEY_STEP = 0 ∧ 32289 = S.keyA
      ∧ (S.factoryOk = false ∨ 3030 ≠ S.keyA) ∧ wayOpen S Requester.mp pgKiln 360 ∧ (S.factoryOk = false ∨ S.rd pgKiln
      KILN.KILN_BOOT_KEY_STEP ≠ 2 ∨ false = true ∨ S.keyLate = true) ∧ wayOpen S Requester.mp pgKiln 3840 ∧ S.factory = true
      ∧ S.flag pgKiln KILN.FUSE_STAT_BUSY = false ∧ S.solStat S.solSel % 4 ≠ 3 ∧ S.inReset = false ∧ S.kiln.fuseCmd = none) ∧
    At (fac [(pgKiln, KILN.KILN_BOOT_KEY_STEP, 2)]) (fun s S => wayOpen S Requester.mp pgKiln 360 ∧ s.stampBad Requester.mp
      = false ∧ S.factoryOk = true ∧ S.rd pgKiln KILN.KILN_BOOT_KEY_STEP = 2 ∧ S.keyLate = false) ∧
    At (fac [(pgKiln, KILN.KILN_BOOT_KEY_STEP, 1)]) (fun s S => wayOpen S Requester.mp pgKiln 352 ∧ s.stampBad Requester.mp
      = false ∧ S.factoryOk = true ∧ S.rd pgKiln KILN.KILN_BOOT_KEY_STEP = 1 ∧ 3030 = S.keyB ∧ S.keyLate = false) ∧
    On (fac [(pgSeg, SEG.SEG_STAT_FACTORY, 1), (pgKiln, ⟨KILN.FUSE_DATA.off, 31, 0⟩, 6)] (fun s =>
      { s with kiln := { s.kiln with fuseCmd := some (1, 5) } })) (fun S => S.inReset = false ∧ S.kiln.fuseCmd = some (1,
      5)) := by
  and_intros <;> decide +kernel

end Collect

namespace KilnRuns

def ev (c : Byte) : EvRec := ⟨c, 0x123, false⟩
def quiet (s : Seg) : Seg := (s.setCfgOf 0x40 1).setCfgOf 0x100 1
def evS (c : Byte) (l : List (Nat × Field × Nat)) (f := fun s : Seg => s) :=
  mkR ([(pgColl, COLL.COLL_STAT_RUNNING, 1)] ++ l) fun s => quiet (f (s.setPulse 0x40 { phase := 1, flight := some (ev c) }))
def sv (f : Src → Src) (l : List (Nat × Field × Nat) := []) := mkR l fun s => quiet ((s.setSevere 0x40 true).modSrc 0x40 f)

theorem test_meets_CollectorEvents :
    On (evS 0x84 [(pgColl, COLL.INJ_CTRL_KIND, 2)]) (fun S => srcOk 64 = true ∧ S.inReset = false ∧ (S.pulse 64).phase = 1 ∧
      (S.pulse 64).flight = some (ev 132) ∧ (S.pulse 64).lost ≤ (S.pulse 64).prev ∧ S.ctl.halted = false ∧ S.flag pgColl
      COLL.COLL_STAT_RUNNING = true ∧ S.collBad 64 = none ∧ S.soak = false ∧ S.causeKind 64 (ev 132).cause = 2 ∧
      S.isSaggared (S.sagUnit 64 (ev 132).cause (ev 132).synd) = false ∧ S.kilnIsolates 64 = false ∧ cfgReact (S.cfgOf 64) =
      0 ∧ (S.src 64).severe = false ∧ cfgN (S.cfgOf 64) = 1) ∧
    On (evS 0x84 [(pgColl, COLL.INJ_CTRL_KIND, 2)] (fun s =>
      { s with regs := SMap.put 0 s.regs (1024*0+ SEG.SEG_STAT_SOAK.off / 4) 0xFFFFFFFF })) (fun S => srcOk 64 = true ∧
      S.inReset = false ∧ (S.pulse 64).phase = 1 ∧ (S.pulse 64).flight = some (ev 132) ∧ (S.pulse 64).lost ≤ (S.pulse
      64).prev ∧ S.ctl.halted = false ∧ S.flag pgColl COLL.COLL_STAT_RUNNING = true ∧ S.collBad 64 = none ∧ S.soak = true) := by
  and_intros <;> decide +kernel

theorem test_meets_CollectorClearsAndCommands :
    At (sv id [(pgSeg, SEG.SEG_CTRL_MODE, 0)]) (fun s S => srcOk 64 = true ∧ wayOpen S Requester.mp pgColl 280 ∧ s.stampBad
      Requester.mp = false ∧ (S.src 64).severe = true ∧ (S.src 64).active = false ∧ S.collBad 64 = none ∧ ¬((S.src
      64).faulted = true ∧ (S.now - (S.src 64).lastFault).toNat < S.units4096 (cfgW (S.cfgOf 64))) ∧ cfgReact (S.cfgOf 64) =
      0 ∧ S.inReset = false ∧ S.soak = false ∧ S.mode = 0 ∧ (S.collMismatch = none ∧ S.ctl.bulk = none ∨ S.ctl.halted =
      true) ∧ 256 = srcBank 0 ∧ S.saggared (pgBank 0) = false ∧ S.collBad (srcBank 0) = none ∧ S.ctl.restore = none ∧
      wayOpen S Requester.mp pgColl 320 ∧ S.ctl.bulk = none) ∧
    On ({ chkBase with s0 := { (sv id [(pgSeg, SEG.SEG_CTRL_MODE, 1)]).s0 with bisque := 0x7fffffff } }) (fun S => srcOk 64
      = true ∧ S.inReset = false ∧ S.soak = false ∧ S.mode ≠ 0 ∧ (S.src 64).severe = true ∧ (S.src 64).active = false ∧
      S.quietOver 64 = true ∧ S.mismatched pgColl 336 = false ∧ S.collBad 64 = none ∧ S.ctl.halted = false ∧ cfgReact
      (S.cfgOf 64) = 0) ∧
    At (mkR [(pgBank 0, PAGE.PAGE_STAT_SAGGARED, 1)] (fun s => quiet (s.modSrc 0x100 fun x => { x with kilnPass := true })))
      (fun s S => 256 = srcBank 0 ∧ wayOpen S Requester.mp pgColl 280 ∧ s.stampBad Requester.mp = false ∧ S.saggared (pgBank
      0) = true ∧ (S.src (srcBank 0)).kilnPass = true ∧ (S.src (srcBank 0)).active = false ∧ S.kiln.run = none ∧ S.collBad
      (srcBank 0) = none ∧ cfgReact (S.cfgOf (srcBank 0)) = 0) := by
  and_intros <;> decide +kernel

theorem test_meets_KilnRuns :
    At (mkR [(pgKiln, KILN.KILN_STAT_BUSY, 1)] (fun s =>
      { s with kiln := { s.kiln with run := some (1, false, 0x100, 0, true) } })) (fun s S => wayOpen S Requester.mp pgKiln
      256 ∧ s.stampBad Requester.mp = false ∧ S.flag pgKiln KILN.KILN_STAT_BUSY = true ∧ S.inReset = false ∧ S.kiln.run =
      some (1, false, srcBank 0, 0, true)) := by
  and_intros <;> decide +kernel

end KilnRuns

namespace Supplies


theorem test_meets_ResetsOfASegment :
    On (mk0 fun s => { s with pins := { s.pins with poresetN := false } }) (fun S => S.kiln.fuseCmd = none ∧ S.pins.poresetN
      = false) ∧
    On (mk0 fun s =>
      { s with pins := { s.pins with segResetN := false }, kiln := { s.kiln with loading := false }, held := [(8, 0x8001)] })
      (fun S => S.pins.segResetN = false ∧ S.pins.poresetN = true ∧ S.kiln.loading = false) := by
  and_intros <;> decide +kernel

theorem test_meets_FusesAndSupplies :
    On (mkR [(pgColl, COLL.COLL_STAT_RUNNING, 1)]) (fun S => S.inReset = false ∧ S.kiln.loading = true ∧ (∀ (e : Nat ×
      Word), e ∈ S.fuses → ¬(576 ≤ e.fst ∧ e.fst ≤ 611 ∧ evenOnes 32 (BitVec.toNat e.snd) = false)) ∧ S.flag pgColl
      COLL.COLL_STAT_RUNNING = true ∧ S.soak = false ∧ S.anySevere = false ∧ S.ctl.halted = false ∧ S.kiln.fuseCmd = none ∧
      S.rd pgPwr PWR.PWR_SEG_STAT_PHASE = 0 ∧ S.ctl.tileCmd = none ∧ S.kiln.run = none ∧ S.ctl.lowPower = false) ∧
    On (mk0 fun s => (s.setStBank 0 2).wr (pgBank 0) BANK.BANK_OWN_MODE 2) (fun S => 256 = srcBank 0 ∧ S.inReset = false ∧
      S.rd pgPwr PWR.PWR_SEG_STAT_PHASE = 0 ∧ S.ctl.tileCmd = none ∧ S.kiln.run = none ∧ S.ctl.halted = false ∧
      S.ctl.lowPower = false ∧ (S.stBank 0 = 2 ∨ S.stBank 0 = 3) ∧ S.flag (pgBank 0) PAGE.PAGE_STAT_RETENTION_LOST = false ∧
      S.rd (pgBank 0) BANK.BANK_OWN_MODE ≠ 1) ∧
    On (mkR [(pgColl, COLL.COLL_STAT_RUNNING, 1), (pgColl, COLL.COLL_STAT_ANY_SEVERE, 1)]) (fun S => S.inReset = false ∧
      (S.soak = true ∨ S.anySevere = true ∨ S.ctl.halted = true)) := by
  and_intros <;> decide +kernel

end Supplies

namespace ClocksBays

def by_ (st : Nat) (l : List (Nat × Field × Nat) := []) (f := fun s : Seg => s) :=
  mkR ([(pgBay 0, BAY.BAY_STAT_STATE, st)] ++ l) f
def idb (s : Seg) : Seg := { s.setBay 0 { idBusy := true } with pins := { s.pins with i2cSel := some 0 } }
def rec0 : BitVec 2048 := BitVec.ofNat 2048 (0x4D56524B + 2 ^ 32 + 9 * 2 ^ 320 + 0x2c59c3d0 * 2 ^ 2016)
/-- The CRC register after the bytes `a` to `a + n - 1` of the record. -/
def crcOf (a n c : Nat) : Nat :=
  ((List.range' a n).flatMap (fun i => (byteBits (recByte rec0 i)).reverse)).foldl (fun a b => crcBit 32 0x1EDC6F41 a b) c
theorem crcOf_add (a m n c : Nat) : crcOf a (m + n) c = crcOf (a + m) n (crcOf a m c) := by
  simp [crcOf, ← List.range'_append_1, List.flatMap_append, List.foldl_append]
theorem crcOf_rec0 : crcOf 0 252 0xFFFFFFFF = 4097598923 := by
  have h1 : crcOf 0 36 4294967295 = 1318985452 := by decide +kernel
  have h2 : crcOf 36 36 1318985452 = 2663818016 := by decide +kernel
  have h3 : crcOf 72 36 2663818016 = 725990925 := by decide +kernel
  have h4 : crcOf 108 36 725990925 = 4185832497 := by decide +kernel
  have h5 : crcOf 144 36 4185832497 = 4042899874 := by decide +kernel
  have h6 : crcOf 180 36 4042899874 = 4130348745 := by decide +kernel
  have h7 : crcOf 216 36 4130348745 = 4097598923 := by decide +kernel
  have e : 252 = 36 + (36 + (36 + (36 + (36 + (36 + 36))))) := rfl
  rw [e, crcOf_add, h1, crcOf_add, h2, crcOf_add, h3, crcOf_add, h4, crcOf_add, h5, crcOf_add, h6, h7]
/-- A sound identity record (R487, R493). -/
theorem test_rec0_sound : recordCode rec0 = 0 := by
  have h : crc32c ((List.range 252).map (recByte rec0)) = slice rec0.toNat 2016 32 := by
    have h2 := crcOf_rec0
    unfold crcOf at h2
    rw [crc32c, List.flatMap_map, List.range_eq_range', h2]; decide +kernel
  unfold recordCode
  rw [if_neg (by decide +kernel), if_neg (by decide +kernel), if_neg (by rw [h]; exact fun x => x rfl)]

theorem test_meets_CodesTemperatureAndVack :
    On (mk0 fun s => { s with dcoLost := [(0, true)] }) (fun S => S.inReset = false ∧ (2 ≤ S.stTile 0 ∨ SMap.get false
      S.dcoLost 0 = true ∨ S.mismatched pgClk 272 = true) ∧ S.rd pgClk (CLK.CLK_TILE_STATE.at 0) ≠ 2 ∧ (2 ≤ S.stTile 0 ∨
      SMap.get false S.dcoLost 0 = true) ∧ SMap.get false S.dcoLost 0 = true ∧ S.ctl.tileCmd = none ∧ (∀ (u : Fin 144),
      quadOf ↑u = 0 → S.rampOf ↑u = 0) ∧ S.flag pgClk (CLK.CLK_V_VACK.at 0) = false ∧ S.vreq 0 ≠ 63 ∧ S.ctl.vlow.getLsbD 0 =
      false ∧ (S.pulse 7).phase = 0) ∧
    On (mkR [(pgClk, CLK.CLK_V_VREQ.at 0, 63)]) (fun S => S.inReset = false ∧ S.stTile 0 < 2 ∧ SMap.get false S.dcoLost 0 =
      false ∧ (S.flag pgClk (CLK.CLK_V_VACK.at 0) = true ∨ S.vreq 0 = 63 ∨ S.ctl.vlow.getLsbD 0 = true)) ∧
    On (mkR [(pgClk, CLK.CLK_TILE_STATE.at 0, 1)]) (fun S => S.inReset = false ∧ S.stTile 0 < 2 ∧ SMap.get false S.dcoLost 0
      = false ∧ S.mismatched pgClk 272 = false ∧ S.c1Tile 0 = false ∧ S.effCode 0 ≠ S.rd pgClk (CLK.CLK_TILE_CUR.at 0) ∧
      S.rd pgClk (CLK.CLK_TILE_STATE.at 0) = 1 ∧ S.vreq (quadOf 0) ≠ 63 ∧ (S.setRamp 0 (S.effCode 0)).vreqNeed (quadOf 0) ≤
      S.vreq (quadOf 0) ∧ S.vwaits (quadOf 0) = false) ∧
    On (mkR [(pgClk, CLK.CLK_TILE_STATE.at 0, 1)] (fun s => (s.setRamp 0 20).setVwait 0 true)) (fun S => S.inReset = false ∧
      S.ctl.tileCmd = none ∧ quadOf 0 = 0 ∧ S.rampOf 0 ≠ 0 ∧ S.c1Tile 0 = false ∧ S.rd pgClk (CLK.CLK_TILE_STATE.at 0) = 1 ∧
      (∀ (u : Fin 144), u ≠ 0 → quadOf ↑u = 0 → S.rampOf ↑u = 0)) ∧
    On (mkR [(pgClk, CLK.CLK_TILE_STATE.at 0, 2), (pgRt 0, ROUTER.C1_STAT_C1_TILE, 1)] (fun s => s.setRamp 0 20)) (fun S =>
      S.inReset = false ∧ S.rd pgClk (CLK.CLK_TILE_STATE.at 0) = 2 ∧ S.c1Tile 0 = true ∧ SMap.get false S.ctl.rampC1 0 =
      false) := by
  and_intros <;> decide +kernel

theorem test_meets_ClockSwitchAndTimeBase :
    At (mkR [(pgClk, CLK.CLK_SW_SWITCH, 1)]) (fun s S => wayOpen S Requester.mp pgClk 260 ∧ s.stampBad Requester.mp = false
      ∧ S.flag pgClk CLK.CLK_SW_SWITCH = true ∧ S.inReset = false ∧ S.switched = false ∧ S.ctl.tickStart = false ∧
      (S.ftbRuns = false ∨ S.stTile 0 = 4) ∧ wayOpen S Requester.mp pgClk (896 + 4 * 0)) ∧
    At (mkR [(pgClk, CLK.CLK_STAT_FTB_RUN, 1)] (fun s => { s with ftb := 64, synced := [(0, true)], tileFtb := [(0, 64)] }))
      (fun s S => wayOpen S Requester.mp pgClk 260 ∧ s.stampBad Requester.mp = false ∧ S.flag pgClk CLK.CLK_SW_SWITCH =
      false ∧ S.switched = false ∧ S.ctl.tickStart = false ∧ S.inReset = false ∧ S.ftbRuns = true ∧ S.stTile 0 ≠ 4 ∧
      SMap.get false S.synced 0 = true ∧ (S.c1Tile 0 = false ∨ S.rampOf 0 = 0) ∧ S.tftb 0 = S.ftb) ∧
    On (mk0 (fun s => s.modCtl fun c => { c with tickStart := true })) (fun S => S.inReset = false ∧ S.ctl.tickStart = true
      ∧ S.ftbRuns = false) ∧
    On (mkR [(pgClk, CLK.CLK_STAT_FTB_RUN, 1)] (fun s => { s with ftb := 64 })) (fun S => S.inReset = false ∧ S.ftbRuns =
      true ∧ S.stTile 0 ≠ 4 ∧ S.ftb.toNat % 64 = 0 ∧ SMap.get false S.synced 0 = false) := by
  and_intros <;> decide +kernel

theorem test_meets_BayInsertion :
    On (by_ 5) (fun S => S.inReset = false ∧ S.ctl.halted = false ∧ S.bayState 0 ≠ bayEmpty ∧ (S.ctl.halted = true ∨
      S.bayState 0 ≠ bayWait ∨ S.soak = true ∨ S.bayBad 0 = true) ∧ S.bayState 0 = bayRamp) ∧
    On (by_ 3) (fun S => S.inReset = false ∧ S.ctl.halted = false ∧ S.bayState 0 = bayWait ∧ S.soak = false ∧ S.bayBad 0 =
      false) ∧
    On (by_ 1) (fun S => S.inReset = false ∧ S.ctl.halted = false ∧ S.bayState 0 = bayEmpty) ∧
    On (by_ 2) (fun S => S.inReset = false ∧ S.ctl.halted = false ∧ S.bayState 0 = bayDebounce) ∧
    On (by_ 4) (fun S => S.inReset = false ∧ S.ctl.halted = false ∧ S.bayState 0 = bayPrecharge) ∧
    On (by_ 9) (fun S => S.inReset = false ∧ S.ctl.halted = false ∧ S.bayState 0 = bayRetry ∧ S.flag (pgBay 0)
      BAY.BAY_STAT_PRES = false) := by
  and_intros <;> decide +kernel

theorem test_meets_BayPowerOffAndFaults :
    On (by_ 5) (fun S => S.inReset = false ∧ S.ctl.halted = false ∧ 4 ≤ S.bayState 0 ∧ S.bayState 0 < 8 ∧ (false && false) =
      false ∧ S.bayState 0 ≠ baySaggared ∧ (bayPowered (S.bayState 0) = false ∨ (true && true) = true) ∧ S.bayState 0 =
      bayRamp ∧ S.bayState 0 ≤ 8 ∧ (true = true ∨ S.bayState 0 < 4 ∨ 8 < S.bayState 0)) ∧
    At (by_ 0 [(pgBay 0, BAY.BAY_STAT_TIMER, 1)]) (fun s S => S.inReset = false ∧ S.ctl.halted = false ∧ (S.bayState 0 < 2 ∨
      S.bayState 0 = bayWait ∨ S.bayState 0 = bayRetry) ∧ wayOpen S Requester.mp (pgBay 0) 8 ∧ s.stampBad Requester.mp =
      false ∧ S.flag (pgBay 0) PAGE.PAGE_CTRL_ENABLE = false ∧ S.bayState 0 = bayDisabled ∧ S.flag (pgBay 0)
      BAY.BAY_STAT_TIMER = true ∧ S.bayState 0 ≠ bayRetry) ∧
    On (by_ 2) (fun S => S.inReset = false ∧ S.ctl.halted = false ∧ S.bayState 0 = bayDebounce ∧ (S.bayState 0 = bayEmpty ∨
      S.bayState 0 = bayDebounce ∨ S.bayState 0 = bayWait ∨ S.bayState 0 = bayRetry)) ∧
    On (by_ 8) (fun S => S.inReset = false ∧ S.ctl.halted = false ∧ S.bayState 0 = bayBound ∧ (S.bayState 0 = bayIdWait ∨
      S.bayState 0 = bayReady ∨ S.bayState 0 = bayBound)) ∧
    On (by_ 10) (fun S => S.inReset = false ∧ S.ctl.halted = false ∧ S.bayState 0 = baySaggared) ∧
    On (by_ 9 [(pgBay 0, BAY.BAY_STAT_TIMER, 1)]) (fun S => S.inReset = false ∧ S.ctl.halted = false ∧ S.flag (pgBay 0)
      BAY.BAY_STAT_TIMER = true ∧ S.bayState 0 = bayRetry ∧ S.bayBad 0 = false) ∧
    At (by_ 4 [(pgBay 0, PAGE.PAGE_CTRL_ENABLE, 1), (pgBay 0, BAY.BAY_STAT_PRES, 1)]) (fun s S => wayOpen S Requester.mp
      (pgBay 0) 8 ∧ s.stampBad Requester.mp = false ∧ S.flag (pgBay 0) PAGE.PAGE_CTRL_ENABLE = true ∧ 4 ≤ S.bayState 0 ∧
      S.bayState 0 < 8) := by
  and_intros <;> decide +kernel

theorem test_meets_BayIdentityAndBinding :
    At (by_ 6 [] idb) (fun s S => S.inReset = false ∧ S.ctl.halted = false ∧ S.pins.i2cSel = some 0 ∧ S.bayState 0 =
      bayIdWait ∧ S.flag (pgBay 0) BAY.BAY_CFG_AUTO_BIND = false ∧ recordCode 0 ≠ 0 ∧ (S.bay
      0).attempts < 2 ∧ wayOpen S Requester.mp (pgBay 0) 276 ∧ s.stampBad Requester.mp = false ∧ S.bayBad 0 = false ∧
      S.bindCheck 0 ≠ 1 ∧ S.bayState 0 ≠ bayBound ∧ S.bayState 0 ≠ bayReady) ∧
    On (by_ 6) (fun S => S.inReset = false ∧ S.ctl.halted = false ∧ S.bayState 0 = bayIdWait ∧ S.ctl.i2cAsked = [] ∧ (∀ (m :
      Fin 8), (S.bay ↑m).idBusy = false)) ∧
    On (by_ 6 [] (fun s => s.setBay 1 { idBusy := true })) (fun S => S.inReset = false ∧ S.ctl.halted = false ∧ S.bayState 0
      = bayIdWait ∧ (S.bay 0).idBusy = false ∧ S.ctl.i2cAsked.contains 0 = false ∧ (S.bay 1).idBusy = true) ∧
    On (by_ 6 [] (fun s => s.setBay 0 { idBusy := true, attempts := 1 })) (fun S => S.inReset = false ∧ S.ctl.halted = false
      ∧ (S.bay 0).idBusy = true ∧ 0 < (S.bay 0).attempts ∧ S.pins.i2cSel = none) ∧
    On (by_ 6 [] (fun s => (idb s).modBay 0 fun b => { b with attempts := 2 })) (fun S => S.inReset = false ∧ S.ctl.halted =
      false ∧ S.pins.i2cSel = some 0 ∧ (S.bay 0).attempts = 2 ∧ S.bayState 0 = bayIdWait ∧ S.flag (pgBay 0)
      BAY.BAY_STAT_ID_VALID = false) ∧
    At (by_ 8 [(pgNi 0, PAGE.PAGE_CTRL_ENABLE, 1)] (fun s => s.modBay 0 fun b => { b with site := 0 })) (fun s S => wayOpen
      S Requester.mp (pgBay 0) 276 ∧ s.stampBad Requester.mp = false ∧ S.bayState 0 = bayBound ∧ (S.bay 0).site < 288 ∧
      S.flag (pgNi (S.bay 0).site) PAGE.PAGE_CTRL_ENABLE = true) := by
  and_intros <;> decide +kernel

end ClocksBays

namespace Codes

def by_ (st : Nat) (l : List (Nat × Field × Nat) := []) (f := fun s : Seg => s) :=
  mkR ([(pgBay 0, BAY.BAY_STAT_STATE, st), (pgBay 0, BAY.BAY_CFG_SITE, 0)] ++ l) f

theorem test_meets_BayIdentityAndBinding :
    At (by_ 7 [(pgBay 0, BAY.BAY_STAT_ID_VALID, 1)]) (fun s S => wayOpen S Requester.mp (pgBay 0) 276 ∧ s.stampBad
      Requester.mp = false ∧ S.bayBad 0 = false ∧ S.bindCheck 0 = 1 ∧ (S.bayState 0 = bayReady ∨ S.bayState 0 = bayBound) ∧
      S.ctl.i2cAsked = [] ∧ (∀ (m : Fin 8), (S.bay ↑m).idBusy = false)) := by
  and_intros <;> decide +kernel

end Codes

namespace Power

def tile (t v : Nat) (l : List (Nat × Field × Nat) := []) (f := fun s : Seg => s) : State := mkR l fun s => f (s.setStTile t v)
def bk (t v : Nat) (l : List (Nat × Field × Nat) := []) (f := fun s : Seg => s) : State := mkR l fun s => f (s.setStBank t v)
def deep (s : Seg) : Seg := (((s.setWord pgPwr 0x120 0xAAAAAAAA).setWord pgPwr 0x160 0xAAAAAAAA))
def sw (l : List (Nat × Field × Nat) := []) (f := fun s : Seg => s) := mkR ([(pgClk, CLK.CLK_STAT_SWITCHED, 1)] ++ l) f
def t1 : TileCmd := ⟨2, 0, 5, false, 3, 0⟩
def t2 : TileCmd := ⟨2, 0, 13, false, 3, 0⟩
def t3 : TileCmd := ⟨2, 0, 13, false, 4, 0⟩
def tcS (c : TileCmd) : State := mk0 fun s => s.modCtl fun x => { x with tileCmd := some c }
def vot (ph lvl : Nat) (vs : List Nat) (f := fun s : Seg => s) (pr : List Nat := vs) :=
  mkR [(pgPwr, PWR.PWR_SEG_STAT_PHASE, ph), (pgPwr, PWR.PWR_SEG_CMD_LEVEL, lvl)] fun s => f (s.modCtl fun c => { c with voters := vs, prepared := pr })
def bk10 : Nat := 0x10 + 1024 * 7
def allOff (s : Seg) : Seg := (s.setWord pgPwr 0x200 0x44444444).setWord pgPwr 0x250 0x44444444

theorem test_meets_DomainsGoDown :
    On (mk0 deep) (fun S => (Option.all (fun x => x == 0) (tileBank 0) = true) ∧ S.inReset = false ∧ S.stTile 0 = 0 ∧
      S.tileQuiet 0 = true ∧ ¬S.rd pgClk (CLK.CLK_TILE_STATE.at 0) ∈ [2, 3] ∧ 2 ≤ S.tgtTile 1 + 1 ∧ S.stTile 1 < 2 ∧
      S.tileQuiet 1 = true ∧ S.floorHeld 1 = false ∧ tileBank 1 = none ∧ 2 ≤ S.tgtTile 0 + 1 ∧ S.stTile 0 < 2 ∧ S.floorHeld
      0 = false ∧ tileBank 0 = some 0 ∧ S.stBank 0 < 2 ∧ 3 ≤ S.tgtTile 1 + 1 ∧ S.stTile 1 < 3 ∧ 3 ≤ S.tgtTile 0 + 1 ∧
      S.stTile 0 < 3 ∧ S.stBank 0 < 3 ∧ S.stBank 0 = 0 ∧ S.bankQuiet 0 = true ∧ 2 ≤ S.tgtBank 0 + 1 ∧ S.feHeld 0 = false ∧ 3
      ≤ S.tgtBank 0 + 1) ∧
    On (mk0 (fun s => deep (s.wr (pgRt 1) ROUTER.C1_STAT_C1_TILE 1))) (fun S => S.inReset = false ∧ 2 ≤ S.tgtTile 1 + 1 ∧
      S.stTile 1 < 2 ∧ S.tileQuiet 1 = true ∧ S.floorHeld 1 = true ∧ 3 ≤ S.tgtTile 1 + 1 ∧ S.stTile 1 < 3) ∧
    On (mk0 fun s => s.setVcq 0 0 0 0 [{ body := .data 5 }]) (fun S => S.inReset = false ∧ (S.stTile 0 ≠ 0 ∨ S.tileQuiet 0 =
      false)) := by
  and_intros <;> decide +kernel

theorem test_meets_DomainsWake :
    On (tile 0 1) (fun S => S.inReset = false ∧ S.stTile 0 = 1 ∧ (S.stTile 0 ≠ 6 ∨ S.rd pgClk (CLK.CLK_TILE_CUR.at 0) = 0 ∨
      S.vwaits (quadOf 0) = true) ∧ (S.stTile (bankTile 0) = 4 ∨ S.stBank 0 = 0) ∧ (S.stBank 0 ≠ 6 ∨ S.stTile (bankTile 0) ≠
      0) ∧ (S.ni 0).wake = false ∧ S.stTile (0 / 2) = 1) ∧
    On (bk 0 6 [(pgBank 0, BANK.EXP_CFG_CANARY_EN, 1)] (fun s => (s.writeCanaries 0).modBank 0 fun x =>
      { x with restoring := true })) (fun S => S.inReset = false ∧ S.stBank 0 = 6 ∧ S.stTile (bankTile 0) = 0 ∧ (S.bank
      0).restoring = true ∧ S.flag (pgBank 0) BANK.EXP_CFG_CANARY_EN = true ∧ S.canaryFails 0 = none ∧ (S.canaryLost 0
      0).canaryFails 0 = some 0 ∧ (S.ni 0).wake = false ∧ S.stTile (0 / 2) = 0) ∧
    On (tile 0 2) (fun S => S.inReset = false ∧ (S.stTile 0 = 2 ∨ S.stTile 0 = 3 ∨ S.stTile 0 = 5) ∧ (S.ni 0).wake = false ∧
      (S.stTile (0 / 2) = 2 ∨ S.stTile (0 / 2) = 3)) ∧
    On (bk 0 6) (fun S => S.inReset = false ∧ S.stBank 0 = 6 ∧ S.stTile (bankTile 0) = 0 ∧ (S.bank 0).restoring = false) ∧
    On (bk 0 3) (fun S => S.inReset = false ∧ S.stTile (bankTile 0) ≠ 4 ∧ (S.stBank 0 = 2 ∨ S.stBank 0 = 3 ∨ S.stBank 0 =
      5)) ∧
    On (tile 0 4) (fun S => S.inReset = false ∧ (S.ni 0).wake = false ∧ S.stTile (0 / 2) = 4) ∧
    On (tile 0 6 [(pgClk, CLK.CLK_TILE_CUR.at 0, 5)]) (fun S => S.inReset = false ∧ S.stTile 0 = 6 ∧ S.rd pgClk
      (CLK.CLK_TILE_CUR.at 0) ≠ 0 ∧ S.vwaits (quadOf 0) = false) := by
  and_intros <;> decide +kernel

theorem test_meets_TileCommands :
    At (sw) (fun s S => wayOpen S Requester.mp pgPwr 384 ∧ s.stampBad Requester.mp = false ∧ S.powerBusy = false ∧
      (Option.all (fun r => !r.snd.fst) S.kiln.run = true) ∧ S.tileCheck ({ op := 1, first := 0, last := 200, keep := true }
      : TileCmd) = some (7, 1) ∧ ({ op := 1, first := 0, last := 0, keep := true } : TileCmd).op = 1 ∧ S.tileCheck
      ({ op := 1, first := 0, last := 0, keep := true } : TileCmd) = none ∧ S.tileCheck
      ({ op := 1, first := 0, last := 200, keep := false } : TileCmd) = some (7, 1) ∧
      ({ op := 1, first := 0, last := 0, keep := false } : TileCmd).op = 1 ∧ S.tileCheck
      ({ op := 1, first := 0, last := 0, keep := false } : TileCmd) = none ∧ S.tileCheck
      ({ op := 2, first := 0, last := 200, keep := false } : TileCmd) = some (7, 1) ∧
      ({ op := 2, first := 0, last := 0, keep := false } : TileCmd).op = 2 ∧ S.tileCheck
      ({ op := 2, first := 0, last := 0, keep := false } : TileCmd) = none ∧ S.tileCheck
      ({ op := 3, first := 0, last := 200, keep := false } : TileCmd) = some (7, 1) ∧
      ({ op := 3, first := 0, last := 0, keep := false } : TileCmd).op = 3 ∧ S.tileCheck
      ({ op := 3, first := 0, last := 0, keep := false } : TileCmd) = none ∧ S.tileCheck
      ({ op := 4, first := 0, last := 200, keep := false } : TileCmd) = some (7, 1) ∧
      ({ op := 4, first := 0, last := 0, keep := false } : TileCmd).op = 4 ∧ S.tileCheck
      ({ op := 4, first := 0, last := 0, keep := false } : TileCmd) = none ∧ S.inReset = false ∧ S.ctl.tileCmd = none) ∧
    At (sw [(pgPwr, PWR.TILE_STAT_BUSY, 1)]) (fun s S => wayOpen S Requester.mp pgPwr 384 ∧ s.stampBad Requester.mp = false
      ∧ (S.powerBusy = true ∨ Option.any (fun r => r.snd.fst) S.kiln.run = true)) ∧
    On (tcS t2) (fun S => S.inReset = false ∧ S.ctl.tileCmd = some t2 ∧ t2.op = 2 ∧ t2.stage = 3 ∧ (t2.row < t2.last / 12 ∨
      ∃ t, t ∈ cmdRange t2.first t2.last ∧ (((S.each (List.filter (fun t => tileY t == t2.row) (cmdRange t2.first t2.last))
      Seg.tileUp).tileProgress (List.filter (fun t => decide (tileY t ≤ t2.row)) (cmdRange t2.first t2.last)).length
      (cmdRange t2.first t2.last).length).stTile t = 4 ∨ ((S.each (List.filter (fun t => tileY t == t2.row) (cmdRange
      t2.first t2.last)) Seg.tileUp).tileProgress (List.filter (fun t => decide (tileY t ≤ t2.row)) (cmdRange t2.first
      t2.last)).length (cmdRange t2.first t2.last).length).stTile t = 6)) ∧ t2.stage ≠ 4) ∧
    On (tcS t3) (fun S => S.inReset = false ∧ S.ctl.tileCmd = some t3 ∧ t3.stage = 4 ∧ S.ctl.wantMap = false ∧ (∀ (b : Nat),
      (b ∈ if t3.op ≤ 2 then List.filterMap tileBank (cmdRange t3.first t3.last) else cmdRange t3.first t3.last) → (S.bank
      b).zeroing = false ∧ S.stBank b ≠ 6 ∧ (t3.op % 2 = 1 ∨ S.stBank b ≠ 4))) ∧
    On (tcS t1) (fun S => S.inReset = false ∧ S.ctl.tileCmd = some t1 ∧ t1.op = 2 ∧ t1.stage = 3 ∧ t1.last / 12 ≤ t1.row ∧
      (∀ (t : Nat), t ∈ cmdRange t1.first t1.last → ((S.each (List.filter (fun t => tileY t == t1.row) (cmdRange t1.first
      t1.last)) Seg.tileUp).tileProgress (List.filter (fun t => decide (tileY t ≤ t1.row)) (cmdRange t1.first
      t1.last)).length (cmdRange t1.first t1.last).length).stTile t ≠ 4 ∧ ((S.each (List.filter (fun t => tileY t == t1.row)
      (cmdRange t1.first t1.last)) Seg.tileUp).tileProgress (List.filter (fun t => decide (tileY t ≤ t1.row)) (cmdRange
      t1.first t1.last)).length (cmdRange t1.first t1.last).length).stTile t ≠ 6)) := by
  and_intros <;> decide +kernel

theorem test_meets_SegmentEntryCommits :
    At (chkBase) (fun s S => wayOpen S Requester.mp pgPwr 256 ∧ s.stampBad Requester.mp = false ∧ S.powerBusy = false ∧
      (Option.all (fun r => !r.snd.fst) S.kiln.run = true) ∧ S.entryCheck 1 = none ∧ S.entryCheck 2 = none ∧ S.entryCheck 3
      = none) ∧
    At (mkR [(pgPwr, PWR.PWR_SEG_STAT_PHASE, 2)]) (fun s S => wayOpen S Requester.mp pgPwr 256 ∧ s.stampBad Requester.mp =
      false ∧ (S.powerBusy = true ∨ Option.any (fun r => r.snd.fst) S.kiln.run = true)) ∧
    At (mkR [(pgRt 0, ROUTER.C1_STAT_C1_TILE, 1)]) (fun s S => wayOpen S Requester.mp pgPwr 256 ∧ s.stampBad Requester.mp =
      false ∧ S.powerBusy = false ∧ (Option.all (fun r => !r.snd.fst) S.kiln.run = true) ∧ S.entryCheck 1 = some (1, 64) ∧
      S.entryCheck 2 = some (1, 64) ∧ S.entryCheck 3 = some (1, 64)) := by
  and_intros <;> decide +kernel

theorem test_meets_UnitsVoteAndCommit :
    On (vot 2 3 [0x200, 0x100] (fun s => (s.vote 0x200 8).vote 0x100 6)) (fun S => (With ({ src := 512 } : VoteUnit) fun u
      => srcOk ↑u.src = true ∧ (S.voting = false ∨ ¬u.key ∈ S.ctl.voters ∨ u.key ∈ S.ctl.prepared ∨ ∃ v, v ∈ S.ctl.voters ∧
      quiesceRank v < quiesceRank u.key ∧ ¬v ∈ S.ctl.prepared ∧ S.voteOf v ≠ 8) ∧ ↑u.src = srcNi 0 ∧ u.key ∈ S.ctl.voters ∧
      u.key ∈ S.ctl.prepared ∧ (∃ v, v ∈ S.ctl.voters ∧ quiesceRank u.key < quiesceRank v)) ∧ S.inReset = false ∧ S.voting =
      true ∧ ((S.ni 0).hold = false ∨ (S.ni 0).stores ≠ [] ∨ (S.ni 0).wake = true) ∧ S.rd pgPwr PWR.PWR_SEG_STAT_PHASE = 2 ∧
      S.ctl.tileCmd = none ∧ (List.find? (fun x => S.voteOf x != 8 && S.voteOf x != 0) S.ctl.voters = some 256) ∧ 6 =
      S.voteOf 256 ∧ (List.find? (fun x => S.voteOf x != 8) S.ctl.voters = some 256) ∧ (6 = if S.voteOf 256 = 0 then 7 else
      S.voteOf 256) ∧ (With ({ src := 256 } : VoteUnit) fun u => srcOk ↑u.src = true ∧ ↑u.src < 512 ∧ u.key ∈ S.ctl.voters ∧
      u.key ∈ S.ctl.prepared) ∧ (With ({ src := 64 } : VoteUnit) fun u => srcOk ↑u.src = true ∧ (S.voting = false ∨ ¬u.key ∈
      S.ctl.voters ∨ ¬u.key ∈ S.ctl.prepared))) ∧
    On (vot 3 2 [bk10]) (fun S => (With ({ src := 512 } : VoteUnit) fun u => srcOk ↑u.src = true) ∧ S.inReset = false ∧
      S.voting = false ∧ S.rd pgPwr PWR.PWR_SEG_STAT_PHASE = 3 ∧ (With ({ src := 16, bundle := 3, rx := true } : VoteUnit)
      fun u => srcOk ↑u.src = true ∧ S.ctl.voters = [u.key])) ∧
    On (vot 2 1 []) (fun S => (With ({ src := 512 } : VoteUnit) fun u => srcOk ↑u.src = true) ∧ S.inReset = false ∧ S.rd
      pgPwr PWR.PWR_SEG_STAT_PHASE = 2 ∧ S.ctl.tileCmd = none ∧ S.ctl.voters = []) ∧
    On (vot 4 1 [0x200]) (fun S => (With ({ src := 512 } : VoteUnit) fun u => srcOk ↑u.src = true ∧ u.key ∈ S.ctl.voters ∧
      (∀ (v : Nat), v ∈ S.ctl.voters → quiesceRank v ≤ quiesceRank u.key) ∧ S.ctl.voters = [u.key]) ∧ S.inReset = false ∧
      S.rd pgPwr PWR.PWR_SEG_STAT_PHASE ≠ 3 ∧ S.voting = false) ∧
    On (vot 3 2 [bk10, 0x200]) (fun S => (With ({ src := 512 } : VoteUnit) fun u => srcOk ↑u.src = true ∧ u.key ∈
      S.ctl.voters ∧ S.ctl.voters ≠ [u.key]) ∧ S.inReset = false ∧ S.rd pgPwr PWR.PWR_SEG_STAT_PHASE = 3) ∧
    On (vot 0 2 [0x100, bk10]) (fun S => (With ({ src := 16, bundle := 3, rx := true } : VoteUnit) fun u => srcOk ↑u.src =
      true ∧ u.key ∈ S.ctl.voters ∧ (∀ (v : Nat), v ∈ S.ctl.voters → quiesceRank v ≤ quiesceRank u.key) ∧ S.ctl.voters ≠
      [u.key]) ∧ S.inReset = false ∧ S.rd pgPwr PWR.PWR_SEG_STAT_PHASE ≠ 3 ∧ S.voting = false) ∧
    On (vot 2 1 [0x200, 0x100] id []) (fun S => (With ({ src := 512 } : VoteUnit) fun u => srcOk ↑u.src = true ∧ ↑u.src =
      srcNi 0 ∧ u.key ∈ S.ctl.voters ∧ ¬u.key ∈ S.ctl.prepared ∧ (∀ (v : Nat), v ∈ S.ctl.voters → quiesceRank v <
      quiesceRank u.key → v ∈ S.ctl.prepared ∨ S.voteOf v = 8)) ∧ S.inReset = false ∧ S.voting = true) ∧
    On (vot 2 2 [0x200, bk10] id [0x200]) (fun S => (With ({ src := 16, bundle := 3, rx := true } : VoteUnit) fun u => srcOk
      ↑u.src = true ∧ ↑u.src < 512 ∧ u.key ∈ S.ctl.voters ∧ ¬u.key ∈ S.ctl.prepared ∧ (∀ (v : Nat), v ∈ S.ctl.voters →
      quiesceRank v < quiesceRank u.key → v ∈ S.ctl.prepared ∨ S.voteOf v = 8)) ∧ S.inReset = false ∧ S.voting = true) ∧
    On (vot 2 1 [0x200, 0x100] (fun s => (s.vote 0x200 8).vote 0x100 8)) (fun S => (With ({ src := 512 } : VoteUnit) fun u
      => srcOk ↑u.src = true) ∧ S.inReset = false ∧ S.rd pgPwr PWR.PWR_SEG_STAT_PHASE = 2 ∧ S.ctl.tileCmd = none ∧
      S.ctl.voters ≠ [] ∧ (∀ (x : Nat), x ∈ S.ctl.voters → S.voteOf x = 8)) ∧
    On (vot 2 1 [0x200] (fun s => s.modNi 0 fun x => { x with wake := true })) (fun S => (With ({ src := 512 } : VoteUnit)
      fun u => srcOk ↑u.src = true) ∧ S.inReset = false ∧ S.voting = true ∧ srcNi 0 ∈ S.ctl.voters ∧ srcNi 0 ∈
      S.ctl.prepared ∧ (S.ni 0).voted = false ∧ ((S.ni 0).stores ≠ [] ∨ (S.ni 0).wake = true)) ∧
    On (vot 2 1 [0x200, 0x100] (fun s => s.modNi 0 fun x => { x with hold := true })) (fun S => (With ({ src := 512 } :
      VoteUnit) fun u => srcOk ↑u.src = true ∧ ↑u.src = srcNi 0 ∧ u.key ∈ S.ctl.voters ∧ u.key ∈ S.ctl.prepared) ∧ S.inReset
      = false ∧ S.voting = true ∧ (S.ni 0).hold = true ∧ (S.ni 0).stores = [] ∧ (S.ni 0).wake = false) := by
  and_intros <;> decide +kernel

theorem test_meets_RegulatorCapAndResidency :
    On (mk0 (fun s => s.modCtl fun c => { c with lowPower := true })) (fun S => S.inReset = false ∧ (S.ctl.halt = false ∨
      S.rd pgPwr PWR.PWR_SEG_STAT_LEVEL ≠ 3) ∧ S.ctl.lowPower = true ∧ ((List.filter (fun t => S.stTile t != 4) (List.range
      144), List.filter (fun b => S.stBank b != 4) (List.range 72)) ≠ ([], [])) ∧ S.ctl.halted = false ∧ S.flag pgPwr
      PWR.PWR_CAP_CAP_EN = false) ∧
    On (mkR [(pgPwr, PWR.PWR_SEG_STAT_LEVEL, 3)] (fun s => (allOff s).modCtl fun c => { c with halt := true })) (fun S =>
      S.inReset = false ∧ S.ctl.halt = true ∧ S.ctl.halted = false ∧ S.rd pgPwr PWR.PWR_SEG_STAT_LEVEL = 3 ∧ (∀ (t : Fin
      144), S.stTile ↑t = 4) ∧ (∀ (b : Fin 72), S.stBank ↑b = 4) ∧ (∀ (b : Fin 2) (n : Fin 24), S.bunTx ↑b ↑n ∈ [0, 4, 5] ∧
      S.bunRx ↑b ↑n ∈ [0, 4, 5]) ∧ (∀ (n : Fin 8), ¬S.bayState ↑n ∈ [2, 3, 4, 5, 6, 9]) ∧ ((List.filter (fun t => S.stTile t
      != 4) (List.range 144), List.filter (fun b => S.stBank b != 4) (List.range 72)) = ([], []))) ∧
    On (mkR [(pgPwr, PWR.PWR_CAP_CAP_EN, 1)]) (fun S => S.inReset = false ∧ S.ctl.halted = false ∧ S.flag pgPwr
      PWR.PWR_CAP_CAP_EN = true ∧ S.mismatched pgPwr 272 = false) ∧
    On (mk0 (fun s => s.modCtl fun c => { c with halted := true })) (fun S => S.inReset = false ∧ S.ctl.halted = true) := by
  and_intros <;> decide +kernel

end Power

namespace Agents

def up (x : Ni → Ni := id) (l : List (Nat × Field × Nat) := []) (f := fun s : Seg => s) : State :=
  mkR ([(pgNi 0, PAGE.PAGE_CTRL_ENABLE, 1)] ++ l) fun s => f (s.setNi 0 (x { clk := true, arstN := true, up := true }))
def bnd : BitVec 128 := 1 ||| (0x201 <<< 12) ||| (0xFE)
def hd (ty : BitVec 4) (len : BitVec 10) : Hdr := { dest := 1, type := ty, len := len, tag := 7 }
def beat (h : Hdr) : BitVec 1024 := h.toBits.zeroExtend 1024
/-- a parity with which a beat passes -/
def par16 (v : BitVec 1024) : BitVec 16 :=
  BitVec.ofNat 16 ((List.range 16).foldl (fun a i => if ones 64 (v.toNat / 2 ^ (64 * i)) % 2 = 0 then a else a + 2 ^ i) 0)
def b1 (x : Ni) : Ni := { x with bind := [(1, bnd)] }
def regacc : List Flit :=
  [{ body := .mgtHead ({ dest := 0x3F0, src := 5, type := tRegacc, tag := 9 : MgtHdr }.glaze), tail := false }, { body := .mgtData (BitVec.ofNat 64 (2 ^ 33 + 0x2014)), tail := true }]
def regaccW (pair : Bool) : List Flit :=
  [{ body := .mgtHead ({ dest := 0x3F0, src := 5, type := tRegacc, tag := 9 : MgtHdr }.glaze), tail := false }, { body := .mgtData (BitVec.ofNat 64 (2 ^ 34 + 2 ^ 33 + (if pair then 2 ^ 35 else 0) + 0x14)), tail := false }, { body := .mgtData 0xFFFFFFFF, tail := true }]
def rg (f : List Flit) := mk0 fun s => s.modEp 0x3F0 fun e => { e with asm := [(200, f)] }
def w0 : Way := { idx := 5, dirty := true, tc := 8 }

theorem test_meets_RequestDescriptors :
    On (up b1) (fun S => S.inReset = false ∧ (S.ni 0).up = true ∧ (S.ni 0).resetting = false ∧ S.niDraining 0 = false ∧
      (Hdr.ofBits (BitVec.truncate 256 (beat (hd tWrite 128)))).type.toNat < 10 ∧ ¬(Hdr.ofBits (BitVec.truncate 256 (beat
      (hd tWrite 128)))).type ∈ [tFence, tStcond, tCpl] ∧ S.lookupCode 0 (Hdr.ofBits (BitVec.truncate 256 (beat (hd tWrite
      128)))) = cOk ∧ 0 < wdBeats (Hdr.ofBits (BitVec.truncate 256 (beat (hd tWrite 128)))).type (Hdr.ofBits
      (BitVec.truncate 256 (beat (hd tWrite 128)))).len.toNat ∧ (S.ni 0).wd = [] ∧ (With (beat { type := tFence, tag := 3 }
      : BitVec 1024) fun data => With (par16 (beat { type := tFence, tag := 3 }) : BitVec 16) fun par => parityOk 16
      data.toNat par.toNat = true) ∧ (With (beat { type := tFence, tag := 3 } : BitVec 1024) fun data => (Hdr.ofBits
      (BitVec.truncate 256 data)).type = tFence ∧ wdBeats (Hdr.ofBits (BitVec.truncate 256 data)).type (Hdr.ofBits
      (BitVec.truncate 256 data)).len.toNat = 0) ∧ (With (par16 (beat (hd tWrite 128)) : BitVec 16) fun par => parityOk 16
      (beat (hd tWrite 128)).toNat par.toNat = true) ∧ (With (beat ({ hd tRead 16 with dest := 2 }) : BitVec 1024) fun data
      => With (par16 (beat { type := tFence, tag := 3 }) : BitVec 16) fun par => parityOk 16 data.toNat par.toNat = true) ∧
      (With (beat ({ hd tRead 16 with dest := 2 }) : BitVec 1024) fun data => (Hdr.ofBits (BitVec.truncate 256
      data)).type.toNat < 10 ∧ ¬(Hdr.ofBits (BitVec.truncate 256 data)).type ∈ [tFence, tStcond, tCpl] ∧ S.lookupCode 0
      (Hdr.ofBits (BitVec.truncate 256 data)) ≠ cOk ∧ wdBeats (Hdr.ofBits (BitVec.truncate 256 data)).type (Hdr.ofBits
      (BitVec.truncate 256 data)).len.toNat = 0) ∧ (With (beat { type := tFence, tag := 3 } : BitVec 1024) fun data => With
      (par16 (beat (hd tWrite 128)) : BitVec 16) fun par => ¬parityOk 16 data.toNat par.toNat = true)) ∧
    On (chkBase) (fun S => S.inReset = false ∧ (With (beat { type := tFence, tag := 3 } : BitVec 1024) fun data => ((S.ni
      0).up = false ∨ (S.ni 0).resetting = true ∨ S.niDraining 0 = true ∧ (Hdr.ofBits (BitVec.truncate 256 data)).type ≠
      tCpl))) := by
  and_intros <;> decide +kernel

theorem test_meets_InputBeats :
    On (up b1) (fun S => S.inReset = false ∧ (S.ni 0).up = true ∧ (S.ni 0).resetting = false ∧ S.niDraining 0 = false ∧ (∀
      (b : DataFlit × Bool), b ∈ (S.ni 0).wd → b.snd = false) ∧ (S.ni 0).sr = [] ∧ ((S.ni 0).mgIn ≠ [] ∨ (S.ni 0).regacc =
      none) ∧ (S.niRuns 0 = false ∨ ∀ (e : Entry), e ∈ (S.ni 0).store → e.phase ≠ Phase.data) ∧ (With (BitVec.truncate 256
      (beat (hd tSnoop 16)) : BitVec 256) fun data => (!parityOk 4 data.toNat (1#4).toNat) = false ∧ ((Hdr.ofBits data).type
      = tSnoop ∨ (Hdr.ofBits data).type = tBackInval) ∧ S.lookupCode 0 (Hdr.ofBits data) = cOk)) ∧
    On (up (fun x => { x with store := [{ id := 4, hdr := hd tCpl 128, answer := true, need := 1, phase := .data }] })) (fun
      S => S.inReset = false ∧ (S.ni 0).up = true ∧ (S.ni 0).resetting = false ∧ S.niDraining 0 = false ∧ (S.ni 0).wd = [] ∧
      S.niRuns 0 = true ∧ (∃ e, e ∈ (S.ni 0).store ∧ e.phase = Phase.data) ∧ (With (beat { type := tFence, tag := 3 } :
      BitVec 1024) fun data => With (par16 (beat { type := tFence, tag := 3 }) : BitVec 16) fun par => (!parityOk 16
      data.toNat par.toNat) = false) ∧ (With (({ id := 4, hdr := hd tCpl 128, answer := true, need := 1, phase := .data } :
      Entry) : Entry) fun e => (List.find? (fun e => e.phase == Phase.data) (S.ni 0).store = some e) ∧ e.answer = true ∧
      e.dead = false ∧ e.need = 1)) ∧
    On (up (fun x => { x with regacc := some 3 })) (fun S => S.inReset = false ∧ (S.ni 0).mgIn = [] ∧ (S.ni 0).regacc.isSome
      = true ∧ (With (({ dest := 0x3F0, src := 0, type := tRegacc, tag := 9 : MgtHdr }.toBits) : BitVec 64) fun data =>
      (MgtHdr.ofBits data 0).type = tRegacc)) ∧
    On (up (fun x => { x with mgIn := [({ dest := 0x3F0, src := 0, type := tRegacc, tag := 9 : MgtHdr }.toBits, false)] }))
      (fun S => S.inReset = false ∧ (S.ni 0).up = true ∧ (S.ni 0).resetting = false ∧ (With
      (({ dest := 0x3F0, src := 0, type := tRegacc, tag := 9 : MgtHdr }.toBits) : BitVec 64) fun data => (!parityOk 1
      data.toNat (b2n false)) = false) ∧ (With (({ dest := 0x3F0, src := 0, type := tRegacc, tag := 9 : MgtHdr }.toBits) :
      BitVec 64) fun first => (S.ni 0).mgIn = [(first, false)] ∧
      ({ MgtHdr.ofBits first (S.siteDom 0) with src := S.eid 0, epoch := (S.ni 0).epoch, domBad := S.mismatched pgTen (256 + 8 * (0 / 4)), fab := false }).type
      = tRegacc ∧ S.mgtDestOk 0
      ({ MgtHdr.ofBits first (S.siteDom 0) with src := S.eid 0, epoch := (S.ni 0).epoch, domBad := S.mismatched pgTen (256 + 8 * (0 / 4)), fab := false }).dest
      = true)) := by
  and_intros <;> decide +kernel

theorem test_meets_AgentTakesBeats :
    On (chkBase) (fun S => S.inReset = false ∧ ((S.ni 0).up = false ∨ (S.ni 0).rs = []) ∧ ((S.ni 0).up = false ∨ (S.ni 0).sn
      = []) ∧ ((S.ni 0).up = false ∨ (S.ni 0).mgOut = [])) ∧
    On (up (fun x => { x with sn := [{ bits := 5 }] })) (fun S => S.inReset = false ∧ (S.ni 0).up = true ∧ (S.ni 0).wait =
      [] ∧ (With ({ bits := 5 } : Beat) fun b => (S.ni 0).sn = [b] ∧ b.deliv = none ∧ b.fence = false)) ∧
    On (up (fun x => { x with mgOut := [{ bits := 5 }] })) (fun S => S.inReset = false ∧ (S.ni 0).up = true ∧ (With
      ({ bits := 5 } : MgBeat) fun w => (S.ni 0).mgOut = [w])) ∧
    On (up (fun x => { x with rs := [{ bits := 5, ld := true }] })) (fun S => S.inReset = false ∧ (S.ni 0).up = true ∧ (S.ni
      0).wait = [] ∧ (With ({ bits := 5, ld := true } : Beat) fun b => (S.ni 0).rs = [b] ∧ b.deliv = none ∧ b.fence =
      false)) ∧
    On (up (fun x => { x with rs := [{ bits := 5, fence := true }] })) (fun S => S.inReset = false ∧ (S.ni 0).up = true ∧
      (S.ni 0).wait = [] ∧ (With ({ bits := 5, fence := true } : Beat) fun b => (S.ni 0).rs = [b] ∧ b.deliv = none ∧ b.fence
      = true ∧ b.ld = false)) ∧
    On (up (fun x => { x with sn := [{ bits := 5, fence := true }] })) (fun S => S.inReset = false ∧ (S.ni 0).up = true ∧
      (S.ni 0).wait = [] ∧ (With ({ bits := 5, fence := true } : Beat) fun b => (S.ni 0).sn = [b] ∧ b.deliv = none ∧ b.fence
      = true ∧ b.ld = false)) ∧
    On (up (fun x => { x with rs := [{ bits := 5, deliv := some (0x201, 1, 4) }] })) (fun S => S.inReset = false ∧ (S.ni
      0).up = true ∧ (S.ni 0).wait = [] ∧ ((S.ep 0).recvOf 513 1).ahead = [] ∧ 4 ≠ ((S.ep 0).recvOf 513 1).del + 1 ∧ ((S.ep
      0).recvOf 513 1).owed < S.ackEvery 0 ∧ (With ({ bits := 5, deliv := some (0x201, 1, 4) } : Beat) fun b => (S.ni 0).rs
      = [b] ∧ b.deliv = some (513, 1, 4) ∧ b.old = false ∧ b.fence = false ∧ b.ld = false)) ∧
    On (up (fun x => { x with sn := [{ bits := 5, deliv := some (0x201, 1, 4) }] })) (fun S => S.inReset = false ∧ (S.ni
      0).up = true ∧ (S.ni 0).wait = [] ∧ ((S.ep 0).recvOf 513 1).ahead = [] ∧ 4 ≠ ((S.ep 0).recvOf 513 1).del + 1 ∧ ((S.ep
      0).recvOf 513 1).owed < S.ackEvery 0 ∧ (With ({ bits := 5, deliv := some (0x201, 1, 4) } : Beat) fun b => (S.ni 0).sn
      = [b] ∧ b.deliv = some (513, 1, 4) ∧ b.old = false ∧ b.fence = false ∧ b.ld = false)) ∧
    On (up (fun x => { x with rs := [{ bits := 5, deliv := some (0x201, 1, 0) }] })) (fun S => S.inReset = false ∧ (S.ni
      0).up = true ∧ (S.ni 0).wait = [] ∧ ((S.ep 0).recvOf 513 1).ahead = [] ∧ 0 = ((S.ep 0).recvOf 513 1).del + 1 ∧ ((S.ep
      0).recvOf 513 1).owed + 1 < S.ackEvery 0 ∧ (With ({ bits := 5, deliv := some (0x201, 1, 0) } : Beat) fun b => (S.ni
      0).rs = [b] ∧ b.deliv = some (513, 1, 0) ∧ b.old = false ∧ b.fence = false ∧ b.ld = false)) ∧
    On (up (fun x => { x with sn := [{ bits := 5, deliv := some (0x201, 1, 0) }] })) (fun S => S.inReset = false ∧ (S.ni
      0).up = true ∧ (S.ni 0).wait = [] ∧ ((S.ep 0).recvOf 513 1).ahead = [] ∧ 0 = ((S.ep 0).recvOf 513 1).del + 1 ∧ ((S.ep
      0).recvOf 513 1).owed + 1 < S.ackEvery 0 ∧ (With ({ bits := 5, deliv := some (0x201, 1, 0) } : Beat) fun b => (S.ni
      0).sn = [b] ∧ b.deliv = some (513, 1, 0) ∧ b.old = false ∧ b.fence = false ∧ b.ld = false)) := by
  and_intros <;> decide +kernel

theorem test_meets_AgentClockResetAndUp :
    On (up) (fun S => S.inReset = false ∧ (S.ni 0).clk = true ∧ (S.ni 0).arstN = true ∧ ((S.ni 0).up = true ∨ S.upAllowed 0
      (S.ni 0) = false)) ∧
    On (chkBase) (fun S => S.inReset = false ∧ (S.ni 0).clk = false ∧ (S.ni 0).arstN = false) ∧
    On (up (fun x => { x with up := false })) (fun S => S.inReset = false ∧ (S.ni 0).up = false ∧ (S.ni 0).resetting = false
      ∧ S.upAllowed 0 (S.ni 0) = true ∧ (S.ni 0).wait = []) := by
  and_intros <;> decide +kernel

theorem test_meets_NiRowsAndRegacc :
    At (chkBase) (fun s S => wayOpen S Requester.mp (pgNi 0) 544 ∧ s.stampBad Requester.mp = false ∧ (S.ni 0).resetting =
      false ∧ (∀ (e : Nat × Recv), e ∈ (S.ep 0).recv → e.snd.owed = 0) ∧ (S.ni 0).stores = [] ∧ S.inReset = false ∧
      S.niDraining 0 = true ∧ wayOpen S Requester.mp (pgNi 0) 648 ∧ (S.ni 0).way 5 = none ∧ (S.regaccOf 5 = none ∨
      S.mp.ready = false)) ∧
    On (rg (regaccW true)) (fun S => S.inReset = false ∧ S.mp.ready = true ∧ (∀ (f : Flit), f ∈ regaccW true → f.poison =
      false ∧ f.trunc = false ∧ f.upset ≠ 2) ∧ (With
      (({ dest := 0x3F0, src := 5, type := tRegacc, tag := 9 : MgtHdr }.glaze) : MgtHdr) fun h => S.regaccOf 5 = some (200,
      h, regaccW true, []) ∧ h.glazeOk = true ∧ h.poison = false ∧ S.reachable h.src = true) ∧ (With (BitVec.ofNat 64 (2 ^
      34 + 2 ^ 33 + 2 ^ 35 + 0x14) : BitVec 64) fun a0 => (wordsOf (regaccW true))[0]? = some a0 ∧ ((a0.getLsbD 35) = true →
      (a0.getLsbD 34) = true ∧ (BitVec.extractLsb' 32 2 a0) = 2) ∧ (a0.getLsbD 35) = true ∧ (a0.getLsbD 34) = true ∧
      (BitVec.extractLsb' 32 2 a0) = 2)) ∧
    At (up (fun x => { x with cache := [w0] })) (fun s S => S.inReset = false ∧ S.niDraining 0 = false ∧ wayOpen S
      Requester.mp (pgNi 0) 648 ∧ s.stampBad Requester.mp = false ∧ (S.ni 0).way 5 = some w0 ∧ w0.fetch = false) ∧
    On (up (fun x => { x with resetting := true, rs := [{ bits := 5 }] })) (fun S => S.inReset = false ∧ (S.ni 0).resetting
      = true) := by
  and_intros <;> decide +kernel

end Agents

namespace Network

def upn (x : Ni → Ni := id) (f := fun s : Seg => s) : State :=
  mkR [(pgNi 0, PAGE.PAGE_CTRL_ENABLE, 1)] fun s => f (s.setNi 0 (x { clk := true, arstN := true, up := true }))
def h0 : Hdr := { dest := 4, src := 0, type := tRead, len := 16, tag := 7, cls := 2 }
def e0 : Entry := { id := 3, hdr := h0, phase := .eligible, bind := 1 }
def e1 : Entry := { id := 3, hdr := { h0 with dest := 28, cls := 1, type := tWrite }, phase := .copies, bind := 1 }
def p1 : Packet := { plane := .req, hdr := { h0 with dest := 28, cls := 1, type := tWrite } }
def sched2 (s : Seg) : Seg :=
  [0,1].foldl (fun s o => (List.range 30).foldl (fun s i => s.setSlotEntry 0 0 0 o (5 + i) (4 + 16 * 2)) (s.setDesc 0 0 0 o 2 (BitVec.ofNat 32 (2 ^ 31 + 5 * 2 ^ 24 + (1 - o % 2) * 2 ^ 20)))) s
def c1t (f : Seg → Seg) :=
  upn (fun x => { x with store := [{ e1 with path0 := true }] }) fun s => f (s.modEp 0 fun ep => ep.setSend 28 0 { unacked := [{ pkt := p1, entry := some 3 }] })
def ef : Entry := { id := 1, hdr := { tag := 5, type := tFence }, phase := .fence }
def pk (pl : Plane) : Packet :=
  { plane := pl, hdr := { dest := 0x200, src := 5, type := tRead, len := 16, tag := 7, cls := 2, seq := 4 : Hdr }.glaze }
def rcv : Recv := { active := true, next := 4 }
def bk (pl : Plane) (p : Packet) (r : Recv := rcv) :=
  mk0 fun s => s.modEp 0x200 fun e => { (e.setRecv p.hdr.src pl.code r) with inq := [(pl.code, [p])] }
def ackg : Packet :=
  { plane := .rsp, hdr := { dest := 0x200, src := 5, type := tCpl, ack := true, seq := 4, cls := 2, aux := 1 + 8 : Hdr }.glaze }
def sent (l : List (BitVec 16)) (p : Packet) (sy := false) :=
  mk0 fun s => s.modEp 0x200 fun e => { ((e.setSend 5 0 { sync := sy, unacked := l.map fun q => { pkt := { pk .req with hdr := { (pk .req).hdr with seq := q } } } }).setSend 5 2 { unacked := l.map fun q => { pkt := { pk .req with hdr := { (pk .req).hdr with seq := q } } } }) with inq := [(1, [p])] }
def rn (w : BitVec 64) : List Flit :=
  [{ body := .mgtHead ({ dest := 0, src := 5, type := tRegacc, fab := true : MgtHdr }.glaze), tail := false }, { body := .mgtData w, tail := true }]
def snd (r : Nat) :=
  mk0 fun s => (s.modEp 0x200 fun e => e.setSend 5 0 { resends := r, unacked := [{ pkt := pk .req }] }).modEp 0 fun e => e.setSend 5 0 { resends := r, unacked := [{ pkt := pk .req }] }
def rejW : List (BitVec 64) := [rejectBits 3 false true true, rejectBits 3 true false false]
def eb : Entry := { id := 3, hdr := h0, phase := .bound, bind := 1, acked := true }
def cp : Packet := { plane := .rsp, hdr := { dest := 0, src := 4, type := tCpl, tag := 7, seq := 4, cls := 2 : Hdr }.glaze }
def fl (vc : Nat) : Flit := { body := .data 5, vc := vc, tail := true, idx := 1 }
def hf : Flit := { body := .head (pk .req).hdr 0, vc := 1, tail := false }
def ld (pl : Nat) (l : List Flit) (drop := false) :=
  mk0 fun s => if drop then (s.setLanding 1 pl 0 l).addDrop 1 pl 0 (l.headD (fl 0)).vc (l.headD (fl 0)).id 0 else s.setLanding 1 pl 0 l
def rf (d : BitVec 12) (ad := false) (a : Bool := false) : Flit :=
  { body := .head ({ dest := d, src := 8, type := tRead, cls := 2, adapt := ad : Hdr }.glaze) 0, vc := 1, tail := true, esc := a, seen := 127 }
def vq (l : List Flit) (f : Seg → Seg := id) :=
  mkR [(pgRt 1, PAGE.PAGE_CTRL_ENABLE, 1), (pgRt 1, ROUTER.RT_CFG_ADAPT_EN, 1), (pgRt 1, ROUTER.CLASS_MAP_ADAPT_OK.at 2, 1)] fun s => f (s.setVcq 1 2 3 1 l)
def vq0 (l : List Flit) (f : Seg → Seg := id) :=
  mkR [(pgRt 1, PAGE.PAGE_CTRL_ENABLE, 1), (pgRt 1, ROUTER.RT_CFG_ADAPT_EN, 1), (pgRt 1, ROUTER.CLASS_MAP_ADAPT_OK.at 2, 1)] fun s => f (s.setVcq 1 0 3 1 l)
def dfl : Flit := { body := .data 5, vc := 1, tail := true, idx := 1 }
def xs :=
  vq [dfl] (fun s => (((s.setThru 1 2 3 1 { out := 1, vc := 2, eff := 4 }).setVcOwner 1 2 1 2 (1 + 24 + 1)).modOut 1 2 1 fun y => { y with next := some (.bg 3 1) }).setWait 1 2 3 1 1 4)
def hd1 : Head :=
  { flit := dfl, out := 1, vc := 2, second := false, ring := none, esc := false, eff := 4, epoch := 0, header := false }
def settled (S : Seg) (pl : Plane) (p : Port) : Seg :=
  ((S.acceptCredits 1 pl.code p []).scrub 1 pl.code).wakeNeighbour 1 pl.code p
def mark (S : Seg) (pl : Plane) (p : Port) : Seg := S.modOut 1 pl.code p.code fun y =>
  { y with next := none, used := false, slot := none, at_ := some (S.tftb 1), phase := S.phaseOf 1 pl.code p.code }
def gone (S : Seg) (x : Head) : Seg :=
  let U := ((settled S .snp .e).modOut 1 2 1 fun y => { y with next := none, used := false, slot := none }).popFlits 1 2 3 1 1
  let U := ((U.setCredits 1 2 1 x.vc (U.credits 1 2 1 x.vc - 1)).spend (hopEnergy 2 3 .e (x.flit.seen == 0) true)).endThru 1 2 3 1
    x.flit.id
  let U := (U.setVcOwner 1 2 1 x.vc 0).endWaits 1 2 3 1
  U.setLanding 2 2 Port.e.facing.code (U.landingOf 2 2 Port.e.facing.code ++
    [{ x.flit with vc := x.vc, ring := x.ring, esc := x.esc, seen := 0, la := x.la }])
def hd2 : Head := ((((mark (settled (vq [rf 8]).s0 .snp .e) .snp .e).offers 1 2 1).map (·.2.2)).head?).getD hd1

theorem test_meets_PacketsLeaveAnNi :
    On (upn) (fun S => S.inReset = false ∧ (S.niRuns 0 = false ∨ ∀ (f : Entry), f ∈ (S.ni 0).store → f.phase ≠ Phase.queued
      ∧ f.phase ≠ Phase.eligible) ∧ (∀ (f : Entry), f ∈ (S.ni 0).store ++ List.map (fun x => x.fst) (S.ni 0).late → f.phase
      ≠ Phase.copies) ∧ ((S.ni 0).up = false ∨ ∀ (f : Entry), f ∈ (S.ni 0).store → f.phase ≠ Phase.fence)) ∧
    On (c1t sched2) (fun S => S.inReset = false ∧ S.niRuns 0 = true ∧ (S.ni 0).late = [] ∧ (With ({ e1 with path0 := true }
      : Entry) fun e => (S.ni 0).store = [e] ∧ e.phase = Phase.copies ∧ ((if true = true then e.path1 else e.path0) = false)
      ∧ S.sentAs 0 e = some p1 ∧ S.copyStart 0 e true < 512 ∧ S.goesC1 0 e = true ∧ S.copyBlocked 0 e true = false ∧
      S.firstHop 0 e true = some 0 ∧ S.tagFor (0 / 2) e.plane.code 0 e.hdr.fid true = Sum.inl 2 ∧ S.copyTurn 0 e = true ∧
      ((if true = true then e.path0 else e.path1) = true ∨ S.copyStart 0 e true ≤ S.copyStart 0 e !true))) ∧
    On (upn (fun x => { x with store := [e0] })) (fun S => S.inReset = false ∧ S.niRuns 0 = true ∧ (S.ni 0).store = [e0] ∧
      e0.access = true ∧ e0.hdr.type = tRead ∧ e0.hdr.cls ≠ 1 ∧ S.canInject 0 Plane.req e0 = true ∧ S.noTarget 0 e0 = false
      ∧ S.overlapWaits 0 e0 = false) ∧
    On (upn (fun x => { x with store := [ef] })) (fun S => S.inReset = false ∧ (List.find? (fun e => e.phase == Phase.fence)
      (S.ni 0).store = some ef) ∧ (S.ni 0).resetting = false ∧ (S.ni 0).up = true ∧ (∀ (f : Entry), f ∈ S.earlier 0 ef →
      f.access = false)) := by
  and_intros <;> decide +kernel

theorem test_meets_PacketsArrive :
    On (bk .req (pk .req) { rcv with owed := 2, del := 3 }) (fun S => (With (({ ep := 0x200 } : AckLook) : AckLook) fun ack
      => ↑ack.ep = 512 + 0 ∧ S.epRuns ↑ack.ep = true ∧ SMap.get [] (S.ep ↑ack.ep).inq Plane.req.code = [pk Plane.req] ∧
      ((S.ep ↑ack.ep).recvOf (pk Plane.req).hdr.src (pk Plane.req).plane.code).active = true ∧ ((S.ep ↑ack.ep).recvOf (pk
      Plane.req).hdr.src (pk Plane.req).plane.code).held = [] ∧ (pk Plane.req).hdr.seq = ((S.ep ↑ack.ep).recvOf (pk
      Plane.req).hdr.src (pk Plane.req).plane.code).next ∧ 0 < ((S.ep ↑ack.ep).recvOf 5 Plane.req.code).owed ∧ ((S.ep
      ↑ack.ep).recvOf 5 (Plane.req.code + twinKey)).owed = 0) ∧ Plane.req ≠ Plane.mgt ∧ S.inReset = false ∧ (pk
      Plane.req).hdr.ack = false ∧ (pk Plane.req).hdrErr = false ∧ ¬(0 : Fin 8) ∈ ([] : List (Fin 8)) ∧ false = false ∧ (pk
      Plane.req).hdr.glazeOk = true ∧ (pk Plane.req).trunc = false ∧ (pk Plane.req).hdr.sync = false ∧ ((pk
      Plane.req).hdrErr = true ∨ (0 : Fin 8) ∈ ([] : List (Fin 8)) ∨ true = true ∨ (pk Plane.req).hdr.glazeOk = false) ∧
      (With ({ ep := 0x201 } : AckLook) fun ack => ↑ack.ep = 512 + 1 ∧ (S.epRuns ↑ack.ep = false ∨ SMap.get [] (S.ep
      ↑ack.ep).inq Plane.req.code = []) ∧ (S.epRuns ↑ack.ep = false ∨ ((S.ep ↑ack.ep).recvOf 5 Plane.req.code).owed = 0 ∧
      ((S.ep ↑ack.ep).recvOf 5 (Plane.req.code + twinKey)).owed = 0) ∧ (S.epRuns ↑ack.ep = false ∨ ∀ (k : Fin 3), SMap.get
      [] (S.ep ↑ack.ep).inq ↑k = []))) ∧
    On (sent [6] ackg) (fun S => (With (({ ep := 0x200 } : AckLook) : AckLook) fun ack => ↑ack.ep = 512 + 0 ∧ S.epRuns
      ↑ack.ep = true ∧ SMap.get [] (S.ep ↑ack.ep).inq 1 = [ackg] ∧ ↑ack.upset < 2) ∧ S.inReset = false ∧ Plane.rsp =
      Plane.rsp ∧ ackg.hdr.ack = true ∧ ackg.hdrErr = false ∧ ackg.hdr.glazeOk = true ∧ ackg.hdr.viaTwin = false ∧
      ackg.hdr.aux.toNat / 2 % 2 = 0 ∧ (With ({ ep := 0x200, upset := 2 } : AckLook) fun ack => ↑ack.ep = 512 + 0 ∧ S.epRuns
      ↑ack.ep = true ∧ SMap.get [] (S.ep ↑ack.ep).inq 1 = [ackg] ∧ (2 ≤ ↑ack.upset ∨ ackg.hdrErr = true ∨ ackg.hdr.glazeOk =
      false))) := by
  and_intros <;> decide +kernel

theorem test_meets_RetryGrantsAndCompletions :
    On (snd 0) (fun S => epOk 512 = true ∧ S.inReset = false ∧ S.epRuns 512 = true ∧ ((S.ep 512).sendOf 5
      Plane.req.code).unacked ≠ [] ∧ ((S.ep 512).sendOf 5 Plane.req.code).resends < S.retryMax 512 ∧ (S.epRuns 512 = false ∨
      ((S.ep 512).sendOf 5 Plane.rsp.code).unacked = []) ∧ S.mgtArrived 0 true = none ∧ (S.niRuns 0 = false ∨ (S.ni 0).cplIn
      = []) ∧ (S.ni 0).outstanding 7 = none ∧ (S.ni 0).regacc ≠ some 7 ∧ (((SMap.get (2 ^ 20) (S.ni 0).feTags 7 != 2 ^ 20 &&
      (S.ni 0).feIn.all fun q => q.hdr.tag != 7) && (S.ep 0).send.all fun d => d.snd.unacked.all fun u => u.entry.isSome ||
      u.pkt.plane != Plane.req || u.pkt.hdr.tag != 7) = false)) ∧
    On (upn (fun x => { x with store := [eb], cplIn := [cp] })) (fun S => S.inReset = false ∧ S.niRuns 0 = true ∧ (S.ni
      0).cplIn = [cp] ∧ (S.ni 0).outstanding cp.hdr.tag = some eb ∧ eb.phase = Phase.bound ∧ eb.plane ≠ Plane.snp ∧
      eb.hdr.dest = cp.hdr.src ∧ cp.hdr.aux = 0 ∧ (S.ni 0).outstanding 7 = some eb ∧ eb.acked = true) ∧
    On (snd 3) (fun S => epOk 512 = true ∧ S.inReset = false ∧ S.epRuns 512 = true ∧ ((S.ep 512).sendOf 5
      Plane.req.code).unacked ≠ [] ∧ S.retryMax 512 ≤ ((S.ep 512).sendOf 5 Plane.req.code).resends) ∧
    On (upn (fun x => { x with regacc := some 7 })) (fun S => S.inReset = false ∧ (S.ni 0).outstanding 7 = none ∧ (S.ni
      0).regacc = some 7) ∧
    On (upn (fun x => { x with feTags := SMap.put (2 ^ 20) [] 7 5 })) (fun S => S.inReset = false ∧ (S.ni 0).outstanding 7 =
      none ∧ (S.ni 0).regacc ≠ some 7 ∧ (((SMap.get (2 ^ 20) (S.ni 0).feTags 7 != 2 ^ 20 && (S.ni 0).feIn.all fun q =>
      q.hdr.tag != 7) && (S.ep 0).send.all fun d => d.snd.unacked.all fun u => u.entry.isSome || u.pkt.plane != Plane.req ||
      u.pkt.hdr.tag != 7) = true)) ∧
    On (upn (fun x => { x with store := [{ eb with phase := .sent }] })) (fun S => S.inReset = false ∧ (With
      ({ eb with phase := .sent } : Entry) fun e => (S.ni 0).outstanding 7 = some e ∧ e.phase ≠ Phase.bound)) ∧
    On (mk0 (fun s => s.modEp 0 fun e => { e with asm := [(200, rn rejW[0]!)] })) (fun S => epOk 512 = true ∧ S.inReset =
      false ∧ (List.find? (fun j => !BitVec.getLsbD (S.word (pgRt (0 / 2)) (demOff 0 j)) 31) (List.range 16) = some 0) ∧
      (With (rn (rejectBits 3 false true true) : List Flit) fun fs => S.mgtArrived 0 true = some (200, fs, [])) ∧ (With (rn
      (rejectBits 3 false true true) : List Flit) fun fs => With (rejectBits 3 false true true : BitVec 64) fun w =>
      (wordsOf fs).head? = some w) ∧ (With (rejectBits 3 false true true : BitVec 64) fun w => S.demoted 0 (BitVec.truncate
      20 w) (w.getLsbD 21) = false)) := by
  and_intros <;> decide +kernel

theorem test_meets_FlitsArrive :
    On (ld 0 [hf]) (fun S => portOk 1 Plane.req Port.n = true ∧ S.inReset = false ∧ S.rtRuns 1 = true ∧ S.landingOf 1
      Plane.req.code Port.n.code = [hf] ∧ (S.vcq 1 Plane.req.code Port.n.code hf.vc).length < vcDepth Plane.req hf.vc ∧
      (List.find? (fun d => d.fst == hf.id && !hf.isHead) (S.drops 1 Plane.req.code Port.n.code hf.vc) = none) ∧ max
      hf.upset 0 < 3 ∧ (hf.isHead = true → max hf.upset 0 < 2 ∧ hf.glazeOk = true) ∧ hf.isHead = true ∧ (2 ≤ max hf.upset 2
      ∨ hf.glazeOk = false) ∧ portOk 1 Plane.req Port.e = true ∧ Port.e ≠ Port.k ∧ (S.rtRuns 1 = false ∨ S.landingOf 1
      Plane.req.code Port.e.code = [] ∧ portBridge 1 Port.e = none)) ∧
    On (ld 0 [fl 1]) (fun S => portOk 1 Plane.req Port.n = true ∧ S.inReset = false ∧ S.rtRuns 1 = true ∧ S.landingOf 1
      Plane.req.code Port.n.code = [fl 1] ∧ (S.vcq 1 Plane.req.code Port.n.code (fl 1).vc).length < vcDepth Plane.req (fl
      1).vc ∧ (List.find? (fun d => d.fst == (fl 1).id && !(fl 1).isHead) (S.drops 1 Plane.req.code Port.n.code (fl 1).vc) =
      none) ∧ (fl 1).isHead = false ∧ max (fl 1).upset 3 = 3) ∧
    On (ld 0 [fl 1] true) (fun S => portOk 1 Plane.req Port.n = true ∧ S.inReset = false ∧ S.rtRuns 1 = true ∧ S.landingOf 1
      Plane.req.code Port.n.code = [fl 1] ∧ (S.vcq 1 Plane.req.code Port.n.code (fl 1).vc).length < vcDepth Plane.req (fl
      1).vc ∧ (List.find? (fun d => d.fst == (fl 1).id && !(fl 1).isHead) (S.drops 1 Plane.req.code Port.n.code (fl 1).vc) =
      some (0, 0))) := by
  and_intros <;> decide +kernel

theorem test_meets_OutputsArbitrate :
    On (xs) (fun S => portOk 1 Plane.snp Port.w = true ∧ S.inReset = false ∧ S.rtRuns 1 = true ∧ ((settled S .snp .w).out 1
      Plane.snp.code Port.w.code).drain = [] ∧ (settled S .snp .w).slotDue 1 Plane.snp.code Port.w.code = none ∧ ((settled S
      .snp .w).out 1 Plane.snp.code Port.w.code).next = none ∧ (mark (settled S .snp .w) .snp .w).offers 1 Plane.snp.code
      Port.w.code = [] ∧ portOk 1 Plane.snp Port.e = true ∧ neighbour 1 Port.e = some 2 ∧ portBridge 1 Port.e = none ∧
      ((settled S .snp .e).out 1 Plane.snp.code Port.e.code).drain = [] ∧ (settled S .snp .e).slotDue 1 Plane.snp.code
      Port.e.code = none ∧ ((settled S .snp .e).out 1 Plane.snp.code Port.e.code).next = some (Grant.bg 3 1) ∧ (S.vcq 1
      Plane.snp.code Port.e.code 1 = [] ∨ ¬1 ∈ [0, 4, 5]) ∧ portOk 1 Plane.snp Port.l0 = true ∧ (S.ejectWaits 2 Plane.snp =
      none ∨ S.niRuns 2 = false) ∧ portOk 1 Plane.snp Port.l1 = true ∧ (S.ejectWaits 3 Plane.snp = none ∨ S.niRuns 3 =
      false) ∧ Port.e ≠ Port.l0 ∧ Port.e ≠ Port.l1 ∧ (With (hd1 : Head) fun x => x.out = Port.e.code ∧ x.header = false ∧
      x.flit.tail = true ∧ x.vc ≠ 3 ∧ (settled S .snp .e).headOf 1 Plane.snp.code 3 1 true = some x ∧ (settled S .snp
      .e).ready 1 Plane.snp.code 3 1 x = true ∧ (mark (gone S x) .snp .e).offers 1 Plane.snp.code Port.e.code = [])) ∧
    On (vq [rf 8]) (fun S => portOk 1 Plane.snp Port.e = true ∧ S.inReset = false ∧ S.rtRuns 1 = true ∧ ((settled S .snp
      .e).out 1 Plane.snp.code Port.e.code).drain = [] ∧ (settled S .snp .e).slotDue 1 Plane.snp.code Port.e.code = none ∧
      ((settled S .snp .e).out 1 Plane.snp.code Port.e.code).next = none ∧ ((settled S .snp .e).out 1 Plane.snp.code
      Port.e.code).bg + 1 < (settled S .snp .e).starveN 1 ∧ (With (hd2 : Head) fun x => (mark (settled S .snp .e) .snp
      .e).offers 1 Plane.snp.code Port.e.code = [(3, 1, x)])) ∧
    On (vq0 [rf 14 true]) (fun S => portOk 1 Plane.req Port.w = true ∧ S.inReset = false ∧ S.rtRuns 1 = true ∧ S.vcq 1
      Plane.req.code Port.w.code 1 = [rf 14 true] ∧ S.thru 1 Plane.req.code Port.w.code 1 = none ∧ (rf 14 true).esc = false
      ∧ S.granted 1 Plane.req.code Port.w.code 1 = false ∧ (With ((⟨14, 8, tRead, 0, false, false, 2, 0, 0, true, false⟩ :
      RHdr) : RHdr) fun h => (rf 14 true).rhdr = some h ∧ S.adaptOk 1 h = true ∧ h.c1 = false) ∧ (With
      ((⟨14, 8, tRead, 0, false, false, 2, 0, 0, true, false⟩ : RHdr) : RHdr) fun h => With
      ({ out := .e, vc := 0, esc := true } : Route) fun r => S.headerRoute 1 Plane.req.code 1
      { rf 14 true with esc := true } h = some (some r) ∧ S.escapeRoom 1 Plane.req.code h r = true)) ∧
    On (mk0 (fun s => s.setStTile 1 4)) (fun S => portOk 1 Plane.snp Port.e = true ∧ S.inReset = false ∧ S.rtRuns 1 = false) ∧
    On (vq0 [rf 14 true] (fun s => s.setCredits 1 0 1 0 0)) (fun S => portOk 1 Plane.req Port.w = true ∧ S.inReset = false ∧
      S.rtRuns 1 = true ∧ S.vcq 1 Plane.req.code Port.w.code 1 = [rf 14 true] ∧ S.thru 1 Plane.req.code Port.w.code 1 = none
      ∧ (rf 14 true).esc = false ∧ S.granted 1 Plane.req.code Port.w.code 1 = false ∧ (With
      ((⟨14, 8, tRead, 0, false, false, 2, 0, 0, true, false⟩ : RHdr) : RHdr) fun h => (rf 14 true).rhdr = some h ∧
      S.adaptOk 1 h = true ∧ h.c1 = false) ∧ (With ((⟨14, 8, tRead, 0, false, false, 2, 0, 0, true, false⟩ : RHdr) : RHdr)
      fun h => With ({ out := .e, vc := 0, esc := true } : Route) fun r => S.headerRoute 1 Plane.req.code 1
      { rf 14 true with esc := true } h = some (some r) ∧ S.escapeRoom 1 Plane.req.code h r = false)) ∧
    On (mk0 (fun s => s.setVcq 1 0 3 0 [{ rf 14 with vc := 0 }])) (fun S => portOk 1 Plane.req Port.w = true ∧ S.inReset =
      false ∧ S.vcq 1 Plane.req.code Port.w.code 0 ≠ [] ∧ S.rtRuns 1 = true) ∧
    On (mk0 (fun s => s.modEp 3 fun e => { e with inq := [(0, [pk .req])] })) (fun S => portOk 1 Plane.req Port.l1 = true ∧
      S.inReset = false ∧ S.niRuns 3 = true ∧ S.ctl.halted = false ∧ (S.pulse (srcNi 3)).phase = 0 ∧ (With ((pk
      .req).hdr.src : BitVec 12) fun e => S.ejectWaits 3 Plane.req = some e)) ∧
    On (mk0 (fun s => s.modOut 1 2 1 fun y => { y with next := some (.bg 0 1) })) (fun S => portOk 1 Plane.snp Port.e = true
      ∧ S.inReset = false ∧ S.rtRuns 1 = true ∧ ((settled S .snp .e).out 1 Plane.snp.code Port.e.code).drain = [] ∧ (settled
      S .snp .e).slotDue 1 Plane.snp.code Port.e.code = none ∧ ((settled S .snp .e).out 1 Plane.snp.code Port.e.code).next =
      some (Grant.bg 0 1) ∧ (settled S .snp .e).headOf 1 Plane.snp.code 0 1 true = none ∧ (mark (settled S .snp .e) .snp
      .e).offers 1 Plane.snp.code Port.e.code = []) ∧
    On (mk0 (fun s => s.modEp 2 fun e => { e with inq := [(0, [pk .req]), (2, [pk .req])] })) (fun S => portOk 1 Plane.snp
      Port.l0 = true ∧ S.inReset = false ∧ S.niRuns 2 = true ∧ S.ctl.halted = false ∧ (S.pulse (srcNi 2)).phase = 0 ∧ (With
      ((pk .req).hdr.src : BitVec 12) fun e => S.ejectWaits 2 Plane.snp = some e)) := by
  and_intros <;> decide +kernel

theorem test_meets_LinksFallAndReturn :
    On (chkBase) (fun S => neighbour 0 Port.e = some 1 ∧ S.inReset = false ∧ S.stTile 0 ≠ 4 ∧ (∀ (pl : Fin 4) (v : Fin 6),
      S.vcq 0 (↑pl) Port.e.code ↑v = []) ∧ (∀ (e : Nat × Thru), e ∈ S.inFlow → e.fst / 256 = 0 → e.snd.out ≠ Port.e.code ∧
      e.fst / 8 % 8 ≠ Port.e.code) ∧ neighbour 30 Port.e = some 31 ∧ S.stTile 30 = 4 ∧ S.stTile 1 ≠ 4 ∧ S.kilnIsolates
      (srcRt 1) = false ∧ neighbour 1 Port.n = some 13 ∧ (S.stTile 1 = 4 ∨ S.stTile 13 = 4)) := by
  and_intros <;> decide +kernel

end Network

namespace BanksMaps

def bb (q : List Packet) (f : Bank → Bank := id) (mode := 1) (gf : Seg → Seg := id) : State :=
  mkR [(pgBank 0, PAGE.PAGE_CTRL_ENABLE, 1), (pgBank 0, PAGE.PAGE_STAT_ENABLED, 1), (pgBank 0, BANK.BANK_OWN_MODE, mode)] fun s => gf (s.modBank 0 fun x => f { x with pa := { q := q } })
def on (q : Packet) (n : Nat) (f : Bank → Bank := id) : State :=
  bb [] fun x => f { x with pa := { burst := some { burstOf q false with lines := (burstOf q false).lines.drop n } }, grant := some false }
def two (q r : Packet) (p : Bool) : State :=
  bb [] fun x => { x with pa := { burst := some (burstOf q false) }, pb := { burst := some (burstOf r false) }, grant := some p }
def hb (ty : BitVec 4) (a : BitVec 64) (len : BitVec 10) : Hdr :=
  { dest := 0x200, src := 4, type := ty, cls := 2, tag := 7, addr := a, len := len, seq := 1 : Hdr }.glaze
def rd1 : Packet := { plane := .req, hdr := hb tRead 3 20 }
def rd2 : Packet := { plane := .req, hdr := hb tRead 60 200 }
def bad1 : Packet := { plane := .req, hdr := hb tRead (2^17) 8 }
def wr1 : Packet := { plane := .req, hdr := hb tWrite 64 8 }
def po3 : Packet :=
  { plane := .req, hdr := hb tPosted 60 200, imm := 0x1122, data := [{ bits := 0x1234567890ABCDEF }, { bits := 77777777777777777777 }] }
def xb (q : Packet) (n : Nat) : Burst := { burstOf q false with lines := (burstOf q false).lines.drop n }
def prot (x : Bank) : Bank := { x with res := [⟨9, 1, true, 0⟩] }
def mem (s : Seg) : Seg := s.setBBytes 0 0 0x0123456789ABCDEF0123456789ABCDEF0123456789ABCDEF 24
def ebd (l : List (Nat × Field × Nat) := []) (f : Seg → Seg := id) :=
  mkR ([(pgSeg, SEG.SEG_CTRL_EXPERT_EN, 1), (pgSeg, SEG.SEG_CTRL_MODE, 1)] ++ l) f
def rt (l : List (Nat × Field × Nat)) (f : Seg → Seg := id) :=
  ebd ([(pgRt 1, ROUTER.SLOT_ADDR_OUT, 1), (pgRt 1, ROUTER.RES_ADDR_OUT, 1), (pgRt 1, ROUTER.SLOT_ADDR_INDEX, 511)] ++ l) f
def own (b n : Nat) (s : Seg) : Seg := (List.range n).foldl (fun s i => s.setSlotEntry 1 b 0 1 (5 + 2 * i) (4 + 16 * 2)) s
def ct (f : Ctl → Ctl) (g : Seg → Seg := id) := mk0 fun s => g (s.modCtl f)

theorem test_meets_BankAccesses :
    On (on rd2 3) (fun S => S.inReset = false ∧ S.bankClocked 0 = true ∧ S.stBank 0 = 0 ∧ S.bankHolds 0 = false ∧ (S.bank
      0).engine = false ∧ (S.bank 0).urgent = [] ∧ (S.bank 0).busy = [] ∧ (S.bank 0).pb = {  } ∧ (S.bank 0).defer = [] ∧
      (S.bank 0).pa = { burst := some (xb rd2 3) } ∧ (xb rd2 3).pkt = rd2 ∧ (xb rd2 3).lines = [3, 4] ∧ (S.bank 0).grant =
      some false ∧ rd2.hdr.poison = false ∧ (∀ (d : DataFlit), d ∈ rd2.data → d.poison = false) ∧ (∀ (w : Nat), w ∈
      beatWords rd2.hdr 3 → S.marked 0 w = false) ∧ rd2.hdr.type = tRead) ∧
    On (bb [rd1]) (fun S => S.inReset = false ∧ S.bankClocked 0 = true ∧ S.stBank 0 = 0 ∧ S.bankHolds 0 = false ∧ (S.bank
      0).engine = false ∧ (S.bank 0).urgent = [] ∧ (S.bank 0).busy = [] ∧ (S.bank 0).pb = {  } ∧ (S.bank 0).defer = [] ∧
      (S.bank 0).pa = { q := [rd1] } ∧ (S.bank 0).grant = none ∧ S.fetchWaits 0 rd1 = false ∧ S.bankRefusal 0 rd1.hdr = none
      ∧ rd1.hdr.type = tRead ∧ linesOfRange rd1.hdr.addr.toNat rd1.hdr.len.toNat = [0] ∧ (∀ (w : Nat), w ∈ wordsOfRange
      rd1.hdr.addr.toNat rd1.hdr.len.toNat → S.marked 0 w = false)) ∧
    On (on po3 4) (fun S => S.inReset = false ∧ S.bankClocked 0 = true ∧ S.stBank 0 = 0 ∧ S.bankHolds 0 = false ∧ (S.bank
      0).engine = false ∧ (S.bank 0).urgent = [] ∧ (S.bank 0).busy = [] ∧ (S.bank 0).pb = {  } ∧ (S.bank 0).defer = [] ∧
      (S.bank 0).pa = { burst := some (xb po3 4) } ∧ (xb po3 4).pkt = po3 ∧ (xb po3 4).lines = [4] ∧ (S.bank 0).grant = some
      false ∧ po3.hdr.poison = false ∧ (∀ (d : DataFlit), d ∈ po3.data → d.poison = false) ∧ (∀ (w : Nat), w ∈ beatWords
      po3.hdr 4 → S.marked 0 w = false) ∧ po3.hdr.type = tPosted ∧ (S.bank 0).beatProtected false (xb po3 4) = false) ∧
    On (on rd2 4) (fun S => S.inReset = false ∧ S.bankClocked 0 = true ∧ S.stBank 0 = 0 ∧ S.bankHolds 0 = false ∧ (S.bank
      0).engine = false ∧ (S.bank 0).urgent = [] ∧ (S.bank 0).busy = [] ∧ (S.bank 0).pb = {  } ∧ (S.bank 0).defer = [] ∧
      (S.bank 0).pa = { burst := some (xb rd2 4) } ∧ (xb rd2 4).pkt = rd2 ∧ (xb rd2 4).lines = [4] ∧ (S.bank 0).grant = some
      false ∧ rd2.hdr.poison = false ∧ (∀ (d : DataFlit), d ∈ rd2.data → d.poison = false) ∧ (∀ (w : Nat), w ∈ beatWords
      rd2.hdr 4 → S.marked 0 w = false) ∧ rd2.hdr.type = tRead ∧ (xb rd2 4).bad = false ∧ (xb rd2 4).marks = [] ∧ (xb rd2
      4).full = false) ∧
    On (bb [bad1]) (fun S => S.inReset = false ∧ S.bankClocked 0 = true ∧ S.stBank 0 = 0 ∧ S.bankHolds 0 = false ∧ (S.bank
      0).engine = false ∧ (S.bank 0).urgent = [] ∧ (S.bank 0).busy = [] ∧ (S.bank 0).pb = {  } ∧ (S.bank 0).defer = [] ∧
      (S.bank 0).pa = { q := [bad1] } ∧ (S.bank 0).grant = none ∧ S.fetchWaits 0 bad1 = false ∧ S.bankRefusal 0 bad1.hdr =
      some cDecerr ∧ cDecerr ≠ cPoison ∧ bad1.plane = Plane.req ∧ isPosted bad1.hdr.type = false ∧ bad1.hdr.type ≠ tCpl ∧
      bad1.hdr.type ≠ tSnpRsp) ∧
    On (bb [wr1] prot) (fun S => S.inReset = false ∧ S.bankClocked 0 = true ∧ S.stBank 0 = 0 ∧ S.bankHolds 0 = false ∧
      (S.bank 0).engine = false ∧ (S.bank 0).urgent = [] ∧ (S.bank 0).busy = [] ∧ (S.bank 0).pb = {  } ∧ (S.bank 0).defer =
      [] ∧ (S.bank 0).pa = { q := [wr1] } ∧ (S.bank 0).grant = none ∧ S.fetchWaits 0 wr1 = false ∧ S.bankRefusal 0 wr1.hdr =
      none ∧ (S.bank 0).mustDefer false wr1.hdr (burstOf wr1 false).lines = true) ∧
    On (two rd1 rd1 true) (fun S => S.inReset = false ∧ S.bankClocked 0 = true ∧ S.stBank 0 = 0 ∧ S.bankHolds 0 = false ∧
      (S.bank 0).engine = false ∧ (S.bank 0).urgent = [] ∧ (S.bank 0).busy = [] ∧ (S.bank 0).grant = some true ∧ beatsClash
      (S.beatOf 0 false) (S.beatOf 0 true) = true) ∧
    On (mk0 (fun s => s.setStTile (bankTile 0) 4)) (fun S => S.inReset = false ∧ S.bankClocked 0 = false) ∧
    On (bb [rd1] (fun x => { x with urgent := [3, 4] })) (fun S => S.inReset = false ∧ S.bankClocked 0 = true ∧ S.stBank 0 =
      0 ∧ S.bankHolds 0 = false ∧ (S.bank 0).engine = false ∧ (S.bank 0).urgent = [3, 4] ∧ 63 ≤ (S.bank 0).since) ∧
    On (bb [] (fun x => { x with pa := { burst := some (xb po3 1) }, res := [⟨9, 1, true, 0⟩], protQ := [(5, 0)] })) (fun S
      => S.inReset = false ∧ S.bankClocked 0 = true ∧ S.stBank 0 = 0 ∧ S.bankHolds 0 = false ∧ (S.bank 0).engine = false ∧
      (S.bank 0).urgent = [] ∧ (S.bank 0).busy = [] ∧ (S.bank 0).pb = {  } ∧ (S.bank 0).defer = [] ∧ (S.bank 0).pa =
      { burst := some (xb po3 1) } ∧ (S.bank 0).beatProtected false (xb po3 1) = true ∧ (S.bank 0).grant = none) := by
  and_intros <;> decide +kernel

theorem test_meets_BankOwnershipAndScrub :
    At (bb [rd1] (fun x => { x with wakeRow := some 5, noIdle := 64 })) (fun s S => S.inReset = false ∧ wayOpen S
      Requester.mp (pgBank 0) 256 ∧ s.stampBad Requester.mp = false ∧ S.bankOwnLocked 0 65540 = false ∧
      BANK.BANK_OWN_ZERO.get 65540 = 0 ∧ 65540 &&& 208895 ≠ S.word (pgBank 0) 256 &&& 208895 ∧ S.bankOwnLocked 0 131076 =
      true ∧ ((S.bank 0).hand = none ∨ (S.bank 0).zeroing = true ∨ S.bankDone 0 = false) ∧ wayOpen S Requester.mp (pgBank 0)
      272 ∧ (S.bank 0).hand = none ∧ (S.bank 0).zeroing = false ∧ ((S.bank 0).zeroing = false ∨ S.zeroMay 0 = false) ∧
      (S.bank 0).wakeRow = some 5 ∧ S.bankRuns 0 = true ∧ S.scrubYields 0 5 = true ∧ 64 ≤ (S.bank 0).noIdle ∧ 64 ≤ (S.bank
      0).since ∧ (S.bank 0).engine = false ∧ (S.bank 0).wakeRow ≠ some 2048 ∧ wayOpen S Requester.mp (pgBank 0) (1024 + 4 *
      0) ∧ S.expertEn = false) ∧
    At (bb [] (fun x => { x with zeroing := true, zeroCmd := true, pa := {} }) 1 mem) (fun s S => wayOpen S Requester.mp
      (pgBank 0) 272 ∧ s.stampBad Requester.mp = false ∧ ((S.bank 0).hand ≠ none ∨ (S.bank 0).zeroing = true) ∧ S.inReset =
      false ∧ (S.bank 0).zeroing = true ∧ S.zeroMay 0 = true ∧ S.bankClocked 0 = true ∧ S.stBank 0 = 0 ∧ (S.bank 0).engine =
      false ∧ (S.bank 0).urgent = [] ∧ (S.bank 0).busy = [] ∧ (S.bank 0).defer = [] ∧ (S.bank 0).pa = {  } ∧ (S.bank 0).pb =
      {  } ∧ (S.bank 0).grant = none ∧ (S.bank 0).zeroPos < 256 ∧ (S.bank 0).wakeRow = none) ∧
    On (mk0 (fun s => s.modBank 0 fun x => { x with hand := some 0x10004 })) (fun S => S.inReset = false ∧ (S.bank 0).hand =
      some 65540 ∧ (S.bank 0).zeroing = false ∧ S.bankDone 0 = true) ∧
    On (mkR [] (fun s => s.modBank 0 fun x => { x with wakeRow := some 2048 })) (fun S => S.inReset = false ∧ (S.bank
      0).wakeRow = some 2048) ∧
    On (mkR [] (fun s => s.modBank 0 fun x => { x with wakeRow := some 2047 })) (fun S => S.inReset = false ∧ (S.bank
      0).wakeRow = some 2047 ∧ S.bankRuns 0 = true ∧ S.scrubYields 0 2047 = false) ∧
    On (bb [rd1] (fun x => { x with wakeRow := some 5, pa := { q := [rd1] } })) (fun S => S.inReset = false ∧ (S.bank
      0).wakeRow = some 5 ∧ S.bankRuns 0 = true ∧ S.scrubYields 0 5 = true ∧ ¬(S.scrubYields 0 5 = true ∧ 64 ≤ (S.bank
      0).noIdle ∧ 64 ≤ (S.bank 0).since ∧ (S.bank 0).engine = false)) ∧
    On (mkR [(pgBank 0, BANK.SCRUB_CFG_SCRUB_EN, 1)] (fun s => s.modBank 0 fun x => { x with scrubRow := 5 })) (fun S =>
      S.inReset = false ∧ S.flag (pgBank 0) BANK.SCRUB_CFG_SCRUB_EN = true ∧ S.bankRuns 0 = true ∧ (S.bank 0).zeroing =
      false ∧ (S.bank 0).scrubRow = 5 ∧ S.scrubYields 0 5 = false) ∧
    On (mkR [(pgBank 0, BANK.SCRUB_CFG_SCRUB_EN, 1)] (fun s => s.modBank 0 fun x =>
      { x with scrubRow := 5, pa := { q := [rd1] } })) (fun S => S.inReset = false ∧ S.flag (pgBank 0)
      BANK.SCRUB_CFG_SCRUB_EN = true ∧ S.bankRuns 0 = true ∧ (S.bank 0).zeroing = false ∧ (S.bank 0).scrubRow = 5 ∧
      S.scrubYields 0 5 = true) := by
  and_intros <;> decide +kernel

theorem test_meets_SlotTablesAndStarvation :
    At (rt []) (fun s S => wayOpen S Requester.mp (pgRt 1) 1032 ∧ s.stampBad Requester.mp = false ∧ S.expertEn = true ∧
      S.flag (pgRt 1) ROUTER.SLOT_ADDR_BANK = false ∧ hasTable 1 (S.rd (pgRt 1) ROUTER.SLOT_ADDR_PLANE) (S.rd (pgRt 1)
      ROUTER.SLOT_ADDR_OUT) = true ∧ S.swapBusy 1 = false ∧ S.slotBusy 1 = false ∧ wayOpen S Requester.mp (pgRt 1) 580 ∧
      S.flag (pgRt 1) ROUTER.RES_ADDR_BANK = false ∧ hasTable 1 (S.rd (pgRt 1) ROUTER.RES_ADDR_PLANE) (S.rd (pgRt 1)
      ROUTER.RES_ADDR_OUT) = true ∧ wayOpen S Requester.mp (pgRt 1) 1024 ∧ S.inReset = false ∧ wayOpen S Requester.mp (pgRt
      1) 768 ∧ wayOpen S Requester.mp (pgRt 1) 736) ∧
    At (rt [(pgRt 1, ROUTER.SLOT_STAT_SWAP_PEND, 1)]) (fun s S => wayOpen S Requester.mp (pgRt 1) 1024 ∧ s.stampBad
      Requester.mp = false ∧ S.expertEn = true ∧ S.swapBusy 1 = true) ∧
    On (rt [(pgRt 1, ROUTER.SLOT_CTRL_COPY, 1)]) (fun S => S.inReset = false ∧ S.slotBusy 1 = true) ∧
    At (rt [(pgRt 1, ROUTER.SLOT_ADDR_BANK, 1)]) (fun s S => wayOpen S Requester.mp (pgRt 1) 1032 ∧ s.stampBad Requester.mp
      = false ∧ S.expertEn = true ∧ S.flag (pgRt 1) ROUTER.SLOT_ADDR_BANK = true) := by
  and_intros <;> decide +kernel

theorem test_meets_SlotSwaps :
    At (rt []) (fun s S => wayOpen S Requester.mp (pgRt 1) 1024 ∧ s.stampBad Requester.mp = false ∧ S.expertEn = true ∧
      S.swapBusy 1 = false ∧ S.inReset = false ∧ (S.flag (pgRt 1) ROUTER.SLOT_STAT_VALIDATING = false ∨ S.slotBusy 1 = true
      ∨ S.c1Ready 1 = false) ∧ S.flag (pgRt 1) ROUTER.SLOT_STAT_SWAP_PEND = false) ∧
    On (rt [(pgRt 1, ROUTER.SLOT_STAT_SWAP_PEND, 1)]) (fun S => S.inReset = false ∧ S.flag (pgRt 1)
      ROUTER.SLOT_STAT_SWAP_PEND = true ∧ S.flag (pgRt 1) ROUTER.SLOT_CTRL_AT_EN = false ∧ S.slotTransfer 1 = false) ∧
    On (rt [(pgRt 1, ROUTER.SLOT_STAT_VALIDATING, 1)]) (fun S => S.inReset = false ∧ S.flag (pgRt 1)
      ROUTER.SLOT_STAT_VALIDATING = true ∧ S.slotBusy 1 = false ∧ S.c1Ready 1 = true ∧ (List.findSome? (fun x => Option.map
      (fun e => (x.fst, x.snd, e)) (S.valTable 1 (S.slotShadow 1) x.fst x.snd)) (tables 1) = none) ∧ (∀ (x : Nat × Nat), x ∈
      tables 1 → S.valNotes 1 (S.slotShadow 1) x.fst x.snd = [])) ∧
    On (rt [(pgRt 1, ROUTER.SLOT_STAT_VALIDATING, 1)] (own 1 1)) (fun S => S.inReset = false ∧ S.flag (pgRt 1)
      ROUTER.SLOT_STAT_VALIDATING = true ∧ S.slotBusy 1 = false ∧ S.c1Ready 1 = true ∧ (List.findSome? (fun x => Option.map
      (fun e => (x.fst, x.snd, e)) (S.valTable 1 (S.slotShadow 1) x.fst x.snd)) (tables 1) = some (0, 1, 2, 5))) ∧
    On (rt [(pgRt 1, ROUTER.SLOT_STAT_SWAP_PEND, 1), (pgRt 1, ROUTER.ARB_EXP_SWAP_FORCE_AFTER, 3)] (fun s => s.modOut 1 0 1
      fun y => { y with runs := [⟨4, 0, 2, 1⟩] })) (fun S => S.inReset = false ∧ S.flag (pgRt 1) ROUTER.SLOT_STAT_SWAP_PEND
      = true ∧ S.flag (pgRt 1) ROUTER.SLOT_CTRL_AT_EN = false ∧ S.slotTransfer 1 = true ∧ S.rd (pgRt 1)
      ROUTER.SLOT_STAT_DELAYS + 1 < S.rd (pgRt 1) ROUTER.ARB_EXP_SWAP_FORCE_AFTER) := by
  and_intros <;> decide +kernel

theorem test_meets_MapsAndEpochs :
    On (ct (fun c => { c with adoptDue := [0x40], epoch := 3, fabAt := [0, 1] })) (fun S => S.inReset = false ∧
      (S.ctl.prevLive = true ∨ S.ctl.mapped = false) ∧ 64 = srcRt 0 ∧ 64 ∈ S.ctl.adoptDue ∧ 0 ∈ S.ctl.fabAt ∧ S.stTile 0 ≤ 1
      ∧ S.kilnIsolates 64 = false ∧ mapOk 512 = true ∧ (¬512 ∈ S.ctl.adoptDue ∨ 512 = srcRt 0 ∧ ¬0 ∈ S.ctl.fabAt ∨ 512 =
      srcNi 0 ∧ srcRt (0 / 2) ∈ S.ctl.adoptDue) ∧ ¬512 ∈ S.ctl.ringDue ∧ S.ctl.prevLive = false ∧ (S.ctl.prevLive = false ∨
      S.ctl.reportDue ≠ []) ∧ (S.flag (pgRt 0) ROUTER.RT_EPOCH_PREV_LIVE = false ∨ S.holdsEpoch 0 (S.rd (pgRt 0)
      ROUTER.RT_EPOCH_PREV) = false)) ∧
    On (ct (fun c => { c with prevLive := true })) (fun S => S.inReset = false ∧ S.ctl.prevLive = true ∧ ¬srcRt 0 ∈
      S.ctl.adoptDue ∧ S.holdsEpoch 0 (S.rd (pgRt 0) ROUTER.RT_EPOCH_PREV) = false ∧ S.ctl.reportDue = [] ∧ S.ctl.tileCmd =
      none) ∧
    On (ct (fun c => { c with mapped := true, wantMap := true })) (fun S => S.inReset = false ∧ S.ctl.prevLive = false ∧
      S.ctl.mapped = true ∧ S.ctl.wantMap = true ∧ S.soak = false ∧ S.ctl.dormant.length < 144 ∧ (attachOf
      S.newMap.rects).isSome = true) ∧
    On (ct (fun c => { c with adoptDue := [0x200], epoch := 3, fabAt := [0] })) (fun S => 512 = srcNi 0 ∧ S.inReset = false
      ∧ 512 ∈ S.ctl.adoptDue ∧ ¬srcRt (0 / 2) ∈ S.ctl.adoptDue ∧ S.stTile (0 / 2) ≤ 1 ∧ S.kilnIsolates 512 = false ∧ (S.ep
      0).send = [] ∧ (S.ni 0).feTags = [] ∧ (∀ (k : Fin 4), k ∈ [] → ↑k < 3)) ∧
    On (ct (fun c => { c with epoch := 3, ringDue := [0x200], prevLive := true, reportDue := [0, 1] })) (fun S => 512 =
      srcNi 0 ∧ S.inReset = false ∧ 512 ∈ S.ctl.ringDue ∧ ¬512 ∈ S.ctl.adoptDue) ∧
    On (mkR [(pgRt 0, ROUTER.RT_EPOCH_PREV_LIVE, 1)] (fun s => s.setVcq 0 0 3 1
      [{ body := .head ({ dest := 8, src := 4, type := tRead } : Hdr).glaze 0, vc := 1, tail := true }])) (fun S =>
      S.inReset = false ∧ S.flag (pgRt 0) ROUTER.RT_EPOCH_PREV_LIVE = true ∧ S.holdsEpoch 0 (S.rd (pgRt 0)
      ROUTER.RT_EPOCH_PREV) = true) := by
  and_intros <;> decide +kernel

end BanksMaps

namespace Tables2

def ebd (l : List (Nat × Field × Nat) := []) (f : Seg → Seg := id) :=
  mkR ([(pgSeg, SEG.SEG_CTRL_EXPERT_EN, 1), (pgSeg, SEG.SEG_CTRL_MODE, 1)] ++ l) f

theorem test_meets_BankOwnershipAndScrub :
    At (ebd [(pgBank 0, BANK.SCRUB_CFG_SCRUB_EN, 0), (pgBank 0, PAGE.PAGE_CTRL_ENABLE, 0)]) (fun s S => S.inReset = false ∧
      S.flag (pgBank 0) BANK.SCRUB_CFG_SCRUB_EN = false ∧ wayOpen S Requester.mp (pgBank 0) (1024 + 4 * 0) ∧ s.stampBad
      Requester.mp = false ∧ S.expertEn = true ∧ S.enabled (pgBank 0) = false) := by
  and_intros <;> decide +kernel

end Tables2

namespace Flow

def upf (x : Ni → Ni := id) (l : List (Nat × Field × Nat) := []) (f := fun s : Seg => s) :=
  mkR ([(pgNi 0, PAGE.PAGE_CTRL_ENABLE, 1), (pgNi 0, NI.NI_POL_CFG_POL_EN, 1), (pgFlow, PAGE.PAGE_CTRL_ENABLE, 1)] ++ l) fun s => f (s.setNi 0 (x { clk := true, arstN := true, up := true }))
def cf (meter : Nat) : BitVec 64 := BitVec.ofNat 64 (100 + 100 * 2 ^ 11 + 20 * 2 ^ 33 + 20 * 2 ^ 39 + meter * 2 ^ 53)
def ent : Entry :=
  { id := 2, hdr := { dest := 4, type := tRead, len := 64, fid := 5, cls := 3 }, phase := .queued, bindClass := 2 }
def wy (m tc : Nat) (c : Int := 0) : Way := { idx := 5, cfg := cf m, tc := tc, tp := tc, credit := c }
def fp (code : BitVec 3) : Packet :=
  { plane := .rsp, hdr := { dest := 0, src := 0x200, type := tCpl, tag := 1, code := code }, imm := BitVec.ofNat 768 ((cf 1).toNat * 2 ^ 64 + 0x1234567800000000 + 77) }
def fe (kind : Nat) (code : BitVec 3) (y : Ni → Ni := id) :=
  upf fun x => y { x with feIn := [fp code], feTags := [(1, 10 + kind)] }
def f1 :=
  fe 0 cOk (fun x => { x with cache := [{ idx := 5, fetch := true, used := 3 }], store := [{ ent with phase := .intake }] })
def f2 := fe 0 cDecerr (fun x => { x with cache := [{ idx := 5, fetch := true, used := 3 }] })
def f3 := fe 1 cOk (fun x => { x with cache := [{ wy 1 5 with wb := 1 }] })
def f4 := fe 1 cStfail (fun x => { x with cache := [{ wy 1 5 with wb := 1 }] })
def taken (s : State) (k : Nat) : Seg := (((s.seg 0).takeFe 0 5 k).map (·.1)).getD (s.seg 0)

theorem test_meets_FlowContexts :
    On (mk0 (fun s => s.setStTile 0 4)) (fun S => S.inReset = false ∧ S.niRuns 0 = false ∧ S.takeFe 0 5 0 = none ∧ (∀ (v :
      Way), (S.ni 0).way 5 = some v → v.dirty = false ∨ v.wb ≠ 0) ∧ S.takeFe 0 5 1 = none ∧ ((S.ni 0).way 5 = none ∨
      S.flowOn = false)) ∧
    On (f4) (fun S => S.inReset = false ∧ S.takeFe 0 5 1 = some (taken f3 1, fp cStfail) ∧ (fp cStfail).hdr.code = cStfail ∧
      ((((taken f3 1).ni 0).store.any fun x => x.phase == Phase.intake) = false) ∧ (With ({ wy 1 5 with wb := 1 } : Way) fun
      w => (S.ni 0).way 5 = some w ∧ ¬(16384 ≤ (S.ageNow 0 - w.last).toNat ∧ w.fetch = false ∧ w.unavail = false))) ∧
    On (f1) (fun S => S.inReset = false ∧ S.takeFe 0 5 0 = some (taken f1 0, fp cOk) ∧ (fp cOk).hdr.code = cOk ∧ (fp
      cOk).hdr.poison = false) ∧
    On (f2) (fun S => S.inReset = false ∧ S.takeFe 0 5 0 = some (taken f2 0, fp cDecerr) ∧ ((fp cDecerr).hdr.code ≠ cOk ∨
      (fp cDecerr).hdr.poison = true) ∧ ((taken f2 0).ni 0).intake 5 = [] ∧ ((taken f2 0).ni 0).queue 5 = []) ∧
    On (f3) (fun S => S.inReset = false ∧ S.takeFe 0 5 1 = some (taken f3 1, fp cOk) ∧ (fp cOk).hdr.code = cOk ∧ ((((taken
      f3 1).ni 0).store.any fun x => x.phase == Phase.intake) = false) ∧ (With ({ wy 1 5 with wb := 1 } : Way) fun w =>
      ((taken f3 1).ni 0).way 5 = some w ∧ w.evict = false)) ∧
    On (upf (fun x => { x with store := [ent], cache := [wy 1 3] })) (fun S => S.inReset = false ∧ S.niRuns 0 = true ∧ (S.ni
      0).store = [ent] ∧ ent.phase = Phase.queued ∧ flowIdx ent.hdr.fid = 5 ∧ S.policed 0 5 = true ∧ (S.ni 0).way 5 = some
      (wy 1 3) ∧ (wy 1 3).fetch = false ∧ (wy 1 3).unavail = false ∧ cfgShape (wy 1 3).cfg = 0 ∧ colourOf (((wy 1 3).update
      (S.ageNow 0) 1).touch (S.unitTime 0)) ent (costOf ent.hdr.type ent.hdr.len.toNat * 65536) = 2 ∧ (isPosted ent.hdr.type
      && cfgRedDrop (wy 1 3).cfg) = false ∧ neverConforms (((wy 1 3).update (S.ageNow 0) 1).touch (S.unitTime 0)) (costOf
      ent.hdr.type ent.hdr.len.toNat * 65536) = false ∧ ent.redHeld = false) ∧
    On (upf (fun x => { x with store := [ent], cache := [wy 0 0 (-5)] })) (fun S => S.inReset = false ∧ S.niRuns 0 = true ∧
      (S.ni 0).store = [ent] ∧ ent.phase = Phase.queued ∧ flowIdx ent.hdr.fid = 5 ∧ S.policed 0 5 = true ∧ (S.ni 0).way 5 =
      some (wy 0 0 (-5)) ∧ (wy 0 0 (-5)).fetch = false ∧ (wy 0 0 (-5)).unavail = false ∧ cfgShape (wy 0 0 (-5)).cfg = 0 ∧
      colourOf (((wy 0 0 (-5)).update (S.ageNow 0) 1).touch (S.unitTime 0)) ent (costOf ent.hdr.type ent.hdr.len.toNat *
      65536) = 0) ∧
    On (upf (fun x => { x with cache := [{ wy 1 3 with unavail := true }] })) (fun S => S.inReset = false ∧ S.flowOn = true
      ∧ (With ({ wy 1 3 with unavail := true } : Way) fun w => (S.ni 0).way 5 = some w ∧ w.unavail = true ∧ w.fetch =
      false)) ∧
    On (upf (fun x => { x with cache := [{ wy 1 3 with last := 10000 }] }) [] id) (fun S => S.inReset = false ∧ (With
      ({ wy 1 3 with last := 10000 } : Way) fun w => (S.ni 0).way 5 = some w ∧ 16384 ≤ (S.ageNow 0 - w.last).toNat ∧ w.fetch
      = false ∧ w.unavail = false)) ∧
    On (upf (fun x => { x with cache := [{ wy 1 3 with dirty := true, dirtyAt := 3 }] })) (fun S => S.inReset = false ∧
      S.niRuns 0 = true ∧ (With ({ wy 1 3 with dirty := true, dirtyAt := 3 } : Way) fun w => (S.ni 0).way 5 = some w ∧
      w.dirty = true ∧ w.wb = 0 ∧ w.unavail = false ∧ w.fetch = false)) ∧
    On (upf (fun x => { x with store := [ent], cache := [wy 1 3] }) [(pgNi 0, NI.NI_POL_CFG_POL_EN, 0)]) (fun S => S.inReset
      = false ∧ S.niRuns 0 = true ∧ (S.ni 0).store = [ent] ∧ ent.phase = Phase.queued ∧ flowIdx ent.hdr.fid = 5 ∧ S.policed
      0 5 = false) := by
  and_intros <;> decide +kernel

end Flow

namespace Frames

def cf (meter : Nat) : BitVec 64 := BitVec.ofNat 64 (100 + 100 * 2 ^ 11 + 20 * 2 ^ 33 + 20 * 2 ^ 39 + meter * 2 ^ 53)
def wy (m tc : Nat) (c : Int := 0) : Way := { idx := 5, cfg := cf m, tc := tc, tp := tc, credit := c }
def fw (l : List (Nat × Field × Nat) := []) (f := fun s : Seg => s) :=
  mkR ([(pgFlow, PAGE.PAGE_CTRL_ENABLE, 1), (pgFlow, PAGE.PAGE_STAT_ENABLED, 1), (pgFlow, FLOWWIN.INIT_LAST, 2)] ++ l) f
def old (s : Seg) : Seg := s.setBankCtx 5 ((cf 1).toNat * 2 ^ 64 + 0x1234567800000000 + 30000)
def cfn (ot : BitVec 2) (raw sh : Bool) : Notice := ⟨5, ot, cf 2, sh, true, raw⟩
def cn (c : Notice) (x : Ni → Ni := id) :=
  fw [] fun s => (s.modCtl fun y => { y with notice := some c, noticeDue := [0, 3] }).modNi 0 x
def bn (tx rx : Nat) (f : Bundle → Bundle := id) (l : List (Nat × Field × Nat) := []) (gf : Seg → Seg := id) :=
  mkR l fun s => gf (((s.setBunTx 0 3 tx).setBunRx 0 3 rx).modBun 0 3 f)
def gfl : Flit := { body := .data 5, vc := 1, tail := true, idx := 1 }
def tfr (n : BitVec 8) : TxFrame := { fsn := n, plane := .req, flit := gfl }

theorem test_meets_FlowWindow :
    At (fw [] old) (fun s S => wayOpen S Requester.mp pgFlow 256 ∧ s.stampBad Requester.mp = false ∧ S.flag pgFlow
      FLOWWIN.FW_CMD_BUSY = false ∧ S.fwCheck 5 = 0 ∧ S.rd pgFlow FLOWWIN.INIT_FIRST ≤ S.rd pgFlow FLOWWIN.INIT_LAST ∧
      S.inReset = false ∧ S.enabled pgFlow = true ∧ S.sliceUsable (sliceOf 5) = true ∧ S.ctxPoisoned 5 = false ∧ 16384 ≤
      (S.ctxNow 5 - (Way.ofBank 5 (BitVec.ofNat 128 (S.bankCtx 5))).last).toNat ∧ (S.ctl.notice = none ∨ ¬0 ∈
      S.ctl.noticeDue) ∧ (S.ctl.recalled = none ∨ ¬0 ∈ S.ctl.recallDue) ∧ (S.ctl.recallAll = none ∨ ¬0 ∈ S.ctl.recallAllDue)
      ∧ ¬0 ∈ S.ctl.disableDue) ∧
    At (fw [] (fun s => s.setStBank 0 4)) (fun s S => wayOpen S Requester.mp pgFlow 256 ∧ s.stampBad Requester.mp = false ∧
      S.flag pgFlow FLOWWIN.FW_CMD_BUSY = false ∧ S.fwCheck 5 ≠ 0 ∧ S.inReset = false ∧ (S.enabled pgFlow = false ∨
      S.sliceUsable (sliceOf 5) = false)) ∧
    On (cn (cfn 1 false false)) (fun S => S.inReset = false ∧ S.ctl.notice = some (cfn 1 false false) ∧ 0 ∈ S.ctl.noticeDue
      ∧ S.noticed 0 = true ∧ S.stTile (0 / 2) ≤ 1 ∧ (S.ni 0).resetting = false ∧ (cfn 1 false false).idx = 5 ∧ (S.ni 0).way
      5 = none) ∧
    At (fw [(pgFlow, FLOWWIN.INIT_FIRST, 4)]) (fun s S => wayOpen S Requester.mp pgFlow 256 ∧ s.stampBad Requester.mp =
      false ∧ S.flag pgFlow FLOWWIN.FW_CMD_BUSY = false ∧ S.rd pgFlow FLOWWIN.INIT_LAST < S.rd pgFlow FLOWWIN.INIT_FIRST) ∧
    On (cn (cfn 1 false false) (fun x => { x with cache := [wy 1 9 (-3)] })) (fun S => S.inReset = false ∧ S.ctl.notice =
      some (cfn 1 false false) ∧ 0 ∈ S.ctl.noticeDue ∧ S.noticed 0 = true ∧ S.stTile (0 / 2) ≤ 1 ∧ (S.ni 0).resetting =
      false ∧ (cfn 1 false false).idx = 5 ∧ (S.ni 0).way 5 = some (wy 1 9 (-3)) ∧ (wy 1 9 (-3)).fetch = false ∧ cfgOtag (wy
      1 9 (-3)).cfg ≠ (cfn 1 false false).otag.toNat ∧ (cfn 1 false false).raw = false ∧ (cfn 1 false false).shapeCh =
      false) ∧
    On (fw [] (fun s => (s.modCtl fun c => { c with disableDue := [0] }).modNi 0 fun x => { x with cache := [wy 1 9] }))
      (fun S => S.inReset = false ∧ 0 ∈ S.ctl.disableDue ∧ S.noticed 0 = true ∧ S.stTile (0 / 2) ≤ 1 ∧ (S.ni 0).resetting =
      false ∧ (((S.ni 0).cache.any fun x => x.dirty) = false) ∧ (((S.ni 0).store.any fun e => e.phase == Phase.queued ||
      e.phase == Phase.intake) = false)) ∧
    On (fw [] (fun s => (s.modCtl fun c => { c with recalled := some 5, recallDue := [0] }).modNi 0 fun x =>
      { x with cache := [wy 1 9] })) (fun S => S.inReset = false ∧ S.ctl.recalled = some 5 ∧ 0 ∈ S.ctl.recallDue ∧ S.noticed
      0 = true ∧ S.stTile (0 / 2) ≤ 1 ∧ (S.ni 0).resetting = false) ∧
    On (fw [] (fun s => (s.modCtl fun c => { c with recallAll := some (4, 6), recallAllDue := [0, 1] }).modNi 0 fun x =>
      { x with cache := [wy 1 9] })) (fun S => S.inReset = false ∧ S.ctl.recallAll = some (4, 6) ∧ 0 ∈ S.ctl.recallAllDue ∧
      S.noticed 0 = true ∧ S.stTile (0 / 2) ≤ 1 ∧ (S.ni 0).resetting = false ∧ (S.ctl.recallAllDue.erase 0).any S.noticed =
      true) := by
  and_intros <;> decide +kernel

theorem test_meets_FramesAndReplay :
    On (bn 2 2 (fun x => { x with replay := [tfr 1], replays := 16, rxbuf := [(3, [(gfl, 489)])] }) [] (fun s => s.modPins
      fun p => { p with bypOpen := true })) (fun S => S.inReset = false ∧ running (S.bunRx 0 3) = true ∧ running (S.bunTx 0
      3) = true ∧ ((S.bun 0 3).acked 2).replays < 16 ∧ (S.bun 0 3).replay ≠ [] ∧ 16 ≤ (S.bun 0 3).replays ∧ S.pins.bypOpen =
      true ∧ (S.bun 0 3).got Plane.req.code 3 = [(gfl, 489)] ∧ ((S.tftb (edgeTile 0 3)).toNat % 512 + 1024 - (489 + 23)) %
      512 = 0 ∧ (S.bun 0 3).got Plane.rsp.code 3 = [] ∧ (With ({ ack := 3, cidx := 1, ccnt := 255 } : RxFrame) fun f =>
      (running ((if f.resync = true then (S.modBun 0 3 fun x => { x with resynced := true, discard := false }).laneAdopt 0 3
      else S).bunRx 0 3) = true) ∧ f.good = true ∧ f.known = true ∧ f.flit = none ∧ (((if f.resync = true then (S.modBun 0 3
      fun x => { x with resynced := true, discard := false }).laneAdopt 0 3 else S).bun 0 3).discard = false)) ∧ (With
      ({ crcOk := false } : RxFrame) fun f => (running ((if f.resync = true then (S.modBun 0 3 fun x =>
      { x with resynced := true, discard := false }).laneAdopt 0 3 else S).bunRx 0 3) = true) ∧ f.good = false)) ∧
    On (chkBase) (fun S => S.inReset = false ∧ running (S.bunRx 0 3) = false ∧ running (S.bunTx 0 3) = false ∧ S.bunTx 0 3 ≠
      1) ∧
    On (bn 2 2 (fun x => { x with rxFsn := 4, replay := [tfr 1, tfr 2, tfr 3] })) (fun S => S.inReset = false ∧ running
      (S.bunRx 0 3) = true ∧ running (S.bunTx 0 3) = true ∧ (S.bun 0 3).replay ≠ [] ∧ (S.bun 0 3).replays < 16 ∧ (With
      ({ vc := 1, fsn := 4, ack := 2, cidx := 3, ccnt := 2, plane := Plane.rsp, flit := some gfl, heads := [15 ^^^ 4] } :
      RxFrame) fun f => (running ((if f.resync = true then (S.modBun 0 3 fun x =>
      { x with resynced := true, discard := false }).laneAdopt 0 3 else S).bunRx 0 3) = true) ∧ f.good = true ∧ f.known =
      true ∧ f.flit = some gfl ∧ (((if f.resync = true then (S.modBun 0 3 fun x =>
      { x with resynced := true, discard := false }).laneAdopt 0 3 else S).bun 0 3).discard = false) ∧ bunDepth f.plane f.vc
      ≠ 0 ∧ f.fsn = (S.bun 0 3).rxFsn)) ∧
    On (bn 1 1 (fun x => { x with kindle := 3 })) (fun S => S.inReset = false ∧ S.bunTx 0 3 = 1 ∧ 0 < (S.bun 0 3).kindle) ∧
    On (bn 1 1 (fun x => { x with slots := 14 })) (fun S => S.inReset = false ∧ S.bunTx 0 3 = 1 ∧ (S.bun 0 3).kindle = 0 ∧
      ({ S.bun 0 3 with slots := (S.bun 0 3).slots + 1 }).slots % 16 ≠ 0) ∧
    On (bn 1 1 (fun x => { x with slots := 15 })) (fun S => S.inReset = false ∧ S.bunTx 0 3 = 1 ∧ (S.bun 0 3).kindle = 0 ∧
      ({ S.bun 0 3 with slots := (S.bun 0 3).slots + 1 }).slots % 16 = 0) ∧
    On (bn 3 2 (fun x => { x with slots := 1023 })) (fun S => S.inReset = false ∧ running (S.bunTx 0 3) = true ∧
      ({ S.bun 0 3 with slots := (S.bun 0 3).slots + 1 }).slots % 1024 = 0) ∧
    On (bn 2 2 (fun x => { x with after := some (.nak 3) })) (fun S => S.inReset = false ∧ running (S.bunTx 0 3) = true ∧
      ({ S.bun 0 3 with slots := (S.bun 0 3).slots + 1 }).slots % 1024 ≠ 0 ∧ (S.bun 0 3).left = 0 ∧ (S.bun 0 3).laneDue =
      none ∧ (S.bun 0 3).nakDue = false ∧ (S.bun 0 3).resend = [] ∧ (S.bun 0 3).after = some (Frame.nak 3)) ∧
    On (bn 2 2 (fun x => { x with resend := [tfr 1, tfr 2] })) (fun S => S.inReset = false ∧ running (S.bunTx 0 3) = true ∧
      ({ S.bun 0 3 with slots := (S.bun 0 3).slots + 1 }).slots % 1024 ≠ 0 ∧ (S.bun 0 3).left = 0 ∧ (S.bun 0 3).laneDue =
      none ∧ (S.bun 0 3).nakDue = false ∧ (S.bun 0 3).resend = [tfr 1, tfr 2]) ∧
    On (bn 2 2 (fun x => { x with laneDue := some (3, true, 7) })) (fun S => S.inReset = false ∧ running (S.bunTx 0 3) =
      true ∧ ({ S.bun 0 3 with slots := (S.bun 0 3).slots + 1 }).slots % 1024 ≠ 0 ∧ (S.bun 0 3).left = 0 ∧ (S.bun 0
      3).laneDue.isSome = true) := by
  and_intros <;> decide +kernel

end Frames

namespace Lanes

def bn (tx rx : Nat) (f : Bundle → Bundle := id) (l : List (Nat × Field × Nat) := []) (gf : Seg → Seg := id) (b : Nat := 3) :=
  mkR l fun s => gf (((s.setBunTx 0 b tx).setBunRx 0 b rx).modBun 0 b f)
def byp (s : Seg) : Seg := s.modPins fun p => { p with bypOpen := true }
def hfl : Flit := { body := .head ({ dest := 8, src := 4, type := tRead } : Hdr) 0, vc := 1 }
def tfr (n : BitVec 8) : TxFrame := { fsn := n, plane := .req, flit := hfl }
def all17 : BitVec 17 := BitVec.allOnes 17
def jn (s : Seg) : Seg := s.wr pgSeg SEG.SEG_ID_JOINED 1
def ep (l : List (Nat × Field × Nat) := []) (f : Seg → Seg := id) :=
  mkR ([(pgSeg, SEG.SEG_CTRL_EXPERT_EN, 1), (pgSeg, SEG.SEG_CTRL_MODE, 1)] ++ l) f
def ow (bk : Nat) (l : List (Nat × Nat)) (s : Seg) : Seg := { s with bslots := (l.map fun e => (kBslot 0 bk 3 e.1, e.2)) }

theorem test_meets_LanesSleepAndBundleSlots :
    At (ep [] byp) (fun s S => S.inReset = false ∧ (running (S.bunRx 0 3) = false ∨ ((Option.map (fun x => x.fst) (S.bun 0
      3).laneNext).getD (S.bun 0 3).rxMap).getLsbD 0 = false) ∧ (S.bunRx 0 3 = 1 ∧ (S.bun 0 3).keepRx = false ∨ S.bunRx 0 3
      ≠ 1 ∧ running (S.bunTx 0 3) = false) ∧ S.bunTx 0 3 ≠ 1 ∧ S.bunRx 0 3 ≠ 1 ∧ S.bunTx 0 3 ≠ 5 ∧ S.pins.bypOpen = true ∧
      S.joinState ≠ 1 ∧ wayOpen S Requester.mp (pgBr 0) 1040 ∧ s.stampBad Requester.mp = false ∧ S.expertEn = true ∧
      (running (S.bunTx 0 3) = false ∨ S.sleepEn 0 = false ∨ (S.bun 0 3).replay ≠ []) ∧ (running (S.bunRx 0 3) = false ∨
      (List.filter (fun l => all17.getLsbD l) (laneMap (S.bun 0 3).rxMap (S.bunRx 0 3 == 3))).length < 9) ∧ S.bunTx 0 3 ≠ 4
      ∧ ¬(4, 8) ∈ (S.bun 0 (rowMate 3)).pairs ∧ (S.joined = false ∨ (S.br 0).up = false) ∧ (S.br 0).retrain = false ∧
      wayOpen S Requester.mp (pgBr 0) 1032 ∧ S.flag (pgBr 0) BR.BSLOT_ADDR_BANK = false ∧ S.rd (pgBr 0) BR.BSLOT_ADDR_BUNDLE
      < 24 ∧ S.bswapBusy 0 = false ∧ wayOpen S Requester.mp (pgBr 0) 1024 ∧ S.bslotRefusal 0 = none) ∧
    On (bn 4 4 id [] (fun s => s.setStTile 23 0)) (fun S => S.inReset = false ∧ S.bunTx 0 3 = 4 ∧ S.rd pgPwr
      PWR.PWR_SEG_STAT_LEVEL ≠ 3 ∧ S.bunRx 0 3 = 4 ∧ S.stTile (edgeTile 0 3) = 0 ∧ S.ctl.halted = false) ∧
    At (ep [(pgBr 0, BR.BSLOT_STAT_SWAP_PEND, 1)]) (fun s S => wayOpen S Requester.mp (pgBr 0) 1024 ∧ s.stampBad
      Requester.mp = false ∧ S.expertEn = true ∧ S.bswapBusy 0 = true) ∧
    On (mk0 (fun s => s.setBr 0 { s.br 0 with retrain := true })) (fun S => S.inReset = false ∧ (S.br 0).retrain = true ∧
      (S.br 0).up = false ∧ S.pins.bypOpen = false) ∧
    At (ep [] (ow 1 [(5, 1), (7, 2)])) (fun s S => wayOpen S Requester.mp (pgBr 0) 1024 ∧ s.stampBad Requester.mp = false ∧
      S.expertEn = true ∧ S.bswapBusy 0 = false ∧ S.bslotRefusal 0 = some (2, 3)) ∧
    At (ep [(pgBr 0, BR.BSLOT_ADDR_BANK, 1)]) (fun s S => wayOpen S Requester.mp (pgBr 0) 1032 ∧ s.stampBad Requester.mp =
      false ∧ S.expertEn = true ∧ S.flag (pgBr 0) BR.BSLOT_ADDR_BANK = true) ∧
    On (bn 1 0 id [(pgBr 0, BR.LANE_CMD_BUNDLE, 7)]) (fun S => S.inReset = false ∧ S.bunRx 0 3 ≠ 1 ∧ S.bunTx 0 3 = 1 ∧
      (S.bun 0 3).keepTx = false ∧ widthOf all17 ≠ 5) ∧
    On (mk0 (fun s => jn ((s.setBr 0 { s.br 0 with up := true })))) (fun S => S.inReset = false ∧ S.joined = true ∧ (S.br
      0).up = true) ∧
    On (bn 1 0 (fun x => { x with keepTx := true, txMap := all17 }) [(pgBr 0, BR.LANE_CMD_BUNDLE, 7)]) (fun S => S.inReset =
      false ∧ S.bunRx 0 3 ≠ 1 ∧ S.bunTx 0 3 = 1 ∧ (S.bun 0 3).keepTx = true ∧ widthOf ((S.bun 0 3).txMap &&& all17) ≠ 5) ∧
    On (bn 2 2 id [] (fun s => s.modBun 0 2 fun x => { x with pairs := [(4, 8)], replay := [tfr 3] })) (fun S => S.inReset =
      false ∧ (4, 8) ∈ (S.bun 0 (rowMate 3)).pairs ∧ S.holdsPair 0 (rowMate 3) (4, 8) = true ∧ ¬(4, 8) ∈ (S.bun 0 (rowMate
      3)).stay) ∧
    On (bn 2 2 (fun x => { x with fsn := 3 }) [(pgBr 0, BR.BR_CTRL_SLEEP_EN, 1)] (fun s => (s.setBunTx 0 2 2).setBunRx 0 2
      2)) (fun S => S.inReset = false ∧ running (S.bunTx 0 3) = true ∧ S.sleepEn 0 = true ∧ S.timeBundle 0 ≠ some 3 ∧
      S.ownedStart 0 3 = false ∧ running (S.bunTx 0 (rowMate 3)) = true ∧ (S.bun 0 3).txq = [] ∧ (S.bun 0 3).replay = [] ∧
      (S.bun 0 3).cred = [] ∧ (S.bun 0 3).rxbuf = [] ∧ (S.bun 0 3).ackOwed = false ∧ (S.bun 0 3).nakDue = false ∧ (S.bun 0
      3).laneDue = none ∧ (S.bun 0 3).after = none ∧ (S.bun 0 3).resyncDue = false ∧ (S.bun 0 3).claim = 0 ∧ ((S.bun 0
      3).left = 0 ∨ Option.all (fun e => e.frame == Frame.idle) (S.bun 0 3).cur = true)) := by
  and_intros <;> decide +kernel

end Lanes

namespace RingStates

def bn (tx rx : Nat) (f : Bundle → Bundle := id) (l : List (Nat × Field × Nat) := []) (gf : Seg → Seg := id) (b : Nat := 3) :=
  mkR l fun s => gf (((s.setBunTx 0 b tx).setBunRx 0 b rx).modBun 0 b f)
def gfl : Flit := { body := .data 5, vc := 1, tail := true, idx := 1 }
def all17 : BitVec 17 := BitVec.allOnes 17
def jn (s : Seg) : Seg := s.wr pgSeg SEG.SEG_ID_JOINED 1
def h0 : Hello := ⟨2, true, true, 1, 0, 0, 0, 0, 0, 0, 6⟩
def h1 : Hello := ⟨1, true, true, 1, 0, 0, 0, 0, 0, 0, 6⟩
def h2 : Hello := ⟨1, false, false, 1, 0, 0, 0, 0, 0, 0, 0⟩
def sw (l : List (Nat × Field × Nat) := []) (f := fun s : Seg => s) :=
  mkR ([(pgClk, CLK.CLK_STAT_SWITCHED, 1), (pgFlow, PAGE.PAGE_CTRL_ENABLE, 0)] ++ l) f
def js (v : Nat) (f : Seg → Seg := id) :=
  mkR [(pgBr 0, BR.RING_STAT_JOIN_STATE, v)] fun s => f ((s.setBr 0 { s.br 0 with up := true }).modPins fun p => { p with bypOpen := true })
def rg (f : Ring → Ring) (s : Seg) : Seg := s.modCtl fun c => { c with ring := f c.ring }
def mem2 : Seg → Seg := rg fun r => { r with joined := 3, anchorValid := true }
def jsR (v : Nat) (r : Ring) (f : Seg → Seg := id) := js v (fun s => f (jn (rg (fun _ => r) s)))
def anc (s : Seg) : Seg := s.wr pgSeg SEG.SEG_ID_ANCHOR 1
def js7a := js 7 (rg fun r => { r with joined := 2, ver := 5 })

theorem test_meets_LanesSleepAndBundleSlots :
    On (bn 2 2 (fun x => { x with txMap := all17, rxMap := 0xFF })) (fun S => S.inReset = false ∧ running (S.bunRx 0 3) =
      true ∧ (((Option.map (fun x => x.fst) (S.bun 0 3).laneNext).getD (S.bun 0 3).rxMap).getLsbD 0 = true) ∧ (widthOf
      ((Option.map (fun x => x.fst) (S.bun 0 3).laneNext).getD (S.bun 0 3).rxMap &&& ~~~BitVec.ofNat 17 (2 ^ 0)) = 5) ∧
      S.bunRx 0 3 ≠ 1 ∧ running (S.bunTx 0 3) = true ∧ widthOf all17 ≠ 5 ∧ (S.bun 0 3).replays < 16 ∧ ((S.bun 0 3).txMap ≠
      all17 &&& ~~~BitVec.ofNat 17 (2 ^ 0) ∨ S.bunTx 0 3 ≠ if false = true then 3 else widthOf all17) ∧ (S.bun 0 3).txMap =
      all17 &&& ~~~BitVec.ofNat 17 (2 ^ 31) ∧ (S.bunTx 0 3 = if false = true then 3 else widthOf all17) ∧ (9 ≤ (List.filter
      (fun l => all17.getLsbD l) (laneMap (S.bun 0 3).rxMap (S.bunRx 0 3 == 3))).length)) ∧
    On (bn 2 1 (fun x => { x with keepRx := true, rxMap := all17, rxbuf := [(3, [(gfl, 5)])] })) (fun S => S.inReset = false
      ∧ S.bunRx 0 3 = 1 ∧ (S.bun 0 3).keepRx = true ∧ (S.bunTx 0 3 = 1 ∨ S.bunRx 0 3 = 1) ∧ S.bunTx 0 3 ≠ 1) := by
  and_intros <;> decide +kernel

theorem test_meets_JoinAndLeave :
    At (js 5 (fun s => jn (mem2 s))) (fun s S => wayOpen S Requester.mp (pgBr 0) 288 ∧ s.stampBad Requester.mp = false ∧
      (S.switched = false ∨ S.enabled pgFlow = true) ∧ S.joined = true ∧ S.joinState ≠ 7 ∧ S.isAnchor = false ∧ S.flag pgSeg
      SEG.SEG_ID_ANCHOR = false ∧ S.inReset = false ∧ S.ctl.admitting = none ∧ (S.br 0).up = true ∧ S.joinState = 5 ∧
      ↑h2.segNum ≠ S.strap ∧ h2.joined = false ∧ ↑h0.segNum ≠ S.strap ∧ h0.joined = true ∧ h0.anchorValid = true ∧ h0.anchor
      ≠ S.ctl.ring.anchor ∧ (S.joinState = 0 ∨ 5 ≤ S.joinState) ∧ (S.joinState ≠ 4 ∨ S.ctl.okTime < 4) ∧ (With
      ({ h1 with anchor := 0 } : Hello) fun h => ↑h.segNum ≠ S.strap ∧ h.joined = true ∧ (h.anchorValid = false ∨ h.anchor =
      S.ctl.ring.anchor))) ∧
    At (js 4 (fun s => s.modCtl fun c => { c with okTime := 4, hellos := [(0, h1)] })) (fun s S => wayOpen S Requester.mp
      (pgBr 0) 288 ∧ s.stampBad Requester.mp = false ∧ S.joined = false ∧ S.inReset = false ∧ (S.br 0).up = true ∧
      ↑h0.segNum ≠ S.strap ∧ (S.joinState = 3 ∨ S.joinState = 4) ∧ ((((S.wr (pgBr 0) BR.BR_STAT_SELF_LOOP 0).wr (pgBr 0)
      BR.BR_STAT_FAR_VALID 1).wr (pgBr 0) BR.BR_STAT_FAR_SEG ↑h0.segNum).noteBridge 0).helloReason 0 h0 = 1 ∧ ↑h2.segNum ≠
      S.strap ∧ ((((S.wr (pgBr 0) BR.BR_STAT_SELF_LOOP 0).wr (pgBr 0) BR.BR_STAT_FAR_VALID 1).wr (pgBr 0) BR.BR_STAT_FAR_SEG
      ↑h2.segNum).noteBridge 0).helloReason 0 h2 = 0 ∧ 1 ≤ S.joinState ∧ S.joinState ≤ 4 ∧ S.joinState = 4 ∧ 4 ≤
      S.ctl.okTime ∧ (With ({ joined := 3, anchorValid := true, ver := 4 } : Ring) fun ring => ring.joined.getLsbD S.strap =
      true)) ∧
    At (mk0 (fun s => (anc (mem2 s)).modCtl fun c => { c with admitting := some 1 })) (fun s S => wayOpen S Requester.mp
      (pgBr 0) 288 ∧ s.stampBad Requester.mp = false ∧ S.flag pgSeg SEG.SEG_ID_ANCHOR = true ∧ S.ctl.ring.joined.getLsbD 2 =
      false ∧ S.ctl.ring.members ≠ [S.strap] ∧ S.ctl.rebuild = none ∧ S.inReset = false ∧ S.ctl.admitting = some 1 ∧ (S.br
      0).up = false) ∧
    At (sw) (fun s S => wayOpen S Requester.mp (pgBr 0) 288 ∧ s.stampBad Requester.mp = false ∧ S.switched = true ∧
      S.enabled pgFlow = false ∧ S.firstC1 = none ∧ (S.joinState = 0 ∨ S.joinState = 6)) ∧
    At (js 5 (fun s => anc (jn (mem2 s)))) (fun s S => wayOpen S Requester.mp (pgBr 0) 288 ∧ s.stampBad Requester.mp = false
      ∧ S.joined = true ∧ S.joinState ≠ 7 ∧ S.isAnchor = true ∧ S.ctl.ring.members ≠ [S.strap] ∧ S.ctl.rebuild = none) ∧
    At (js 5 (fun s => anc (jn (rg (fun r => { r with joined := 1, anchorValid := true }) s)))) (fun s S => wayOpen S
      Requester.mp (pgBr 0) 288 ∧ s.stampBad Requester.mp = false ∧ S.joined = true ∧ S.joinState ≠ 7 ∧ S.isAnchor = true ∧
      S.ctl.ring.members = [S.strap]) := by
  and_intros <;> decide +kernel

theorem test_meets_RingStatesAndTime :
    On (mk0 (fun s => anc (mem2 s))) (fun S => S.inReset = false ∧ S.isAnchor = true ∧ S.ctl.rebuild = none ∧ 1 ≠ S.strap ∧
      S.ctl.ring.joined.getLsbD 1 = true ∧ (¬S.isAnchor = true ∨ 0 = S.strap) ∧ (S.joined = false ∨ S.ctl.ring.anchorValid =
      false ∨ ↑S.ctl.ring.anchor = S.strap) ∧ (S.timeBundle 0 = none ∨ (S.br 0).up = false) ∧ (S.br 0).up = false ∧ (With
      (⟨1, 0xFFF, 0, 5, 6, 1, 2, [], false⟩ : RingReport) fun rep => S.ctl.ring.joined.getLsbD ↑rep.seg = true ∧ rep.leave =
      false) ∧ (With (⟨2, 0xFFF, 0, 5, 6, 1, 2, [], false⟩ : RingReport) fun rep => S.ctl.ring.joined.getLsbD ↑rep.seg =
      false ∧ rep.leave = false) ∧ (With (⟨1, 0xFFF, 0, 5, 6, 1, 2, [], true⟩ : RingReport) fun rep =>
      S.ctl.ring.joined.getLsbD ↑rep.seg = true ∧ rep.leave = true) ∧ (With (⟨2, 0xFFF, 0, 5, 6, 1, 2, [], true⟩ :
      RingReport) fun rep => (¬S.isAnchor = true ∨ S.ctl.ring.joined.getLsbD ↑rep.seg = false ∧ rep.leave = true)) ∧ (With
      ({ joined := 3, anchorValid := true, ver := 4 } : Ring) fun ring => (S.joined = false ∧ S.joinState ≠ 7 ∨ S.joined =
      true ∧ ring.ver = S.ctl.ring.ver ∧ S.mismatched (pgBr 0) 296 = false))) ∧
    At (js 5 (fun s => jn ((s.setBunTx 0 3 2).setBunRx 0 3 2))) (fun s S => S.inReset = false ∧ ¬S.isAnchor = true ∧
      S.joined = true ∧ S.timeBundle 0 = some 3 ∧ (S.br 0).up = true ∧ (S.joined = true ∨ S.joinState = 4) ∧ S.joinState ≠ 4
      ∧ S.rd (pgBr 0) BR.RING_STAT_PARENT ≠ 0 + 1 ∧ ¬S.flag (pgBr 0) BR.BR_STAT_TIME_LOST = true ∧ S.pairOpen 0 = true ∧
      (With ({ joined := 3, anchorValid := true, ver := 4 } : Ring) fun ring => (ring.ver ≠ S.ctl.ring.ver ∨ S.mismatched
      (pgBr 0) 296 = true) ∧ ring.joined.getLsbD S.strap = true ∧ (S.ctl.admitting = none ∨ ring.joined =
      S.ctl.ring.joined)) ∧ (With ({ joined := 2, anchor := 1, anchorValid := true, ver := 5 } : Ring) fun ring => (ring.ver
      ≠ S.ctl.ring.ver ∨ S.mismatched (pgBr 0) 296 = true) ∧ ring.joined.getLsbD S.strap = false ∧ (S.joinState ≠ 7 ∨
      (ring.members.all fun n => (s.seg (Fin.ofNat 4 n)).hasAdopted ring.ver) = true)) ∧ (With (⟨0, 30, 40, 60, 5⟩ : Stamps)
      fun st => (¬(((st.t2 - st.t1).toInt - (st.t4 - st.t3).toInt) / 2 + signed16 (S.rd (pgBr 0) BR.TIME_ASYM) < -64 ∨ 64 <
      ((st.t2 - st.t1).toInt - (st.t4 - st.t3).toInt) / 2 + signed16 (S.rd (pgBr 0) BR.TIME_ASYM)) ∨ S.pairOpen 0 = false))
      ∧ (With (⟨300, 0, 5, 600, 0⟩ : Stamps) fun st => (((st.t2 - st.t1).toInt - (st.t4 - st.t3).toInt) / 2 + signed16 (S.rd
      (pgBr 0) BR.TIME_ASYM) < -64 ∨ 64 < ((st.t2 - st.t1).toInt - (st.t4 - st.t3).toInt) / 2 + signed16 (S.rd (pgBr 0)
      BR.TIME_ASYM)))) ∧
    On (mk0 (fun s => (anc (mem2 s)).modCtl fun c =>
      { c with rebuild := some ([1], { joined := 7, anchorValid := true, ver := 9 }) })) (fun S => S.inReset = false ∧
      S.isAnchor = true ∧ (With (⟨0, 0xFFF, 0, 5, 6, 1, 2, [⟨1, 2, 1, 2⟩], false⟩ : RingReport) fun rep =>
      S.ctl.ring.joined.getLsbD ↑rep.seg = true ∧ rep.leave = false ∧ (List.filter (fun x => x != ↑rep.seg) [1] ≠ [])) ∧
      (With ({ joined := 7, anchorValid := true, ver := 9 } : Ring) fun r0 => S.ctl.rebuild = some ([1], r0)) ∧ (With
      (⟨1, 0xFFF, 0, 5, 6, 1, 2, [], false⟩ : RingReport) fun rep => S.ctl.ring.joined.getLsbD ↑rep.seg = true ∧ rep.leave =
      false) ∧ (With (⟨1, 0xFFF, 0, 5, 6, 1, 2, [], false⟩ : RingReport) fun rep => With
      ({ joined := 7, anchorValid := true, ver := 9 } : Ring) fun r0 => S.ctl.rebuild = some ([↑rep.seg], r0))) ∧
    On (js 5 (fun s => jn ((rg (fun r => { r with joined := 3, anchorValid := true, anchor := 1 }) (s.wr (pgBr 0)
      BR.RING_STAT_PARENT 1))))) (fun S => S.inReset = false ∧ S.joined = true ∧ S.ctl.ring.anchorValid = true ∧
      ↑S.ctl.ring.anchor ≠ S.strap ∧ (S.br 0).up = true ∧ S.joinState ≠ 4 ∧ S.rd (pgBr 0) BR.RING_STAT_PARENT = 0 + 1 ∧
      ¬S.flag (pgBr 0) BR.BR_STAT_TIME_LOST = true ∧ (With (⟨0, 30, 40, 60, 5⟩ : Stamps) fun st => (¬(((st.t2 - st.t1).toInt
      - (st.t4 - st.t3).toInt) / 2 + signed16 (S.rd (pgBr 0) BR.TIME_ASYM) < -64 ∨ 64 < ((st.t2 - st.t1).toInt - (st.t4 -
      st.t3).toInt) / 2 + signed16 (S.rd (pgBr 0) BR.TIME_ASYM))))) ∧
    At (jsR 7 { joined := 3, anchorValid := true }) (fun s S => S.inReset = false ∧ S.joined = true ∧ S.joinState = 7 ∧
      (With ({ joined := 2, anchor := 1, anchorValid := true, ver := 5 } : Ring) fun ring => (ring.ver ≠ S.ctl.ring.ver ∨
      S.mismatched (pgBr 0) 296 = true) ∧ ring.joined.getLsbD S.strap = false ∧ ((ring.members.all fun n => (s.seg
      (Fin.ofNat 4 n)).hasAdopted ring.ver) = false))) ∧
    On (jsR 5 { joined := 1, anchorValid := true } (fun s => s.modCtl fun c => { c with admitting := some 1 })) (fun S =>
      S.inReset = false ∧ S.joined = true ∧ S.ctl.admitting ≠ none ∧ (With ({ joined := 3, anchorValid := true, ver := 4 } :
      Ring) fun ring => (ring.ver ≠ S.ctl.ring.ver ∨ S.mismatched (pgBr 0) 296 = true) ∧ ring.joined.getLsbD S.strap = true
      ∧ ring.joined ≠ S.ctl.ring.joined)) ∧
    At
      ({ (js7a) with s1 := { Seg.reset 1 with ctl := { (Seg.reset 1).ctl with ring := { joined := 2, ver := 5 }, maps := [((Seg.reset 1).ctl.epoch.toNat, { (Seg.reset 1).map with ringVer := 5 })] } } })
      (fun s S => S.inReset = false ∧ S.joined = false ∧ S.joinState = 7 ∧ (With
      ({ joined := 2, anchor := 1, anchorValid := true, ver := 5 } : Ring) fun ring => ring.ver = S.ctl.ring.ver ∧
      ((ring.members.all fun n => (s.seg (Fin.ofNat 4 n)).hasAdopted ring.ver) = true))) := by
  and_intros <;> decide +kernel

end RingStates

namespace Further

def fw (l : List (Nat × Field × Nat) := []) (f := fun s : Seg => s) :=
  mkR ([(pgFlow, PAGE.PAGE_CTRL_ENABLE, 1), (pgFlow, PAGE.PAGE_STAT_ENABLED, 1), (pgFlow, FLOWWIN.INIT_LAST, 2)] ++ l) f
def bn (tx rx : Nat) (f : Bundle → Bundle := id) (l : List (Nat × Field × Nat) := []) (gf : Seg → Seg := id) :=
  mkR l fun s => gf (((s.setBunTx 0 3 tx).setBunRx 0 3 rx).modBun 0 3 f)
def fac (l : List (Nat × Field × Nat)) (f := fun s : Seg => s) :=
  mkR ([(pgKiln, KILN.KILN_BOOT_TEST_MODE, 1), (pgSeg, SEG.SEG_CTRL_MODE, 2), (pgSeg, SEG.SEG_STAT_FACTORY, 1)] ++ l) f
def tile (t v : Nat) (l : List (Nat × Field × Nat) := []) (f := fun s : Seg => s) : State := mkR l fun s => f (s.setStTile t v)

theorem test_meets_CollectorEvents :
    On (mkR [(pgBr 0, BR.BR_STAT_TIME_LOST, 1)]) (fun S => srcOk 16 = true ∧ S.inReset = false ∧ S.faultLevel 16 = true ∧
      S.ctl.halted = false) ∧
    On (mk0 (fun s => s.modSrc 2 fun x => { x with active := true })) (fun S => srcOk 2 = true ∧ S.inReset = false ∧
      S.faultLevel 2 = false ∧ (S.src 2).active = true ∧ S.ctl.halted = false) := by
  and_intros <;> decide +kernel

theorem test_meets_FactoryModeAndFuses :
    At (fac [] (fun s => { s with kiln := { s.kiln with solOk := [(0, 3)], sols := [(0, 0x8001)] } })) (fun s S => (0,
      32769).snd &&& ~~~S.fuse (0, 32769).fst ≠ 0 ∧ (0, 32769).fst < 1024 ∧ (List.find? (fun j => BitVec.getLsbD ((0,
      32769).snd &&& ~~~S.fuse (0, 32769).fst) j) (List.range 32) = some 0) ∧ wayOpen S Requester.mp pgKiln 3840 ∧
      s.stampBad Requester.mp = false ∧ S.factory = true ∧ S.flag pgKiln KILN.FUSE_STAT_BUSY = false ∧ S.solStat S.solSel %
      4 = 3 ∧ S.progWords S.solSel = some [(0, 32769)]) ∧
    At (fac [] (fun s =>
      { s with fuses := [(0, 0x8001)], kiln := { s.kiln with solOk := [(0, 3)], sols := [(0, 0x8001)] } })) (fun s S =>
      wayOpen S Requester.mp pgKiln 3840 ∧ s.stampBad Requester.mp = false ∧ S.factory = true ∧ S.flag pgKiln
      KILN.FUSE_STAT_BUSY = false ∧ S.solStat S.solSel % 4 = 3 ∧ S.progWords S.solSel = some []) := by
  and_intros <;> decide +kernel

theorem test_meets_CodesTemperatureAndVack :
    On (mkR [(pgClk, CLK.CLK_TILE_STATE.at 0, 2)] (fun s => s.setRamp 0 (s.effCode 0))) (fun S => S.inReset = false ∧ S.rd
      pgClk (CLK.CLK_TILE_STATE.at 0) = 2 ∧ S.c1Tile 0 = false ∧ S.rampOf 0 ≠ 0 ∧ S.stTile 0 < 2 ∧ SMap.get false S.dcoLost
      0 = false ∧ S.mismatched pgClk 272 = false ∧ S.effCode 0 = S.rampOf 0) := by
  and_intros <;> decide +kernel

theorem test_meets_ClockSwitchAndTimeBase :
    On (mkR [(pgClk, CLK.CLK_STAT_FTB_RUN, 1), (pgClk, CLK.CLK_TILE_STATE.at 0, 3), (pgRt 0, ROUTER.C1_STAT_C1_TILE, 1)]
      (fun s => ({ s with ftb := 64, synced := [(0, true)], tileFtb := [(0, 63)] } : Seg).setRamp 0 20)) (fun S => S.inReset
      = false ∧ S.ftbRuns = true ∧ S.stTile 0 ≠ 4 ∧ SMap.get false S.synced 0 = true ∧ S.c1Tile 0 = true ∧ (S.rd pgClk
      (CLK.CLK_TILE_STATE.at 0) = 3 ∨ S.isAligned 0 = true) ∧ S.supplyOk 0 = true ∧ S.rampOf 0 ≠ 0 ∧ S.ftb.toNat % 64 = 0 ∧
      S.tftb 0 ≠ S.ftb) := by
  and_intros <;> decide +kernel

theorem test_meets_DomainsGoDown :
    On (tile 0 0 [(pgClk, CLK.CLK_TILE_STATE.at 0, 2)]) (fun S => (Option.all (fun x => x == 0) (tileBank 0) = true) ∧
      S.inReset = false ∧ S.stTile 0 = 0 ∧ S.tileQuiet 0 = true ∧ S.rd pgClk (CLK.CLK_TILE_STATE.at 0) ∈ [2, 3] ∧ (S.tgtTile
      0 + 1 < 2 ∨ S.tileQuiet 0 = false) ∧ (S.tgtTile 0 + 1 < 3 ∨ S.tileQuiet 0 = false) ∧ (S.tgtBank 0 + 1 < 2 ∨
      S.bankQuiet 0 = false) ∧ (S.tgtBank 0 + 1 < 3 ∨ S.bankQuiet 0 = false)) := by
  and_intros <;> decide +kernel

theorem test_meets_DomainsWake :
    On (tile 0 0 [] (fun s => s.modNi 0 fun x => { x with wake := true })) (fun S => S.inReset = false ∧ (S.ni 0).wake =
      true) := by
  and_intros <;> decide +kernel

theorem test_meets_FlowWindow :
    At (fw [(pgFlow, FLOWWIN.FW_CMD_BUSY, 1), (pgFlow, FLOWWIN.FW_CMD_OP, 5)] (fun s => (s.modCtl fun c =>
      { c with recallAll := some (4, 6), recallAllDue := [0], fwInit := true }))) (fun s S => wayOpen S Requester.mp pgFlow
      256 ∧ s.stampBad Requester.mp = false ∧ ¬S.flag pgFlow FLOWWIN.FW_CMD_BUSY = false ∧ S.inReset = false ∧ S.rd pgFlow
      FLOWWIN.FW_CMD_OP ≠ 2 ∧ S.ctl.recallAll = some (4, 6) ∧ 0 ∈ S.ctl.recallAllDue ∧ S.noticed 0 = true ∧ S.stTile (0 / 2)
      ≤ 1 ∧ (S.ni 0).resetting = false ∧ S.ctl.recallAllDue = [0]) := by
  and_intros <;> decide +kernel

theorem test_meets_FramesAndReplay :
    On (bn 3 2 (fun x => { x with left := 40 })) (fun S => S.inReset = false ∧ running (S.bunTx 0 3) = true ∧
      ({ S.bun 0 3 with slots := (S.bun 0 3).slots + 1 }).slots % 1024 ≠ 0 ∧ (S.bun 0 3).resyncDue = false ∧ slotUnits
      (S.bunTx 0 3) ≤ (S.bun 0 3).left) ∧
    On (bn 2 2 (fun x => { x with nakDue := true, resyncDue := true })) (fun S => S.inReset = false ∧ running (S.bunTx 0 3)
      = true ∧ ({ S.bun 0 3 with slots := (S.bun 0 3).slots + 1 }).slots % 1024 ≠ 0 ∧ (S.bun 0 3).left = 0 ∧ (S.bun 0
      3).laneDue = none ∧ (S.bun 0 3).nakDue = true) := by
  and_intros <;> decide +kernel

theorem test_meets_LanesSleepAndBundleSlots :
    On (bn 3 3 (fun x => { x with rxMap := 0x1FFFF })) (fun S => S.inReset = false ∧ running (S.bunRx 0 3) = true ∧
      (((Option.map (fun x => x.fst) (S.bun 0 3).laneNext).getD (S.bun 0 3).rxMap).getLsbD 3 = true) ∧ (widthOf ((Option.map
      (fun x => x.fst) (S.bun 0 3).laneNext).getD (S.bun 0 3).rxMap &&& ~~~BitVec.ofNat 17 (2 ^ 3)) ≠ 5)) := by
  and_intros <;> decide +kernel

end Further

namespace Tables3

def ebd (l : List (Nat × Field × Nat) := []) (f : Seg → Seg := id) :=
  mkR ([(pgSeg, SEG.SEG_CTRL_EXPERT_EN, 1), (pgSeg, SEG.SEG_CTRL_MODE, 1)] ++ l) f
def rt (l : List (Nat × Field × Nat)) (f : Seg → Seg := id) :=
  ebd ([(pgRt 1, ROUTER.SLOT_ADDR_OUT, 1), (pgRt 1, ROUTER.RES_ADDR_OUT, 1), (pgRt 1, ROUTER.SLOT_ADDR_INDEX, 511)] ++ l) f

theorem test_meets_TableBindingAndCodeCommandsComplete :
    At (rt []) (fun s S => wayOpen S Requester.mp pgTen (256 + 8 * 5) ∧ s.stampBad Requester.mp = false ∧ S.lockedOwners =
      false ∧ wayOpen S Requester.mp pgTen 912 ∧ wayOpen S Requester.mp (pgNi 5) 272 ∧ wayOpen S Requester.mp (pgRt 1) 1032
      ∧ S.expertEn = true ∧ S.flag (pgRt 1) ROUTER.SLOT_ADDR_BANK = false ∧ hasTable 1 (S.rd (pgRt 1)
      ROUTER.SLOT_ADDR_PLANE) (S.rd (pgRt 1) ROUTER.SLOT_ADDR_OUT) = true ∧ S.swapBusy 1 = false ∧ S.slotBusy 1 = false ∧
      wayOpen S Requester.mp (pgRt 1) 580 ∧ S.flag (pgRt 1) ROUTER.RES_ADDR_BANK = false ∧ hasTable 1 (S.rd (pgRt 1)
      ROUTER.RES_ADDR_PLANE) (S.rd (pgRt 1) ROUTER.RES_ADDR_OUT) = true ∧ wayOpen S Requester.mp (pgRt 1) 1024 ∧ wayOpen S
      Requester.mp (pgRt 1) 768 ∧ wayOpen S Requester.mp (pgRt 1) 736 ∧ S.inReset = false ∧ S.stTile 1 < 2 ∧ SMap.get false
      S.dcoLost 1 = false ∧ S.ctl.tileCmd = none ∧ (∀ (t : Fin 144), quadOf ↑t = 0 → S.rampOf ↑t = 0) ∧ S.flag pgClk
      (CLK.CLK_V_VACK.at 0) = false ∧ S.vreq 0 ≠ 63 ∧ S.ctl.vlow.getLsbD 0 = false ∧ (S.pulse 7).phase = 0) ∧
    On (chkBase) (fun S => S.inReset = false ∧ pageKind 0 = some (Kind.seg, 0) ∧ Kind.seg ≠ Kind.coll ∧ glazeBit Kind.seg
      272 = some 9 ∧ SMap.get 0 S.flips (1024 * 0 + 272 / 4) ≠ 1) ∧
    On (rt [(pgRt 1, ROUTER.SLOT_CTRL_COPY, 1)]) (fun S => S.inReset = false ∧ S.slotBusy 1 = true) ∧
    On (mkR [(pgClk, CLK.CLK_TILE_STATE.at 0, 1)]) (fun S => S.inReset = false ∧ S.stTile 0 < 2 ∧ SMap.get false S.dcoLost 0
      = false ∧ S.mismatched pgClk 272 = false ∧ S.c1Tile 0 = false ∧ S.effCode 0 ≠ S.rd pgClk (CLK.CLK_TILE_CUR.at 0) ∧
      S.rd pgClk (CLK.CLK_TILE_STATE.at 0) = 1 ∧ S.vreq (quadOf 0) ≠ 63 ∧ (S.setRamp 0 (S.effCode 0)).vreqNeed (quadOf 0) ≤
      S.vreq (quadOf 0) ∧ S.vwaits (quadOf 0) = false) ∧
    On (mk0 fun s => { s with dcoLost := [(0, true)] }) (fun S => S.inReset = false ∧ SMap.get false S.dcoLost 0 = true) ∧
    On (mkR [(pgClk, CLK.CLK_TILE_STATE.at 0, 2)] (fun s => s.setRamp 0 (s.effCode 0))) (fun S => S.inReset = false ∧ S.rd
      pgClk (CLK.CLK_TILE_STATE.at 0) = 2 ∧ S.c1Tile 0 = false ∧ S.rampOf 0 ≠ 0 ∧ S.stTile 0 < 2 ∧ SMap.get false S.dcoLost
      0 = false ∧ S.mismatched pgClk 272 = false ∧ S.effCode 0 = S.rampOf 0) := by
  and_intros <;> decide +kernel

end Tables3

namespace Lately

def upn (x : Ni → Ni := id) (f := fun s : Seg => s) : State :=
  mkR [(pgNi 0, PAGE.PAGE_CTRL_ENABLE, 1)] fun s => f (s.setNi 0 (x { clk := true, arstN := true, up := true }))
def h0 : Hdr := { dest := 4, src := 0, type := tRead, len := 16, tag := 7, cls := 2 }
def e1 : Entry := { id := 3, hdr := { h0 with dest := 28, cls := 1, type := tWrite }, phase := .copies, bind := 1 }
def p1 : Packet := { plane := .req, hdr := { h0 with dest := 28, cls := 1, type := tWrite } }
def sched (s : Seg) : Seg :=
  [0,1].foldl (fun s o => (List.range 30).foldl (fun s i => s.setSlotEntry 0 0 0 o (5 + i) (4 + 16 * 2)) (s.setDesc 0 0 0 o 2 (BitVec.ofNat 32 (2 ^ 31 + 5 * 2 ^ 24 + o % 2 * 2 ^ 20)))) s
def sched2 (s : Seg) : Seg :=
  [0,1].foldl (fun s o => (List.range 30).foldl (fun s i => s.setSlotEntry 0 0 0 o (5 + i) (4 + 16 * 2)) (s.setDesc 0 0 0 o 2 (BitVec.ofNat 32 (2 ^ 31 + 5 * 2 ^ 24 + (1 - o % 2) * 2 ^ 20)))) s
def late : State := upn (fun x => { x with store := [], late := [({ e1 with path0 := true }, p1)] }) sched
def by_ (st : Nat) (l : List (Nat × Field × Nat) := []) (f := fun s : Seg => s) :=
  mkR ([(pgBay 0, BAY.BAY_STAT_STATE, st)] ++ l) f
def hal (s : Seg) : Seg := s.modCtl fun c => { c with halted := true }

theorem test_meets_CollectorClearsAndCommands :
    At (chkBase) (fun s S => 256 = srcBank 0 ∧ wayOpen S Requester.mp pgColl 320 ∧ s.stampBad Requester.mp = false ∧
      S.ctl.bulk = none) ∧
    On (mk0 (fun s => (s.modCtl fun c => { c with bulk := some (2, 0x123) }).wr pgColl COLL.BULK_CMD_BUSY 1)) (fun S => 256
      = srcBank 0 ∧ S.inReset = false ∧ S.ctl.halted = false ∧ S.ctl.bulk = some (2, 291) ∧ S.bulkEnd.collMismatch = none) := by
  and_intros <;> decide +kernel

theorem test_meets_CodesTemperatureAndVack :
    On (mkR [(pgClk, CLK.CLK_TILE_STATE.at 0, 1), (pgClk, CLK.CLK_V_VREQ.at 0, 5)] (fun s => s.setVgood 0 5)) (fun S =>
      S.inReset = false ∧ S.stTile 0 < 2 ∧ SMap.get false S.dcoLost 0 = false ∧ S.mismatched pgClk 272 = false ∧ S.c1Tile 0
      = false ∧ S.effCode 0 ≠ S.rd pgClk (CLK.CLK_TILE_CUR.at 0) ∧ S.rd pgClk (CLK.CLK_TILE_STATE.at 0) = 1 ∧ S.vreq (quadOf
      0) < (S.setRamp 0 (S.effCode 0)).vreqNeed (quadOf 0) ∧ S.rd pgClk (CLK.CLK_TILE_CUR.at 0) < S.effCode 0 ∧ S.vgood
      (quadOf 0) ≤ min 40 (needOf (S.effCode 0) + min 6 (S.rd pgClk (CLK.CLK_VOFS_VOFFSET.at (quadOf 0))))) ∧
    On (mkR [(pgClk, CLK.CLK_TILE_STATE.at 0, 2), (pgRt 0, ROUTER.C1_STAT_C1_TILE, 1)] (fun s => (s.setRamp 0 20).modCtl fun
      c => { c with rampC1 := SMap.put false c.rampC1 0 true })) (fun S => S.inReset = false ∧ S.rd pgClk
      (CLK.CLK_TILE_STATE.at 0) = 2 ∧ S.c1Tile 0 = true ∧ SMap.get false S.ctl.rampC1 0 = true) := by
  and_intros <;> decide +kernel

theorem test_meets_BayPowerOffAndFaults :
    On (by_ 8 [] hal) (fun S => S.inReset = false ∧ S.ctl.halted = true) := by
  and_intros <;> decide +kernel

theorem test_meets_DomainsWake :
    On (mk0 (fun s => s.setStBank 0 1)) (fun S => S.inReset = false ∧ S.stTile (bankTile 0) ≠ 4 ∧ S.stBank 0 = 1) := by
  and_intros <;> decide +kernel

theorem test_meets_PacketsLeaveAnNi :
    On (upn (fun x => { x with store := [], late := [({ e1 with path1 := true }, p1)] }) sched2) (fun S => S.inReset = false
      ∧ S.niRuns 0 = true ∧ (S.ni 0).store = [] ∧ (With ({ e1 with path1 := true } : Entry) fun e => (S.ni 0).late =
      [(e, p1)] ∧ e.phase = Phase.copies ∧ ((if false = true then e.path1 else e.path0) = false) ∧ ((if false = true then
      e.path0 else e.path1) = true) ∧ (∀ (u : Unacked), u ∈ (S.sendFor 0 e).unacked → u.entry ≠ some e.id) ∧ S.copyStart 0 e
      false < 512 ∧ S.copyBlocked 0 e false = false ∧ S.firstHop 0 e false = some 1 ∧ S.tagFor (0 / 2) e.plane.code 1
      e.hdr.fid false = Sum.inl 2)) := by
  and_intros <;> decide +kernel

end Lately

end Sys2Proof.Tests
end

section
namespace Sys2Proof.Machine

/-! ### One segment after a command -/

/-- Segment `g` of the state a command answers with, if it answers one. -/
def segmentAfter (o : Result) (g : Fin 4) : Option Seg :=
  match o with
  | .next t => some (t.seg g)
  | _ => none

theorem segmentAfter_setSeg {c : Instr} {s : State} {g : Fin 4} {t : Seg} (h : exec c s = .next (s.setSeg g t)) :
    segmentAfter (exec c s) g = some t := by
  rw [h]; exact congrArg some (State.seg_setSeg_same s g t)

section
variable {c : Instr} {s : State} {g : Fin 4} {pre : Seg → Prop} {e : Seg → Seg} {post : Seg → Seg → Prop}

/-- What a command does determines everything of the segment that `Follows` keeps. -/
theorem Does.observe {α : Type} (h : Does c s g pre e post) (hr : (s.seg g).inReset = false) (hp : pre (s.seg g))
    (f : Seg → α) (hf : ∀ x : Seg, f x.core = f x) :
    (segmentAfter (exec c s) g).map f = some (f (e (s.seg g))) := by
  obtain ⟨t, ht, hfol, -⟩ := h hr hp
  rw [segmentAfter_setSeg ht, Option.map_some, hfol.core_eq f hf]

/-- What a command does determines every word that events and slices do not change on their own. -/
theorem Does.observe_word (h : Does c s g pre e post) (hr : (s.seg g).inReset = false) (hp : pre (s.seg g)) {p off : Nat}
    (h1 : off < 4096) (h2 : off % 4 = 0) (h3 : ownWord p off = false) :
    (segmentAfter (exec c s) g).map (·.word p off) = some ((e (s.seg g)).word p off) := by
  obtain ⟨t, ht, hfol, -⟩ := h hr hp
  rw [segmentAfter_setSeg ht, Option.map_some, hfol.words p off h1 h2 h3]

/-- What a command does ends in a segment of which the rest of the claim holds. -/
theorem Does.observe_post (h : Does c s g pre e post) (hr : (s.seg g).inReset = false) (hp : pre (s.seg g)) (P : Seg → Bool)
    (hP : ∀ t, post (s.seg g) t → P t = true) : (segmentAfter (exec c s) g).map P = some true := by
  obtain ⟨t, ht, -, hpost⟩ := h hr hp
  rw [segmentAfter_setSeg ht, Option.map_some, hP t hpost]

/-- A register write whose way is open is a command whose effect the port shows. -/
theorem Writes.does {r : Requester} {p off : Nat} (h : Writes c s g r p off pre e post) (ho : (s.seg g).Open r p off)
    (hb : s.stampBad r = false) : Does c s g pre (fun S => (e S).acked r) post :=
  fun _ hp => h ho hb hp

end

/-- The way to a register is open, from facts that a concrete segment decides. -/
theorem Seg.Open.of_kind {s : Seg} {r : Requester} {p off i : Nat} {k : Kind} (hk : pageKind p = some (k, i))
    (h : s.inReset = false ∧ s.mp = { ready := true } ∧ s.ctl.stalled = [] ∧ s.ctl.guards = [] ∧
      s.accessError { req := r, wr := true, size := 2, addr := mgmtAddr s.strap p off } = 0 ∧ s.soak = false ∧
      s.pageState k i = 0) : s.Open r p off := by
  obtain ⟨hr, hm, hs, hg, he, hc, hu⟩ := h
  refine ⟨hr, by rw [hm], hs, hg, he, hc, fun _ => by rw [hm], fun k' i' hk' => ?_⟩
  cases hk.symm.trans hk'
  exact hu

/-! ### The states of the refutations -/

/-- The state at reset but for segment 0, whose controller runs and whose first eight tiles are ACTIVE, changed by `f`. -/
def runningWith (f : Seg → Seg) : State :=
  { State.reset with s0 := f (({ Seg.reset 0 with mp := { ready := true } } : Seg).setWord pgPwr 0x200 0) }

/-- A guard of the port stands open on `off` of the SEG page, opened with 0. -/
def guardHeld (off : Nat) (s : Seg) : Seg := s.modCtl fun c => { c with guards := [⟨pgSeg, off, 0, .mp⟩] }

/-- The port has made the first request of a 64-bit access (R78). -/
def halfDone (s : Seg) : Seg := s.setMp { s.mp with half := some (false, 0, 0) }

end Sys2Proof.Machine

namespace Sys2Proof.Machine

/-- Refutes O10: a write to a bad address gives up the guard that its requester has open (R41, R42), so it has an effect. -/
theorem not_badAddressHasNoEffect : ¬ Obligations.BadAddressHasNoEffect := by
  intro h
  have hd := (h (runningWith (guardHeld 0x110)) 0 0x20000000 (.inl (by decide))).1 true 2 0
  have hg := hd.observe rfl (by decide +kernel) (·.ctl.guards) (fun _ => rfl)
  exact absurd hg (by decide +kernel)

/-- Refutes O13: where the port has half of a 64-bit access done, the closing write is an unmatched second request (R79): it
completes with code 0x2 and commits nothing. -/
theorem not_guardedPairs : ¬ Obligations.GuardedPairs := by
  intro h
  have hd := (h (runningWith fun s => halfDone (guardHeld 0x01C s)) 0 .mp pgSeg 0 0 0x01C .seg 0 0 rfl (by decide)
    (by decide) (by decide) (by decide)).2.1
  have he := hd.observe rfl (by decide +kernel) (·.mp.err) (fun _ => rfl)
  exact absurd he (by decide +kernel)

/-- The port's count of accesses is one short of all ones, and the AON controller is halted. -/
def fullAndHalted (s : Seg) : Seg := (s.setCnt pgSeg 0 0x820 (count48Max - 1)).modCtl fun c => { c with halted := true }

/-- Refutes O14: the write that clears CNT 0x848 of the PWR page is itself counted (log 82); where that fills the counter of
accesses and the controller is halted, the event of the full counter is a wake source that counts at 0x848 again (R51, R469). -/
theorem not_plainWrites : ¬ Obligations.PlainWrites := by
  intro h
  have hw := (h (runningWith fullAndHalted) 0 .mp pgPwr 0 0x848 .pwr 0 rfl).2.2 2 (.inl rfl) (by decide) (by decide)
    (by decide) (by decide)
  have hd := hw.does (Seg.Open.of_kind (k := .pwr) (i := 0) rfl (by decide +kernel)) rfl
  have hz := hd.observe_post rfl rfl (·.cnt pgPwr 0 0x848 == 0) (fun _ ht => beq_iff_eq.2 ht)
  exact absurd hz (by decide +kernel)

/-- Refutes O15: while a word of FE_MAP mismatches, FLOWWIN's ENABLE stays 0 whatever is written (R430). -/
theorem not_pageControlAndOwners : ¬ Obligations.PageControlAndOwners := by
  intro h
  obtain ⟨-, -, -, -, hen, -⟩ := h.1 (runningWith fun s => { s with flips := [(1024 * pgFlow + 0x140 / 4, 1)] }) 0 .mp pgFlow
    0 .flowwin rfl
  have hd := (hen rfl (by decide)).does (Seg.Open.of_kind (k := .flowwin) (i := 0) rfl (by decide +kernel)) rfl
  have hw := hd.observe_word rfl (by decide) (p := pgFlow) (off := 0x008) (by decide) (by decide) (by decide)
  exact absurd hw (by decide +kernel)

/-- Refutes O16: where the port has half of a 64-bit access done, the closing write completes with code 0x2 (R79), and the
port shows the error. -/
theorem not_locksStayAndClearExpert : ¬ Obligations.LocksStayAndClearExpert := by
  intro h
  have hd := (h.1 (runningWith fun s => halfDone (guardHeld 0x118 (s.setWord pgSeg 0x118 1))) 0 .mp 0).1
  have he := hd.observe rfl (by decide +kernel) (·.mp.err) (fun _ => rfl)
  exact absurd he (by decide +kernel)

/-- Refutes O17: after a mismatch of SEG_LOCK both locks act as set until segment reset (R430), so a write that leaves
LOCK_EXPERT at 0 is ignored with LOCK_HIT, though the stored LOCK_EXPERT is 0. -/
theorem not_segmentControlWrites : ¬ Obligations.SegmentControlWrites := by
  intro h
  have hw := (h (runningWith fun s => s.modCtl fun c => { c with lockForced := true }) 0 .mp 0 false).1
  have hd := hw.does (Seg.Open.of_kind (k := .seg) (i := 0) rfl (by decide +kernel)) rfl
  have ho := hd.observe_word rfl (by decide +kernel) (p := pgSeg) (off := 0x118) (by decide) (by decide) (by decide)
  exact absurd ho (by decide +kernel)

/-- The header of a REGACC from site 5 to the controller, checked. -/
def readHdr : MgtHdr := ({ dest := 0x3F0, src := 5, type := tRegacc, tag := 9 } : MgtHdr).glaze

/-- A REGACC that reads PAGE_ID of the SEG page, its header flit with a wrong CPAR (`upset` 3). -/
def badParityRead : List Flit :=
  [{ body := .mgtHead readHdr, tail := false, upset := 3 }, { body := .mgtData (BitVec.ofNat 64 (2 ^ 33)) }]

/-- Refutes O42: a REGACC with a flit whose control parity fails is dropped, not run, though none of its flits has two wrong
bits (`upset` 2). -/
theorem not_niRowsAndRegacc : ¬ Obligations.NiRowsAndRegacc := by
  intro h
  have hd := (h.2 (runningWith fun s => s.modEp 0x3F0 fun e => { e with asm := [(200, badParityRead)] }) 0 5 200 readHdr
    badParityRead [] (BitVec.ofNat 64 (2 ^ 33)) _ rfl _ rfl).1
  have hf := hd.observe rfl (by decide +kernel) (·.free) (fun _ => rfl)
  exact absurd hf (by decide +kernel)

/-- NI 0 shows BIND_CMD.BUSY, and its binding entry 0 is valid. -/
def bindBusy (s : Seg) : Seg := (s.wr (pgNi 0) Reg.NI.BIND_CMD_BUSY 1).modNi 0 fun x => { x with bind := [(0, 1)] }

/-- Refutes O60: while BIND_CMD.BUSY is 1 a write of BIND_CMD is ignored with LOCK_HIT (log 38), and BIND_D keeps what it
held. -/
theorem not_tableBindingAndCodeCommandsComplete : ¬ Obligations.TableBindingAndCodeCommandsComplete := by
  intro h
  obtain ⟨-, -, -, hbind, -⟩ := h (runningWith bindBusy) 0 _ .mp rfl
  obtain ⟨⟨u, hu, hd, -⟩, -⟩ := hbind 0 0 (Seg.Open.of_kind (k := .ni) (i := 0) rfl (by decide +kernel)) rfl
  have hw := congrArg (Option.map (·.word64 (pgNi 0) 0x120)) (segmentAfter_setSeg hu)
  rw [Option.map_some, show u.word64 (pgNi 0) 0x120 = 1 from hd.trans (by decide +kernel)] at hw
  exact absurd hw (by decide +kernel)

end Sys2Proof.Machine
end

section
namespace Sys2Proof.Machine

/-- Settles O1: the queue and the clock are what `step` and `State.advance` say. -/
theorem stepTakesACommandOrTime : Obligations.StepTakesACommandOrTime := by
  refine ⟨fun s c rest h => ?_, fun s h => ⟨s.advance, ?_, ?_, fun g => ?_⟩⟩
  · unfold step; rw [h]
  · unfold step; rw [h]
  · rw [State.pending_advance, h]
  · rw [State.seg_advance]; rfl

/-! ### The state at reset -/

theorem State.seg_reset (g : Fin 4) : State.reset.seg g = Seg.reset g.val := by
  match g with
  | 0 | 1 | 2 | 3 => rfl

theorem Seg.word_reset (strap p off : Nat) : (Seg.reset strap).word p off = regReset strap p off := rfl

/-- ENABLE of a page resets to what its kind says. -/
theorem Seg.flag_enable_reset (strap : Nat) {p i : Nat} {k : Kind} (hk : pageKind p = some (k, i)) :
    (Seg.reset strap).flag p Reg.PAGE.PAGE_CTRL_ENABLE = k.enableReset := by
  have hw : (Seg.reset strap).word p 0x008 = if k.enableReset then 1 else 0 := by
    rw [Seg.word_reset]; simp [regReset, hk]
  show (Field.get ⟨0x008, 0, 0⟩ ((Seg.reset strap).word p 0x008) != 0) = _
  rw [hw]
  cases k.enableReset <;> decide

theorem Seg.targets_reset :
    ∀ g : Fin 4, (∀ t : Fin 144, (Seg.reset g).tgtTile t = 0) ∧ ∀ b : Fin 72, (Seg.reset g).tgtBank b = 0 := by
  decide +kernel

/-- At reset every slice that FE_MAP names is available, and FE_AVAIL shows it. -/
theorem Seg.availShown_reset : ∀ g : Fin 4, (Seg.reset g).AvailShown := by
  unfold Seg.AvailShown; decide +kernel

/-- At reset no site is UP. -/
theorem Seg.upShown_reset (strap : Nat) : (Seg.reset strap).UpShown := fun _ h => Bool.noConfusion h

/-- Settles O3: at reset every word is `regReset`, and no unit holds anything. -/
theorem resetLevels : Obligations.ResetLevels := by
  refine ⟨⟨rfl, fun g => ?_⟩, fun g => ?_, fun g => ?_⟩ <;> rw [State.seg_reset]
  · obtain ⟨htile, hbank⟩ := Seg.targets_reset g
    have hsoak : ∀ g : Fin 4, (Seg.reset g).soak = false := by decide +kernel
    exact ⟨rfl, rfl, rfl, hsoak g, rfl, fun _ _ _ => Seg.flag_enable_reset _, htile, hbank⟩
  · exact Seg.upShown_reset _
  · exact Seg.availShown_reset g

end Sys2Proof.Machine
end

section
namespace Sys2Proof.Machine

/-! ### Bits of a field write -/

/-- A number with the bits from `lo` on, `w` of them, replaced. -/
theorem testBit_replace (x v lo w i : Nat) :
    (x - x / 2 ^ lo % 2 ^ w * 2 ^ lo + v % 2 ^ w * 2 ^ lo).testBit i =
      if lo ≤ i ∧ i < lo + w then v.testBit (i - lo) else x.testBit i := by
  have hx : x = 2 ^ lo * (2 ^ w * (x / 2 ^ (lo + w)) + x / 2 ^ lo % 2 ^ w) + x % 2 ^ lo := by
    rw [Nat.pow_add, ← Nat.div_div_eq_div_mul, Nat.div_add_mod, Nat.div_add_mod]
  have hr : x - x / 2 ^ lo % 2 ^ w * 2 ^ lo + v % 2 ^ w * 2 ^ lo =
      2 ^ lo * (2 ^ w * (x / 2 ^ (lo + w)) + v % 2 ^ w) + x % 2 ^ lo := by
    generalize x / 2 ^ lo % 2 ^ w = m at *
    generalize x / 2 ^ (lo + w) = h at *
    generalize x % 2 ^ lo = l at *
    generalize v % 2 ^ w = n at *
    subst hx
    simp only [Nat.mul_add, Nat.mul_comm _ (2 ^ lo)]
    omega
  have hl : x % 2 ^ lo < 2 ^ lo := Nat.mod_lt _ (Nat.two_pow_pos lo)
  have hv : v % 2 ^ w < 2 ^ w := Nat.mod_lt _ (Nat.two_pow_pos w)
  rw [hr, Nat.testBit_two_pow_mul_add _ hl, Nat.testBit_two_pow_mul_add _ hv]
  by_cases h1 : i < lo
  · rw [if_pos h1, if_neg (by omega), Nat.testBit_mod_two_pow]; simp [h1]
  · rw [if_neg h1]
    by_cases h2 : i - lo < w
    · rw [if_pos h2, if_pos (by omega), Nat.testBit_mod_two_pow]; simp [h2]
    · rw [if_neg h2, if_neg (by omega), Nat.testBit_div_two_pow]
      congr 1; omega

/-- A field write sets the bits of the field and leaves the others. -/
theorem Field.getLsbD_set (f : Field) (w : Word) (v : Nat) {i : Nat} (hi : i < 32) (hf : f.lo ≤ f.hi) :
    (f.set w v).getLsbD i = if f.lo ≤ i ∧ i ≤ f.hi then v.testBit (i - f.lo) else w.getLsbD i := by
  have hw : f.width = f.hi - f.lo + 1 := rfl
  have hbits : (f.lo ≤ i ∧ i < f.lo + f.width) ↔ (f.lo ≤ i ∧ i ≤ f.hi) := by omega
  simp only [Field.set, Field.get, BitVec.getLsbD_ofNat, hi, decide_true, Bool.true_and, testBit_replace, hbits]
  rfl

theorem Seg.bit_eq (s : Seg) (p off i : Nat) : s.bit p off i = (s.word p off).getLsbD i := by
  unfold Seg.bit
  rw [← BitVec.testBit_toNat, Nat.testBit_eq_decide_div_mod_eq]
  rfl

theorem Seg.bit_lt {s : Seg} {p off i : Nat} (h : s.bit p off i = true) : i < 32 := by
  rw [Seg.bit_eq] at h; exact BitVec.lt_of_getLsbD h


theorem Seg.bit_setBit_same (s : Seg) (p off : Nat) {b : Nat} (hb : b < 32) : (s.setBit p off b true).bit p off b = true := by
  rw [Seg.bit_eq]
  show ((s.setWord p off _).word p off).getLsbD b = true
  rw [Seg.word_setWord_same, Field.getLsbD_set _ _ _ hb (Nat.le_refl b), if_pos ⟨Nat.le_refl b, Nat.le_refl b⟩]
  simp [b2n]

/-- Setting a bit leaves the other words alone. -/
theorem Seg.word_setBit_other (s : Seg) {p off p' off' : Nat} (b : Nat) (v : Bool) (h1 : off < 4096) (h2 : off' < 4096)
    (h3 : off % 4 = 0) (h4 : off' % 4 = 0) (h : p' ≠ p ∨ off' ≠ off) : (s.setBit p off b v).word p' off' = s.word p' off' :=
  Seg.word_setWord_other s _ h1 h2 h3 h4 h

/-- Setting a bit clears none. -/
theorem Seg.bit_setBit (s : Seg) (p off b : Nat) {p' off' i : Nat} (h1 : off < 4096) (h2 : off' < 4096) (h3 : off % 4 = 0)
    (h4 : off' % 4 = 0) (h : s.bit p' off' i = true) : (s.setBit p off b true).bit p' off' i = true := by
  have hi := Seg.bit_lt h
  rw [Seg.bit_eq] at h ⊢
  by_cases hk : p' = p ∧ off' = off
  · obtain ⟨rfl, rfl⟩ := hk
    show ((s.setWord p' off' _).word p' off').getLsbD i = true
    rw [Seg.word_setWord_same, Field.getLsbD_set _ _ _ hi (Nat.le_refl b)]
    split
    · next hb =>
      have : i = b := by simp only at hb; omega
      subst this
      simp [b2n]
    · exact h
  · show ((s.setWord p off _).word p' off').getLsbD i = true
    rw [Seg.word_setWord_other _ _ h1 h2 h3 h4 (by omega)]
    exact h

/-! ### Counters -/

theorem Seg.cnt_setCnt_same (s : Seg) (p v off n : Nat) : (s.setCnt p v off n).cnt p v off = n := SMap.get_put_same ..

/-- A write of one counter leaves those of the pages behind it alone. -/
theorem Seg.cnt_setCnt_other (s : Seg) {p off p' v' off' : Nat} (n : Nat) (ho : off < 4096) (hp : p < p') :
    (s.setCnt p 0 off n).cnt p' v' off' = s.cnt p' v' off' := by
  unfold Seg.cnt Seg.setCnt
  exact SMap.get_put_other _ _ _ _ (by omega)

/-! ### What events and counters leave standing -/

/-- The words whose bits events set and never clear: PAGE_EVT and PAGE_FLAGS of any page (R31, R33), and CLK_OVR (R364). -/
def risingWord (p off : Nat) : Bool :=
  off == 0x010 || off == 0x018 || (p == pgClk && decide (0x380 ≤ off) && decide (off < 0x394))

/-- What an event of any page leaves standing: a bit that events set stays set, no counter of a page from BR0 on moves, and
the sites are as they were. -/
structure Raises (a b : Seg) : Prop where
  bits : ∀ p off i, risingWord p off = true → off < 4096 → off % 4 = 0 → a.bit p off i = true → b.bit p off i = true
  cnts : ∀ p v off, 0x10 ≤ p → b.cnt p v off = a.cnt p v off
  nis : b.nis = a.nis

/-- The crossings of the sources from BR0 on are as they were. -/
def UnitPulses (a b : Seg) : Prop := ∀ l, 0x10 ≤ l → b.pulse l = a.pulse l

theorem Raises.refl (a : Seg) : Raises a a := ⟨fun _ _ _ _ _ _ h => h, fun _ _ _ _ => rfl, rfl⟩

theorem Raises.trans {a b c : Seg} (h : Raises a b) (k : Raises b c) : Raises a c :=
  ⟨fun p off i h1 h2 h3 hb => k.bits p off i h1 h2 h3 (h.bits p off i h1 h2 h3 hb),
   fun p v off hp => (k.cnts p v off hp).trans (h.cnts p v off hp), k.nis.trans h.nis⟩

theorem UnitPulses.refl (a : Seg) : UnitPulses a a := fun _ _ => rfl

theorem UnitPulses.trans {a b c : Seg} (h : UnitPulses a b) (k : UnitPulses b c) : UnitPulses a c :=
  fun l hl => (k l hl).trans (h l hl)

theorem Raises.setBit (a : Seg) (p off b : Nat) (h1 : off < 4096) (h2 : off % 4 = 0) : Raises a (a.setBit p off b true) :=
  ⟨fun _ _ _ _ h3 h4 hb => Seg.bit_setBit a p off b h1 h3 h2 h4 hb, fun _ _ _ _ => rfl, rfl⟩

theorem Raises.setPulse (a : Seg) (l : Nat) (x : Pulse) : Raises a (a.setPulse l x) :=
  ⟨fun _ _ _ _ _ _ h => h, fun _ _ _ _ => rfl, rfl⟩

theorem Raises.setCnt (a : Seg) {p off : Nat} (n : Nat) (hp : p < 0x10) (ho : off < 4096) : Raises a (a.setCnt p 0 off n) :=
  ⟨fun _ _ _ _ _ _ h => h, fun _ _ _ h => Seg.cnt_setCnt_other a n ho (by omega), rfl⟩

theorem UnitPulses.setPulse (a : Seg) {l : Nat} (x : Pulse) (h : l < 0x10) : UnitPulses a (a.setPulse l x) :=
  fun k hk => Seg.pulse_setPulse_other a x (by omega)

/-- A lost pulse marks its tile in CLK_OVR. -/
theorem Raises.ovr (s : Seg) (src : Nat) : Raises s (match srcTile src with
    | some t => s.setBit pgClk (0x380 + 4 * (t / 32)) (t % 32) true
    | none => s) := by
  split
  · next t ht =>
    have h1 := srcTile_lt ht
    exact Raises.setBit _ _ _ _ (by omega) (by omega)
  · exact Raises.refl s

theorem UnitPulses.ovr (s : Seg) (src : Nat) : UnitPulses s (match srcTile src with
    | some t => s.setBit pgClk (0x380 + 4 * (t / 32)) (t % 32) true
    | none => s) := by
  split <;> exact UnitPulses.refl _

/-- The kinds of the pages before BR0. -/
def Kind.isCentral : Kind → Bool
  | .seg | .coll | .pwr | .clk | .kiln | .ten | .flowwin => true
  | .br | .bay | .router | .ni | .bank => false

theorem pageKind_central : ∀ q : Fin 16, (pageKind q).all (·.1.isCentral) = true := by decide

/-- The events of a page before BR0 come from a source before BR0. -/
theorem pageSource_lt {p b src : Nat} (hp : p < 0x10) (h : pageSource p b = some src) : src < 0x10 := by
  have hc := pageKind_central ⟨p, hp⟩
  unfold pageSource at h
  cases hk : pageKind p with
  | none => rw [hk] at h; cases h
  | some ki =>
    obtain ⟨k, i⟩ := ki
    have hcentral : k.isCentral = true := by
      rw [show pageKind (⟨p, hp⟩ : Fin 16).val = some (k, i) from hk] at hc; exact hc
    rw [hk] at h
    cases k with
    | seg | flowwin | clk | kiln | ten => cases h; decide
    | pwr =>
      cases h
      split <;> decide
    | coll => cases h
    | br | bay | router | ni | bank => cases hcentral

/-- What events of the central pages leave standing beside: the crossings of the other pages' units. -/
structure Central (a b : Seg) : Prop where
  raises : Raises a b
  pulses : UnitPulses a b

theorem Central.refl (a : Seg) : Central a a := ⟨.refl a, .refl a⟩
theorem Central.trans {a b c : Seg} (h : Central a b) (k : Central b c) : Central a c :=
  ⟨h.raises.trans k.raises, h.pulses.trans k.pulses⟩

theorem Central.setBit (a : Seg) (p off b : Nat) (h1 : off < 4096) (h2 : off % 4 = 0) : Central a (a.setBit p off b true) :=
  ⟨.setBit a p off b h1 h2, .refl _⟩

theorem Central.setCnt (a : Seg) {p off : Nat} (n : Nat) (hp : p < 0x10) (ho : off < 4096) : Central a (a.setCnt p 0 off n) :=
  ⟨.setCnt a n hp ho, .refl _⟩

theorem Central.ovr (s : Seg) (src : Nat) : Central s (match srcTile src with
    | some t => s.setBit pgClk (0x380 + 4 * (t / 32)) (t % 32) true
    | none => s) := ⟨.ovr s src, .ovr s src⟩

/-- Pulses, page events and the counters of the central pages, at every depth. -/
theorem Raises.events (fuel : Nat) :
    (∀ (s : Seg) (src : Nat) (e : EvRec),
      Raises s (Seg.pulseN fuel s src e) ∧ (src < 0x10 → UnitPulses s (Seg.pulseN fuel s src e))) ∧
    (∀ (s : Seg) (p b : Nat) (x : Word) (inj : Bool),
      Raises s (Seg.evtN fuel s p b x inj) ∧ (p < 0x10 → UnitPulses s (Seg.evtN fuel s p b x inj))) ∧
    (∀ (s : Seg) (p off n : Nat), p < 0x10 → off < 4096 → Central s (Seg.countN fuel s p 0 off n)) := by
  induction fuel with
  | zero =>
    refine ⟨fun s _ _ => ?_, fun s _ _ _ _ => ?_, fun s _ _ _ _ _ => ?_⟩
    · unfold Seg.pulseN; exact ⟨.refl s, fun _ => .refl s⟩
    · unfold Seg.evtN; exact ⟨.refl s, fun _ => .refl s⟩
    · unfold Seg.countN; exact .refl s
  | succ fuel ih =>
    obtain ⟨ihPulse, ihEvt, ihCount⟩ := ih
    have central : ∀ (s : Seg) (p b : Nat) (x : Word) (inj : Bool), p < 0x10 → Central s (Seg.evtN fuel s p b x inj) :=
      fun s p b x inj hp => ⟨(ihEvt s p b x inj).1, (ihEvt s p b x inj).2 hp⟩
    refine ⟨fun s src e => ?_, fun s p b x inj => ?_, fun s p off n hp ho => ?_⟩
    · unfold Seg.pulseN
      have put : ∀ x, Raises s (s.setPulse src x) ∧ (src < 0x10 → UnitPulses s (s.setPulse src x)) :=
        fun x => ⟨.setPulse s src x, .setPulse s x⟩
      have andThen : ∀ {x : Pulse} {t : Seg}, Central (s.setPulse src x) t →
          Raises s t ∧ (src < 0x10 → UnitPulses s t) :=
        fun h => ⟨(Raises.setPulse s src _).trans h.raises, fun hs => (UnitPulses.setPulse s _ hs).trans h.pulses⟩
      split
      · exact ⟨.refl s, fun _ => .refl s⟩
      · dsimp only
        split
        · split
          · exact andThen (ihCount _ _ _ _ (by decide) (by decide))
          · exact put _
        · split
          · exact put _
          · exact andThen (((ihCount _ _ _ _ (by decide) (by decide)).trans (Central.ovr _ src)).trans
              (central _ _ _ _ _ (by decide)))
    · unfold Seg.evtN
      split
      · exact ⟨.refl s, fun _ => .refl s⟩
      · dsimp only
        have hb : Central s (s.setBit p 0x010 b true) := .setBit s p _ b (by decide) (by decide)
        split
        · exact ⟨hb.raises, fun _ => hb.pulses⟩
        · split
          · next src hsrc =>
            obtain ⟨h1, h2⟩ := ihPulse (s.setBit p 0x010 b true) src ⟨pageCause p b, x, inj⟩
            exact ⟨hb.raises.trans h1, fun hp => hb.pulses.trans (h2 (pageSource_lt hp hsrc))⟩
          · exact ⟨hb.raises, fun _ => hb.pulses⟩
    · unfold Seg.countN
      dsimp only
      refine (Central.setCnt s (satAdd count48Max (s.cnt p 0 off) n) hp ho).trans ?_
      split
      · split
        · exact .refl _
        · exact (Central.setBit _ p 0x018 4 (by decide) (by decide)).trans (central _ _ _ _ _ hp)
      · exact .refl _

theorem Raises.raise (s : Seg) (src : Nat) (c : Byte) (x : Word) (inj : Bool) : Raises s (s.raise src c x inj) :=
  ((Raises.events evtDepth).1 _ _ _).1

theorem Raises.evt (s : Seg) (p b : Nat) (x : Word) (inj : Bool) : Raises s (s.evt p b x inj) :=
  ((Raises.events evtDepth).2.1 _ _ _ _ _).1

theorem Central.evt (s : Seg) {p : Nat} (b : Nat) (x : Word) (inj : Bool) (hp : p < 0x10) : Central s (s.evt p b x inj) :=
  ⟨.evt s p b x inj, ((Raises.events evtDepth).2.1 _ _ _ _ _).2 hp⟩

theorem Central.count (s : Seg) {p off : Nat} (hp : p < 0x10) (ho : off < 4096) : Central s (s.count p off) :=
  (Raises.events evtDepth).2.2 _ _ _ _ hp ho

/-- An event latches its bit (R31). -/
theorem Seg.latched_evtN (fuel : Nat) (s : Seg) (p : Nat) {b : Nat} (x : Word) (inj : Bool) (hb : b < 32) :
    (Seg.evtN (fuel + 1) s p b x inj).latched p b := by
  unfold Seg.latched Seg.evtN
  split
  · assumption
  · dsimp only
    have hset := Seg.bit_setBit_same s p 0x010 hb
    split
    · exact hset
    · split
      · exact ((Raises.events fuel).1 _ _ _).1.bits p 0x010 b rfl (by decide) (by decide) hset
      · exact hset

theorem Seg.latched_evt (s : Seg) (p : Nat) {b : Nat} (x : Word) (inj : Bool) (hb : b < 32) : (s.evt p b x inj).latched p b :=
  Seg.latched_evtN 11 s p x inj hb

/-! ### A counter of a unit's page -/

/-- A count on the page of a unit: the counter takes its new value, and what follows is an event. -/
theorem Seg.count_raises (s : Seg) (p off : Nat) :
    Raises (s.setCnt p 0 off (satAdd count48Max (s.cnt p 0 off) 1)) (s.count p off) := by
  show Raises _ (Seg.countN 12 s p 0 off 1)
  unfold Seg.countN
  dsimp only
  split
  · split
    · exact .refl _
    · exact (Raises.setBit _ p 0x018 4 (by decide) (by decide)).trans ((Raises.events 11).2.1 _ _ _ _ _).1
  · exact .refl _

/-- A counter of a unit's page counts one (R51). -/
theorem Seg.counted_count (s : Seg) {p off : Nat} (hp : 0x10 ≤ p) : Counted s (s.count p off) p off 1 := by
  unfold Counted
  rw [(s.count_raises p off).cnts p 0 off hp, Seg.cnt_setCnt_same]

theorem Raises.latched {a b : Seg} (h : Raises a b) {p i : Nat} (hl : a.latched p i) : b.latched p i :=
  h.bits p 0x010 i rfl (by decide) (by decide) hl

/-! ### `Seg.settle` -/

/-- A write of a word whose bits events do not set. -/
theorem Central.setWord (a : Seg) {p off : Nat} (v : Word) (h : risingWord p off = false) (h1 : off < 4096) (h2 : off % 4 = 0) :
    Central a (a.setWord p off v) := by
  refine ⟨⟨fun p' off' i hr h3 h4 hb => ?_, fun _ _ _ _ => rfl, rfl⟩, .refl _⟩
  have hne : p' ≠ p ∨ off' ≠ off := by
    by_cases hp : p' = p
    · refine .inr fun ho => ?_
      rw [hp, ho, h] at hr
      cases hr
    · exact .inl hp
  unfold Seg.bit at *
  rwa [Seg.word_setWord_other _ _ h1 h3 h2 h4 hne]

theorem Central.noteAvail (s : Seg) : Central s s.noteAvail := by
  unfold Seg.noteAvail
  dsimp only
  split
  · exact .refl s
  · have hw := Central.setWord s (p := pgFlow) (off := Reg.FLOWWIN.FE_AVAIL.off) (BitVec.ofNat 32 s.feAvail)
      (by decide) (by decide) (by decide)
    split
    · exact hw
    · exact hw.trans (Central.evt _ _ _ _ (by decide))

theorem Seg.bit_settleUp (s : Seg) (p off i : Nat) : s.settleUp.bit p off i = s.bit p off i := rfl
theorem Seg.cnt_settleUp (s : Seg) (p v off : Nat) : s.settleUp.cnt p v off = s.cnt p v off := rfl
theorem Seg.pulse_settleUp (s : Seg) (l : Nat) : s.settleUp.pulse l = s.pulse l := rfl

theorem Seg.bit_settle (s : Seg) {p off i : Nat} (hr : risingWord p off = true) (h1 : off < 4096) (h2 : off % 4 = 0)
    (hb : s.bit p off i = true) : s.settle.bit p off i = true := by
  rw [Seg.settle, Seg.bit_settleUp]
  exact (Central.noteAvail s).raises.bits p off i hr h1 h2 hb

theorem Seg.latched_settle (s : Seg) {p i : Nat} (h : s.latched p i) : s.settle.latched p i :=
  s.bit_settle rfl (by decide) (by decide) h

/-- Levels that follow move no counter of a page from BR0 on. -/
theorem Seg.cnt_settle (s : Seg) {p off : Nat} (hp : 0x10 ≤ p) : s.settle.cnt p 0 off = s.cnt p 0 off := by
  rw [Seg.settle, Seg.cnt_settleUp]
  exact (Central.noteAvail s).raises.cnts p 0 off hp

theorem Seg.pulse_settle (s : Seg) {l : Nat} (hl : 0x10 ≤ l) : s.settle.pulse l = s.pulse l := by
  rw [Seg.settle, Seg.pulse_settleUp]
  exact (Central.noteAvail s).pulses l hl

end Sys2Proof.Machine
end

section
namespace Sys2Proof.Machine

/-! ### Commands on one segment -/

/-- A command that acts on one segment does what its effect does, the levels that follow included. -/
theorem Does.of_onSeg {c : Instr} {s : State} {g : Fin 4} {f e : Seg → Seg} {pre : Seg → Prop} {post : Seg → Seg → Prop}
    (hx : exec c s = onSeg s g f)
    (h : (s.seg g).inReset = false → pre (s.seg g) → Follows (e (s.seg g)) (f (s.seg g)) ∧ post (s.seg g) (f (s.seg g)).settle) :
    Does c s g pre e post := by
  intro hr hp
  obtain ⟨hf, hpost⟩ := h hr hp
  refine ⟨(f (s.seg g)).settle, ?_, hf.trans (Follows.settle _), hpost⟩
  rw [hx, onSeg, State.modSeg, hr]
  rfl

/-! ### The three fates of a pulse (R363) -/

/-- What tells of a pulse lost by tile `t`: its CLK_OVR bit and the CLK page's event (R364). -/
def Seg.ovrTold (b : Seg) (t : Nat) : Seg :=
  Seg.evtN 11 (b.setBit pgClk (0x380 + 4 * (t / 32)) (t % 32) true) pgClk 9 (tileSynd t) false

theorem Seg.ovrTold_evt (b : Seg) (t : Nat) :
    Central (b.setBit pgClk (0x380 + 4 * (t / 32)) (t % 32) true) (b.ovrTold t) :=
  ⟨((Raises.events 11).2.1 _ _ _ _ _).1, ((Raises.events 11).2.1 _ _ _ _ _).2 (by decide)⟩

theorem Seg.ovrTold_pulse (b : Seg) {t src : Nat} (ht : t < 144) (hs : 0x10 ≤ src) : (b.ovrTold t).pulse src = b.pulse src :=
  ((b.ovrTold_evt t).pulses src hs).trans
    ((Central.setBit b pgClk (0x380 + 4 * (t / 32)) (t % 32) (by omega) (by omega)).pulses src hs)

theorem Seg.ovrTold_bit (b : Seg) {t : Nat} (ht : t < 144) :
    (b.ovrTold t).bit pgClk (0x380 + 4 * (t / 32)) (t % 32) = true :=
  (b.ovrTold_evt t).raises.bits _ _ _ (by simp [risingWord]; omega) (by omega) (by omega)
    (Seg.bit_setBit_same b pgClk (0x380 + 4 * (t / 32)) (by omega))

theorem Seg.ovrTold_latched (b : Seg) (t : Nat) : (b.ovrTold t).latched pgClk 9 := Seg.latched_evtN 10 _ pgClk _ _ (by decide)

section
variable {s : Seg} {src : Nat} {cause : Byte} {synd : Word} {inj : Bool}

/-- A crossing of a unit's source takes a pulse: the sender runs. -/
theorem Seg.raise_open (hd : s.senderDown src = false) (ho : srcOk src = true) (hs : 0x10 ≤ src) :
    (s.senderDown src || !srcOk src || (8 ≤ src && src < 0x10)) = false := by
  simp [hd, ho]; omega

theorem Seg.raise_idle (hd : s.senderDown src = false) (ho : srcOk src = true) (hs : 0x10 ≤ src) (hh : s.ctl.halted = false)
    (hp : (s.pulse src).phase = 0) :
    s.raise src cause synd inj = s.setPulse src { s.pulse src with phase := 1, flight := some ⟨cause, synd, inj⟩ } := by
  show Seg.pulseN 12 s src _ = _
  unfold Seg.pulseN
  simp only [Seg.raise_open hd ho hs, hp, Bool.false_eq_true, ↓reduceIte]
  exact if_neg (by simpa using hh)

theorem Seg.raise_slot (hd : s.senderDown src = false) (ho : srcOk src = true) (hs : 0x10 ≤ src)
    (hp : (s.pulse src).phase ≠ 0) (hq : (s.pulse src).slot = none) :
    s.raise src cause synd inj = s.setPulse src { s.pulse src with slot := some ⟨cause, synd, inj⟩ } := by
  show Seg.pulseN 12 s src _ = _
  unfold Seg.pulseN
  simp only [Seg.raise_open hd ho hs, hp, hq, Bool.false_eq_true, ↓reduceIte]

/-- A third pulse is lost: it is counted in LOST, the tile's CLK_OVR bit and the CLK page's event tell of it. -/
theorem Seg.raise_lost {t : Nat} (hd : s.senderDown src = false) (ho : srcOk src = true) (hs : 0x10 ≤ src)
    (hp : (s.pulse src).phase ≠ 0) (hq : (s.pulse src).slot ≠ none) (ht : srcTile src = some t) :
    (s.raise src cause synd inj).pulse src = { s.pulse src with lost := min 15 ((s.pulse src).lost + 1) } ∧
    (s.raise src cause synd inj).bit pgClk (0x380 + 4 * (t / 32)) (t % 32) = true ∧
    (s.raise src cause synd inj).latched pgClk 9 := by
  have ht' := srcTile_lt ht
  show (Seg.pulseN 12 s src _).pulse src = _ ∧ (Seg.pulseN 12 s src _).bit _ _ _ = true ∧ (Seg.pulseN 12 s src _).latched _ _
  unfold Seg.pulseN
  simp only [Seg.raise_open hd ho hs, hp, hq, ht, Bool.false_eq_true, ↓reduceIte]
  have hcount : ∀ a : Seg, Central a (Seg.countN 11 a pgClk 0 0x820 1) :=
    fun a => (Raises.events 11).2.2 _ _ _ _ (by decide) (by decide)
  refine ⟨?_, Seg.ovrTold_bit _ ht', Seg.ovrTold_latched _ t⟩
  exact ((Seg.ovrTold_pulse _ ht' hs).trans ((hcount _).pulses src hs)).trans (Seg.pulse_setPulse_same ..)

end

/-! ### PULSE_RAISE of a router's source -/

theorem srcTile_srcRt (t : Fin 144) : srcTile (srcRt t) = some t.val := by
  have ht := t.isLt
  unfold srcTile srcRt
  rw [if_pos (by omega)]
  congr 1; omega

theorem srcOk_srcRt : ∀ t : Fin 144, srcOk (srcRt t) = true := by decide

theorem Follows.inReset {a b : Seg} (h : Follows a b) : b.inReset = a.inReset := h.core_eq (·.inReset) (fun _ => rfl)

/-- Events and counters put no sender's side into reset. -/
theorem Follows.senderDown {a b : Seg} (h : Follows a b) (src : Nat) : b.senderDown src = a.senderDown src := by
  unfold Seg.senderDown
  rw [h.inReset]
  split
  · next t ht => rw [h.stTile (srcTile_lt ht)]
  · rfl

/-- The page of a router's event below 0x20 is the router's. -/
theorem execPulseRaise_router {s : State} {g : Fin 4} {t : Fin 144} {src : Fin 1024} {cause : Byte} {synd : Word}
    (hsrc : src.val = srcRt t) (hc : cause.toNat < 32) :
    exec (.pulseRaise g src cause synd) s = onSeg s g fun S =>
      if S.senderDown src then S
      else
        let S := S.setBit (pgRt t) 0x010 cause.toNat true
        if S.bit (pgRt t) 0x014 cause.toNat then S else S.raise src cause synd := by
  have ht := t.isLt
  have hpage : 0x40 ≤ src.val ∧ src.val < 0xD0 := by rw [hsrc, srcRt]; omega
  have hsub : src.val - 0x40 = t.val := by rw [hsrc, srcRt]; omega
  have hb : cause.toNat % 32 = cause.toNat := Nat.mod_eq_of_lt hc
  have hlow : cause.toNat < 128 := by omega
  show execPulseRaise g src cause synd s = _
  unfold execPulseRaise
  rw [if_neg (by rw [hsrc, srcOk_srcRt]; decide)]
  simp only [hpage, hsub, hb, hlow, and_self, ↓reduceIte]

/-- A router's crossing, where the sender runs and the event's bit is not masked: the pulse is raised on the segment with
PAGE_EVT set (R31, log 19). -/
theorem Does.pulseRaise_router {s : State} {g : Fin 4} {t : Fin 144} {src : Fin 1024} {cause : Byte} {synd : Word}
    {pre : Seg → Prop} {post : Seg → Seg → Prop} (hsrc : src.val = srcRt t) (hc : cause.toNat < 32)
    (hpre : ∀ S, pre S → S.stTile t ≠ 4 ∧ S.bit (pgRt t) 0x014 cause.toNat = false)
    (h : ∀ S, pre S → ∀ T, T = S.setBit (pgRt t) 0x010 cause.toNat true → T.senderDown src = false →
      T.latched (pgRt t) cause.toNat → post S (T.raise src cause synd).settle) :
    Does (.pulseRaise g src cause synd) s g pre (fun S => S) post := by
  refine Does.of_onSeg (execPulseRaise_router hsrc hc) fun hr hp => ?_
  obtain ⟨hst, hmask⟩ := hpre _ hp
  have hdown : (s.seg g).senderDown src = false := by
    simp only [Seg.senderDown, hr, hsrc, srcTile_srcRt, Bool.false_or, beq_eq_false_iff_ne]
    exact hst
  have hmask' : ((s.seg g).setBit (pgRt t) 0x010 cause.toNat true).bit (pgRt t) 0x014 cause.toNat = false := by
    unfold Seg.bit at hmask ⊢
    rwa [Seg.word_setBit_other _ _ _ (by decide) (by decide) (by decide) (by decide) (.inr (by decide))]
  simp only [hdown, hmask', Bool.false_eq_true, ↓reduceIte]
  have hset := Follows.evt_bit (s.seg g) (pgRt t) cause.toNat true
  exact ⟨hset.trans (Follows.raise ..), h _ hp _ rfl (hset.senderDown src ▸ hdown) (Seg.bit_setBit_same _ _ _ hc)⟩

/-- The event's bit stays latched and the crossing is as the pulse left it, whatever levels follow. -/
theorem Seg.settle_raise {T : Seg} {src : Nat} {cause : Byte} {synd : Word} {p b : Nat} (hs : 0x10 ≤ src) (hl : T.latched p b) :
    (T.raise src cause synd).settle.latched p b ∧
      (T.raise src cause synd).settle.pulse src = (T.raise src cause synd).pulse src :=
  ⟨Seg.latched_settle _ ((Raises.raise T src cause synd false).latched hl), Seg.pulse_settle _ hs⟩

/-! ### ACKNOWLEDGE_PHASE_END -/

theorem execAcknowledgePhaseEnd_ok {s : State} {g : Fin 4} {src : Fin 1024} (ho : srcOk src = true) :
    exec (.acknowledgePhaseEnd g src) s = onSeg s g fun S =>
      let c := S.pulse src
      if c.phase = 2 then
        match c.slot with
        | some e => S.setPulse src { c with phase := 1, flight := some e, slot := none }
        | none => S.setPulse src { c with phase := 0, flight := none }
      else S := by
  show execAcknowledgePhaseEnd g src s = _
  unfold execAcknowledgePhaseEnd
  exact if_neg (by rw [ho]; decide)

/-- Settles O21: one clause for each fate of a pulse, and two for the end of the acknowledge phase. -/
theorem pulseCrossing : Obligations.PulseCrossing := by
  intro s g t src cause synd hsrc hc
  have hs : 0x10 ≤ src.val := by rw [hsrc, srcRt]; omega
  have ho : srcOk src = true := by rw [hsrc]; exact srcOk_srcRt t
  have htile : srcTile src = some t.val := by rw [hsrc]; exact srcTile_srcRt t
  have ht := t.isLt
  refine ⟨?_, fun e => ?_, ?_⟩
  · rintro e rfl
    refine ⟨?_, ?_, ?_⟩
    · refine Does.pulseRaise_router hsrc hc (fun _ ⟨_, hst, hm, _⟩ => ⟨hst, hm⟩) ?_
      rintro S ⟨hh, -, -, hp⟩ T rfl hd hl
      obtain ⟨hlatched, hpulse⟩ := Seg.settle_raise (cause := cause) (synd := synd) hs hl
      refine ⟨hlatched, hpulse.trans ?_⟩
      rw [Seg.raise_idle hd ho hs hh hp, Seg.pulse_setPulse_same]
      rfl
    · refine Does.pulseRaise_router hsrc hc (fun _ ⟨_, hst, hm, _⟩ => ⟨hst, hm⟩) ?_
      rintro S ⟨hh, -, -, hp, hq⟩ T rfl hd hl
      obtain ⟨hlatched, hpulse⟩ := Seg.settle_raise (cause := cause) (synd := synd) hs hl
      refine ⟨hlatched, hpulse.trans ?_⟩
      rw [Seg.raise_slot hd ho hs hp hq, Seg.pulse_setPulse_same]
      rfl
    · refine Does.pulseRaise_router hsrc hc (fun _ ⟨_, hst, hm, _⟩ => ⟨hst, hm⟩) ?_
      rintro S ⟨hh, -, -, hp, hq⟩ T rfl hd hl
      obtain ⟨hpulse, hovr, hclk⟩ := Seg.raise_lost (cause := cause) (synd := synd) (inj := false) hd ho hs hp hq htile
      refine ⟨(Seg.settle_raise hs hl).2.trans hpulse, Seg.bit_settle _ ?_ (by omega) (by omega) hovr, Seg.latched_settle _ hclk⟩
      simp [risingWord]; omega
  · refine Does.of_onSeg (execAcknowledgePhaseEnd_ok ho) fun _ ⟨hp, hq⟩ => ?_
    simp only [hp, hq, ↓reduceIte]
    exact ⟨Follows.setPulse .., (Seg.pulse_settle _ hs).trans (Seg.pulse_setPulse_same ..)⟩
  · refine Does.of_onSeg (execAcknowledgePhaseEnd_ok ho) fun _ ⟨hp, hq⟩ => ?_
    simp only [hp, hq, ↓reduceIte]
    exact ⟨Follows.setPulse .., (Seg.pulse_settle _ hs).trans (by rw [Seg.pulse_setPulse_same])⟩

end Sys2Proof.Machine
end

section
namespace Sys2Proof.Machine

/-! ### What a beat's arrival leaves standing -/

/-- `b` is `a` but for registers of PWR and CLK, the words of `ownWord`, counters and crossings. -/
structure SameUnits (a b : Seg) : Prop where
  rest : ∃ regs cnts pulses, b = { a with regs := regs, cnts := cnts, pulses := pulses }
  words : ∀ p off, off < 4096 → off % 4 = 0 → p ≠ pgPwr → p ≠ pgClk → ownWord p off = false → b.word p off = a.word p off

theorem SameUnits.refl (a : Seg) : SameUnits a a := ⟨⟨_, _, _, rfl⟩, fun _ _ _ _ _ _ _ => rfl⟩

theorem SameUnits.trans {a b c : Seg} (h : SameUnits a b) (k : SameUnits b c) : SameUnits a c := by
  refine ⟨?_, fun p off h1 h2 h3 h4 h5 => (k.words p off h1 h2 h3 h4 h5).trans (h.words p off h1 h2 h3 h4 h5)⟩
  obtain ⟨_, _, _, hb⟩ := h.rest
  obtain ⟨_, _, _, hc⟩ := k.rest
  exact ⟨_, _, _, by rw [hc, hb]⟩

/-- Events and counters keep every unit. -/
theorem SameUnits.of_follows {a b : Seg} (h : Follows a b) (hn : b.nis = a.nis) : SameUnits a b := by
  refine ⟨⟨b.regs, b.cnts, b.pulses, ?_⟩, fun p off h1 h2 _ _ h5 => h.words p off h1 h2 h5⟩
  calc b = { b.core with regs := b.regs, cnts := b.cnts, pulses := b.pulses, nis := b.nis } := rfl
    _ = { a.core with regs := b.regs, cnts := b.cnts, pulses := b.pulses, nis := a.nis } := by rw [h.core, hn]

theorem SameUnits.setWord (a : Seg) {p off : Nat} (v : Word) (hp : p = pgPwr ∨ p = pgClk) (h1 : off < 4096) (h2 : off % 4 = 0) :
    SameUnits a (a.setWord p off v) :=
  ⟨⟨_, _, _, rfl⟩, fun _ _ h3 h4 h5 h6 _ => Seg.word_setWord_other _ _ h1 h3 h2 h4 (.inl (by rcases hp with rfl | rfl <;> assumption))⟩

theorem pgNi_ne (n : Nat) : pgNi n ≠ pgPwr ∧ pgNi n ≠ pgClk := by unfold pgNi pgPwr pgClk; omega

theorem ownWord_ni (n : Fin 288) {off : Nat} (h1 : off ≠ 0x010) (h2 : off ≠ 0x018) : ownWord (pgNi n) off = false := by
  have hn := n.isLt
  simp only [ownWord, pgNi, pgClk, pgFlow, Bool.or_eq_false_iff, Bool.and_eq_false_iff, beq_eq_false_iff_ne, decide_eq_false_iff_not]
  omega

section
variable {a b : Seg} (h : SameUnits a b)
include h

theorem SameUnits.ni (n : Nat) : b.ni n = a.ni n := by
  obtain ⟨_, _, _, rfl⟩ := h.rest; rfl

theorem SameUnits.rd {p : Nat} {f : Field} (h1 : f.off < 4096) (h2 : f.off % 4 = 0) (h3 : p ≠ pgPwr) (h4 : p ≠ pgClk)
    (h5 : ownWord p f.off = false) : b.rd p f = a.rd p f := by
  unfold Seg.rd; rw [h.words p f.off h1 h2 h3 h4 h5]

theorem SameUnits.unitTime (n : Nat) : b.unitTime n = a.unitTime n := by
  obtain ⟨_, _, _, rfl⟩ := h.rest; rfl

theorem SameUnits.eid (n : Nat) : b.eid n = a.eid n := by
  obtain ⟨_, _, _, rfl⟩ := h.rest; rfl

theorem SameUnits.mismatched (p off : Nat) : b.mismatched p off = a.mismatched p off := by
  obtain ⟨_, _, _, rfl⟩ := h.rest; rfl

theorem SameUnits.bindEntry (n : Nat) (x : Hdr) : b.bindEntry n x = a.bindEntry n x := by
  obtain ⟨_, _, _, rfl⟩ := h.rest; rfl

theorem SameUnits.lookupCode (n : Nat) (x : Hdr) : b.lookupCode n x = a.lookupCode n x := by
  obtain ⟨_, _, _, rfl⟩ := h.rest; rfl

theorem SameUnits.stamped (n : Fin 288) (x : Hdr) (snp : Bool) : b.stamped n x snp = a.stamped n x snp := by
  have htwin : b.flag (pgNi n) Reg.NI.NI_CFG_TWIN = a.flag (pgNi n) Reg.NI.NI_CFG_TWIN := by
    unfold Seg.flag; rw [h.rd (by decide) (by decide) (pgNi_ne n).1 (pgNi_ne n).2 (ownWord_ni n (by decide) (by decide))]
  unfold Seg.stamped
  rw [h.bindEntry, htwin, h.rd (by decide) (by decide) (pgNi_ne n).1 (pgNi_ne n).2 (ownWord_ni n (by decide) (by decide))]

theorem SameUnits.siteDom (n : Fin 288) : b.siteDom n = a.siteDom n := by
  have hn := n.isLt
  have hoff : 0x100 + 8 * (n.val / 4) < 4096 ∧ (0x100 + 8 * (n.val / 4)) % 4 = 0 := by omega
  unfold Seg.siteDom
  rw [h.mismatched, h.rd hoff.1 hoff.2 (by decide) (by decide) (by simp [ownWord, pgTen, pgClk, pgFlow]; omega)]

theorem SameUnits.mgtDestOk (n : Fin 288) (d : BitVec 12) : b.mgtDestOk n d = a.mgtDestOk n d := by
  have hn : n.val < 0x120 := n.isLt
  have hepoch : b.unitEpoch n = a.unitEpoch n := by
    unfold Seg.unitEpoch; rw [if_pos hn, if_pos hn, h.ni]
  obtain ⟨_, _, _, rfl⟩ := h.rest
  unfold Seg.mgtDestOk Seg.fencedFor
  rw [hepoch]
  rfl

end

/-- An IDLE tile becomes ACTIVE: only CLK and PWR words change. -/
theorem SameUnits.setTilePower_active (s : Seg) {t : Nat} (ht : t < 144) : SameUnits s (s.setTilePower t 0) := by
  unfold Seg.setTilePower
  dsimp only
  have hst : SameUnits s (s.setStTile t 0) :=
    .setWord s _ (.inl rfl) (by show 0x200 + 4 * (t / 8) < 4096; omega) (by show (0x200 + 4 * (t / 8)) % 4 = 0; omega)
  split
  · exact hst
  · exact hst.trans (.setWord _ _ (.inr rfl) (by show 0x140 + 4 * t < 4096; omega) (by show (0x140 + 4 * t) % 4 = 0; omega))

theorem SameUnits.count (s : Seg) (p off : Nat) : SameUnits s (s.count p off) :=
  .of_follows (.count s p off) (s.count_raises p off).nis

theorem SameUnits.evt (s : Seg) (p b : Nat) (x : Word) (inj : Bool) : SameUnits s (s.evt p b x inj) :=
  .of_follows (.evt ..) (Raises.evt ..).nis

/-- A beat that reaches an IDLE tile wakes it at once, which is counted; any other tile stays as it is. -/
theorem Seg.beatIn_cases (s : Seg) (n : Nat) :
    s.beatIn n = s ∨ s.beatIn n = (s.setTilePower (n / 2) 0).count pgPwr 0x828 := by
  unfold Seg.beatIn
  split
  · next h =>
    right
    simp [Seg.tileWakeReq, Seg.tileWakes, Seg.when, sleeps, h]
  · exact .inl rfl

theorem SameUnits.beatIn (s : Seg) (n : Fin 288) : SameUnits s (s.beatIn n) := by
  have hn := n.isLt
  rcases s.beatIn_cases n with h | h <;> rw [h]
  · exact .refl s
  · exact (SameUnits.setTilePower_active s (by omega)).trans (.count ..)

theorem Seg.cnt_setTilePower (s : Seg) (t p v off : Nat) : (s.setTilePower t 0).cnt p v off = s.cnt p v off := by
  unfold Seg.setTilePower
  dsimp only
  split <;> rfl

/-- A beat's arrival counts on the PWR page only. -/
theorem Seg.cnt_beatIn (s : Seg) (n : Nat) {p off : Nat} (hp : 0x10 ≤ p) : (s.beatIn n).cnt p 0 off = s.cnt p 0 off := by
  rcases s.beatIn_cases n with h | h <;> rw [h]
  rw [(Central.count _ (by decide) (by decide)).raises.cnts p 0 off hp, Seg.cnt_setTilePower]

/-! ### A parity error (R69) -/

theorem Follows.parityError (s : Seg) (n : Nat) : Follows s (s.parityError n) := (Follows.count ..).trans (Follows.evt ..)

theorem SameUnits.parityError (s : Seg) (n : Nat) : SameUnits s (s.parityError n) := (SameUnits.count ..).trans (.evt ..)

theorem Seg.counted_parityError (s : Seg) (n : Nat) : Counted s (s.parityError n) (pgNi n) 0x860 1 := by
  have hp : 0x10 ≤ pgNi n := by unfold pgNi; omega
  unfold Counted Seg.parityError
  rw [(Raises.evt ..).cnts _ 0 _ hp]
  exact s.counted_count hp

theorem Seg.latched_parityError (s : Seg) (n : Nat) : (s.parityError n).latched (pgNi n) 8 := Seg.latched_evt _ _ _ _ (by decide)

/-- The segment once the tile of a beat is awake and the beat's parity has been looked at. -/
def Seg.beatSeen (s : Seg) (n : Nat) (bad : Bool) : Seg := (s.beatIn n).when bad (·.parityError n)

theorem Follows.beatSeen (s : Seg) (n : Nat) (bad : Bool) : Follows (s.beatIn n) (s.beatSeen n bad) :=
  (Follows.refl _).when bad _ (fun x => .parityError x n)

theorem SameUnits.beatSeen (s : Seg) (n : Fin 288) (bad : Bool) : SameUnits s (s.beatSeen n bad) := by
  unfold Seg.beatSeen Seg.when
  split
  · exact (SameUnits.beatIn s n).trans (.parityError ..)
  · exact .beatIn s n

/-- As `Does.of_onSeg`, where `f` is `f'` under the premise. -/
theorem Does.of_onSeg_eq {c : Instr} {s : State} {g : Fin 4} {f f' e : Seg → Seg} {pre : Seg → Prop}
    {post : Seg → Seg → Prop} (hx : exec c s = onSeg s g f) (hf : ∀ S, pre S → f S = f' S)
    (h : (s.seg g).inReset = false → pre (s.seg g) →
      Follows (e (s.seg g)) (f' (s.seg g)) ∧ post (s.seg g) (f' (s.seg g)).settle) : Does c s g pre e post :=
  Does.of_onSeg hx fun hr hp => by rw [hf _ hp]; exact h hr hp

theorem Seg.modNi_congr {s : Seg} {n : Nat} {f f' : Ni → Ni} (h : f (s.ni n) = f' (s.ni n)) : s.modNi n f = s.modNi n f' := by
  unfold Seg.modNi; rw [h]

theorem Seg.cnt_setNi (s : Seg) (n : Nat) (x : Ni) (p v off : Nat) : (s.setNi n x).cnt p v off = s.cnt p v off := rfl

/-- A look at a beat leaves the site, so what was read of it before may be read after. -/
theorem Seg.modNi_beatSeen (S : Seg) (n : Fin 288) (bad : Bool) (k : Ni → Ni → Ni) :
    (S.beatSeen n bad).modNi n (k (S.ni n)) = (S.beatSeen n bad).modNi n fun x => k x x :=
  Seg.modNi_congr (by rw [(SameUnits.beatSeen S n bad).ni])

/-- A beat put with those of its packet: the effect, and a parity error counted and told. -/
theorem Does.gathers {c : Instr} {s : State} {g : Fin 4} {n : Fin 288} {bad : Bool} {f : Seg → Seg} {add : Ni → Ni}
    {pre : Seg → Prop} (hx : exec c s = onSeg s g f)
    (hf : ∀ S, pre S → f S = (S.beatSeen n bad).modNi n add)
    (hup : ∀ (x : Ni) (u : Bool), add { x with up := u } = { add x with up := u }) :
    Does c s g pre (fun S => (S.beatIn n).modNi n add)
      (fun S t => bad = true → Counted S t (pgNi n) 0x860 1 ∧ t.latched (pgNi n) 8) := by
  refine Does.of_onSeg hx fun _ hp => ?_
  rw [hf _ hp]
  refine ⟨(Follows.beatSeen ..).modNi n add hup, ?_⟩
  rintro rfl
  have hpg : 0x10 ≤ pgNi n := by unfold pgNi; omega
  refine ⟨?_, Seg.latched_settle _ (Seg.latched_parityError ..)⟩
  have hcount := Seg.counted_parityError ((s.seg g).beatIn n) n
  unfold Counted at hcount ⊢
  rw [Seg.cnt_settle _ hpg, Seg.modNi, Seg.cnt_setNi]
  exact hcount.trans (by rw [Seg.cnt_beatIn _ _ hpg])

/-! ### WD (R69, R119, R125) -/

theorem Seg.wdReady_of_taken {s : Seg} {n : Nat} (h : (s.ni n).up = true ∧ (s.ni n).resetting = false ∧ s.niDraining n = false) :
    s.wdReady n = true := by
  obtain ⟨hu, hr, hd⟩ := h
  simp [Seg.wdReady, Ni.takes, hu, hr, hd]

/-- No burst is given while no LAST has come. -/
theorem Seg.takeBursts_none {s : Seg} {n : Nat} (h : ∀ b ∈ (s.ni n).wd, b.2 = false) (fuel : Nat) : s.takeBursts n fuel = s := by
  have hnone : (s.ni n).wd.findIdx? (·.2) = none := by
    rw [List.findIdx?_eq_none_iff]; exact fun b hb => h b hb
  cases fuel with
  | zero => rfl
  | succ fuel =>
    unfold Seg.takeBursts
    simp only [hnone]
    cases (s.ni n).store.find? (fun e => e.phase == .data) <;> rfl

/-- The segment with a site replaced and put back follows from it: the site reads as it did. -/
theorem Follows.setNi_back (a : Seg) (n : Nat) (x : Ni) : Follows a ((a.setNi n x).setNi n (a.ni n)) := by
  refine ⟨rfl, fun _ _ _ _ _ => rfl, fun m => ?_⟩
  have : ((a.setNi n x).setNi n (a.ni n)).ni m = a.ni m := by
    by_cases hm : m = n
    · rw [hm, Seg.ni_setNi_same]
    · rw [Seg.ni_setNi_other _ _ hm, Seg.ni_setNi_other _ _ hm]
  rw [this]
  exact ⟨rfl, id⟩

/-- Two updates of a site are one. -/
theorem Follows.modNi_modNi (a : Seg) (n : Nat) (f k : Ni → Ni) :
    Follows (a.modNi n fun x => k (f x)) ((a.modNi n f).modNi n k) := by
  refine ⟨rfl, fun _ _ _ _ _ => rfl, fun m => ?_⟩
  have : ((a.modNi n f).modNi n k).ni m = (a.modNi n fun x => k (f x)).ni m := by
    unfold Seg.modNi
    by_cases hm : m = n
    · rw [hm, Seg.ni_setNi_same, Seg.ni_setNi_same, Seg.ni_setNi_same]
    · rw [Seg.ni_setNi_other _ _ hm, Seg.ni_setNi_other _ _ hm, Seg.ni_setNi_other _ _ hm]
  rw [this]
  exact ⟨rfl, id⟩

/-- The one-beat burst of an answer: it makes the answer eligible. -/
theorem Seg.burstDone_answer {s : Seg} {n : Nat} {e : Entry} (d : DataFlit) (ha : e.answer = true) (hd : e.dead = false)
    (hn : e.need = 1) :
    s.burstDone n e [d] = s.modEntry n e.id fun f => { f with data := [d], phase := .eligible, since := s.unitTime n } := by
  unfold Seg.burstDone
  simp [ha, hd, hn, Seg.when, List.range_succ]

/-- A complete burst goes to the first entry that waits for one. -/
theorem Seg.takeBursts_give {s : Seg} {n : Nat} {e : Entry} {d : DataFlit} (hwd : (s.ni n).wd = [(d, true)])
    (he : (s.ni n).store.find? (fun e => e.phase == .data) = some e) (fuel : Nat) :
    s.takeBursts n (fuel + 1) = ((s.setNi n { s.ni n with wd := [] }).burstDone n e [d]).takeBursts n fuel := by
  have hlast : (s.ni n).wd.findIdx? (·.2) = some 0 := by rw [hwd]; rfl
  rw [Seg.takeBursts]
  simp only [he, hlast]
  rw [hwd]
  rfl

/-- A LAST beat with no other before it, while an answer's burst of one beat is awaited. -/
theorem Seg.bursts_answer {s : Seg} {n : Nat} {e : Entry} {d : DataFlit} (hwd : (s.ni n).wd = [(d, true)])
    (he : (s.ni n).store.find? (fun e => e.phase == .data) = some e) (ha : e.answer = true)
    (hd : e.dead = false) (hn : e.need = 1) :
    s.bursts n = (s.setNi n { s.ni n with wd := [] }).modEntry n e.id fun f =>
      { f with data := [d], phase := .eligible, since := s.unitTime n } := by
  have hlen : (s.ni n).store.length ≠ 0 := fun h0 => by
    rw [List.length_eq_zero_iff.1 h0] at he; cases he
  obtain ⟨fuel, hfuel⟩ := Nat.exists_eq_succ_of_ne_zero hlen
  rw [Seg.bursts, hfuel, Seg.takeBursts_give hwd he, Seg.burstDone_answer d ha hd hn]
  refine Seg.takeBursts_none (fun b hb => ?_) fuel
  rw [Seg.modEntry, Seg.modNi, Seg.ni_setNi_same, Seg.ni_setNi_same] at hb
  cases hb

/-- The last beat of an answer's one-beat burst. -/
theorem Follows.bursts_answer {s : Seg} {n : Nat} {e : Entry} {d : DataFlit} (hwd : (s.ni n).wd = [])
    (he : (s.ni n).store.find? (fun e => e.phase == .data) = some e) (ha : e.answer = true)
    (hd : e.dead = false) (hn : e.need = 1) :
    Follows (s.modEntry n e.id fun f => { f with data := [d], phase := .eligible, since := s.unitTime n })
      ((s.modNi n fun x => { x with wd := x.wd ++ [(d, true)] }).bursts n) := by
  generalize hT : s.modNi n (fun x => { x with wd := x.wd ++ [(d, true)] }) = T
  have hni : T.ni n = { s.ni n with wd := [(d, true)] } := by
    rw [← hT, Seg.modNi, Seg.ni_setNi_same, hwd]; rfl
  have hback : { T.ni n with wd := [] } = s.ni n := by rw [hni, ← hwd]
  rw [Seg.bursts_answer (by rw [hni]) (by rw [hni]; exact he) ha hd hn, hback, ← hT]
  exact (Follows.setNi_back s n _).modNi n _ (fun _ _ => rfl)

/-! ### SR (R107, R125–R128) -/

theorem Seg.srReady_of_taken {s : Seg} {n : Nat} (h : Hdr)
    (ht : (s.ni n).up = true ∧ (s.ni n).resetting = false ∧ s.niDraining n = false) : s.srReady n h = true := by
  obtain ⟨hu, hr, hd⟩ := ht
  simp [Seg.srReady, Ni.takes, hu, hr, hd]

/-- The header-store entry of a snoop whose lookup passed, in the segment `s` (R128). -/
def Seg.snoopEntry (s : Seg) (n : Nat) (h : Hdr) : Entry :=
  { id := 0, hdr := { s.stamped n h true with yellow := false, poison := h.poison }, bind := h.dest.truncate 8,
    alt := bindAlt (s.bindEntry n h), altEn := bindHasAlt (s.bindEntry n h), bindClass := (s.stamped n h true).cls
    phase := .eligible, since := s.unitTime n }

theorem SameUnits.snoopEntry {a b : Seg} (h : SameUnits a b) (n : Fin 288) (x : Hdr) : b.snoopEntry n x = a.snoopEntry n x := by
  unfold Seg.snoopEntry
  rw [h.stamped, h.bindEntry, h.unitTime]

theorem Seg.srRequest_ok {s : Seg} {n : Nat} {h : Hdr} (hc : s.lookupCode n h = cOk) :
    s.srRequest n h false = s.modNi n fun x => (x.launched (h.dest.truncate 8)).enter (s.snoopEntry n h) := by
  unfold Seg.srRequest
  rw [hc, if_pos rfl, Bool.or_false]
  rfl

/-- A site with its SR beats put away looks up as before. -/
theorem Seg.snoopEntry_modSr (s : Seg) (n : Nat) (h : Hdr) (l : List (BitVec 256 × Bool)) :
    (s.modNi n fun x => { x with sr := l }).lookupCode n h = s.lookupCode n h ∧
      (s.modNi n fun x => { x with sr := l }).snoopEntry n h = s.snoopEntry n h := by
  have hbind : (s.modNi n fun x => { x with sr := l }).bindEntry n h = s.bindEntry n h := by
    unfold Seg.bindEntry Seg.modNi; rw [Seg.ni_setNi_same]
  have hdest : ∀ d, (s.modNi n fun x => { x with sr := l }).destOk n d = s.destOk n d := fun d => by
    unfold Seg.destOk Seg.niRing Seg.modNi; rw [Seg.ni_setNi_same]; rfl
  refine ⟨?_, ?_⟩
  · simp only [Seg.lookupCode, hbind, hdest]
  · unfold Seg.snoopEntry Seg.stamped; rw [hbind]; rfl

/-- A snoop whose lookup passes is entered as the model's one step. -/
theorem Follows.srTake_snoop {s : Seg} {n : Nat} {data : BitVec 256}
    (ht : (Hdr.ofBits data).type = tSnoop ∨ (Hdr.ofBits data).type = tBackInval) (hc : s.lookupCode n (Hdr.ofBits data) = cOk) :
    Follows (s.modNi n fun x => Ni.enter (Ni.launched { x with sr := [] } ((Hdr.ofBits data).dest.truncate 8))
        (s.snoopEntry n (Hdr.ofBits data)))
      ((s.modNi n fun x => { x with sr := [] }).srTake n [(data, false)]) := by
  obtain ⟨hcode, hentry⟩ := s.snoopEntry_modSr n (Hdr.ofBits data) []
  have htake : (s.modNi n fun x => { x with sr := [] }).srTake n [(data, false)] =
      (s.modNi n fun x => { x with sr := [] }).srRequest n (Hdr.ofBits data) false := by
    unfold Seg.srTake
    simp only [List.any_cons, List.any_nil, Bool.or_false]
    exact if_pos ht
  rw [htake, Seg.srRequest_ok (hcode.trans hc), hentry]
  exact Follows.modNi_modNi s n (fun x => { x with sr := [] })
    fun x => (x.launched ((Hdr.ofBits data).dest.truncate 8)).enter (s.snoopEntry n (Hdr.ofBits data))

/-! ### MG (R54, R66, R114, R210) -/

theorem Seg.mgReady_of {s : Seg} {n : Nat} (h : MgtHdr) (hu : (s.ni n).up = true) (hr : (s.ni n).resetting = false)
    (hm : (s.ni n).mgIn ≠ [] ∨ (s.ni n).regacc = none) : s.mgReady n h = true := by
  rcases hm with hm | hm <;> simp [Seg.mgReady, Ni.takes, hu, hr, hm]

/-- A second REGACC waits (R210). -/
theorem Seg.mgReady_second {s : Seg} {n : Nat} {h : MgtHdr} (hm : (s.ni n).mgIn = []) (hreg : (s.ni n).regacc.isSome = true)
    (ht : h.type = tRegacc) : (!s.mgReady n h) = true := by
  simp [Seg.mgReady, hm, hreg, ht]

theorem Follows.injectMgt {a b : Seg} (h : Follows a b) (l : Nat) (x : MgtHdr) (pay : List (BitVec 64)) :
    Follows (a.injectMgt l x pay) (b.injectMgt l x pay) := by
  unfold Seg.injectMgt Seg.eid
  rw [h.strap]
  dsimp only
  split
  · exact h.modEp l _
  · exact h.update (·.injectFlits l 3 (mgtFlits x.glaze pay 0)) (fun _ => rfl) (fun _ => rfl) (fun _ => rfl) (fun _ => rfl)

theorem Seg.cnt_injectMgt (s : Seg) (l : Nat) (x : MgtHdr) (pay : List (BitVec 64)) (p v off : Nat) :
    (s.injectMgt l x pay).cnt p v off = s.cnt p v off := by
  unfold Seg.injectMgt; dsimp only; split <;> rfl

/-- The header under which the NI of site `n` sends a REGACC whose first flit is `first` (R54, R114). -/
def Seg.regaccHdr (s : Seg) (n : Nat) (first : BitVec 64) : MgtHdr :=
  { MgtHdr.ofBits first (s.siteDom n) with
    src := s.eid n, fab := false, epoch := (s.ni n).epoch, domBad := s.mismatched pgTen (0x100 + 8 * (n / 4)) }

theorem SameUnits.regaccHdr {a b : Seg} (h : SameUnits a b) (n : Fin 288) (first : BitVec 64) :
    b.regaccHdr n first = a.regaccHdr n first := by
  unfold Seg.regaccHdr
  rw [h.siteDom, h.eid, h.ni, h.mismatched]

/-- A site with its MG beats put away sends and reaches as before. -/
theorem Seg.regaccHdr_modMg (s : Seg) (n : Nat) (first : BitVec 64) (l : List (BitVec 64 × Bool)) (d : BitVec 12) :
    (s.modNi n fun x => { x with mgIn := l }).regaccHdr n first = s.regaccHdr n first ∧
      (s.modNi n fun x => { x with mgIn := l }).mgtDestOk n d = s.mgtDestOk n d := by
  have hunit : (s.modNi n fun x => { x with mgIn := l }).unitEpoch n = s.unitEpoch n := by
    unfold Seg.unitEpoch Seg.modNi; rw [Seg.ni_setNi_same]; rfl
  refine ⟨?_, ?_⟩
  · unfold Seg.regaccHdr Seg.modNi; rw [Seg.ni_setNi_same]; rfl
  · unfold Seg.mgtDestOk Seg.fencedFor Seg.niRing
    rw [hunit]
    unfold Seg.modNi; rw [Seg.ni_setNi_same]; rfl

/-- A REGACC of two good beats whose destination can be reached is counted and sent. -/
theorem Seg.mgTake_regacc {s : Seg} {n : Nat} {first data : BitVec 64} (ht : (s.regaccHdr n first).type = tRegacc)
    (hd : s.mgtDestOk n (s.regaccHdr n first).dest = true) :
    s.mgTake n [(first, false), (data, false)] =
      ((s.modNi n fun x => { x with regacc := some (s.regaccHdr n first).tag, regaccRd := !data.getLsbD 34 }).count
        (pgNi n) 0x800).injectMgt n (s.regaccHdr n first) [data] := by
  show (if (s.regaccHdr n first).type ≠ tRegacc then _
    else if (([(first, false), (data, false)] : List (BitVec 64 × Bool)).any (·.2) ||
      !s.mgtDestOk n (s.regaccHdr n first).dest) = true then _ else _) = _
  exact (if_neg (fun h => h ht)).trans (if_neg (by simpa using hd))

/-- The last beat of a REGACC: sent, and counted in PKT_TX. -/
theorem Follows.mgTake_regacc {s : Seg} {n : Nat} {first data : BitVec 64} (ht : (s.regaccHdr n first).type = tRegacc)
    (hd : s.mgtDestOk n (s.regaccHdr n first).dest = true) :
    Follows ((s.modNi n fun x =>
        { x with mgIn := [], regacc := some (s.regaccHdr n first).tag, regaccRd := !data.getLsbD 34 }).injectMgt n
        (s.regaccHdr n first) [data])
      ((s.modNi n fun x => { x with mgIn := [] }).mgTake n [(first, false), (data, false)]) ∧
    Counted s ((s.modNi n fun x => { x with mgIn := [] }).mgTake n [(first, false), (data, false)]) (pgNi n) 0x800 1 := by
  obtain ⟨hhdr, hreach⟩ := s.regaccHdr_modMg n first [] (s.regaccHdr n first).dest
  rw [Seg.mgTake_regacc (by rw [hhdr]; exact ht) (by rw [hhdr, hreach]; exact hd), hhdr]
  refine ⟨Follows.injectMgt ((Follows.modNi_modNi s n (fun x => { x with mgIn := [] })
    fun x => { x with regacc := some (s.regaccHdr n first).tag, regaccRd := !data.getLsbD 34 }).trans (.count ..)) _ _ _, ?_⟩
  unfold Counted
  rw [Seg.cnt_injectMgt]
  exact Seg.counted_count _ (by unfold pgNi; omega)

/-! ### WD_STALL_TIMEOUT (R119) -/

/-- An entry waits for its burst where some entry is in the phase of its data. -/
theorem Seg.dataWaits_pos {x : Ni} (h : ∃ e ∈ x.store, e.phase = .data) :
    0 < (x.store.filter (fun e => e.phase == .data)).length := by
  obtain ⟨e, he, hp⟩ := h
  exact List.length_pos_of_mem (List.mem_filter.2 ⟨he, by simp [hp]⟩)

theorem Seg.dataWaits_none {x : Ni} (h : ∀ e ∈ x.store, e.phase ≠ .data) :
    (x.store.filter (fun e => e.phase == .data)).length = 0 := by
  rw [List.filter_eq_nil_iff.2 (fun e he => by simpa using h e he)]; rfl

/-! The three guards of the ports, passed (R66). -/
theorem Seg.wdBeat_taken {S : Seg} {n : Nat}
    (ht : (S.ni n).up = true ∧ (S.ni n).resetting = false ∧ S.niDraining n = false) (T : Seg) :
    (if (!S.wdReady n) = true then S else T) = T :=
  if_neg (by simp [Seg.wdReady_of_taken ht])

theorem Seg.srBeat_taken {S : Seg} {n : Nat} (h : Hdr)
    (ht : (S.ni n).up = true ∧ (S.ni n).resetting = false ∧ S.niDraining n = false) (T : Seg) :
    (if (!S.srReady n h) = true then S else T) = T :=
  if_neg (by simp [Seg.srReady_of_taken h ht])

theorem Seg.mgBeat_taken {S : Seg} {n : Nat} (h : MgtHdr) (hu : (S.ni n).up = true) (hr : (S.ni n).resetting = false)
    (hm : (S.ni n).mgIn ≠ [] ∨ (S.ni n).regacc = none) (T : Seg) : (if (!S.mgReady n h) = true then S else T) = T :=
  if_neg (by simp [Seg.mgReady_of h hu hr hm])

/-- A beat that is not its burst's last gives no burst. -/
theorem Seg.bursts_gathering {T : Seg} {n : Nat} (hwd : ∀ b ∈ (T.ni n).wd, b.2 = false) (d : DataFlit) :
    (T.modNi n fun x => { x with wd := x.wd ++ [(d, false)] }).bursts n =
      T.modNi n fun x => { x with wd := x.wd ++ [(d, false)] } := by
  refine Seg.takeBursts_none (fun b hb => ?_) _
  rw [Seg.modNi, Seg.ni_setNi_same] at hb
  rcases List.mem_append.1 hb with hb | hb
  · exact hwd b hb
  · rw [List.mem_singleton.1 hb]

/-- What the agent's ports ask of their site before they take a beat. -/
def Seg.niTakesBeats (n : Nat) (S : Seg) : Prop :=
  (S.ni n).up = true ∧ (S.ni n).resetting = false ∧ S.niDraining n = false

/-- A beat with a parity error is counted, and its event is latched. -/
def Seg.BadBeatReported (n : Nat) (bad : Bool) (S t : Seg) : Prop :=
  bad = true → Counted S t (pgNi n) 0x860 1 ∧ t.latched (pgNi n) 8

section
variable (s : State) (g : Fin 4) (n : Fin 288)

theorem Does.wdBeat_gathers (data : BitVec 1024) (par : BitVec 16) :
    Does (.wdBeat g n data par false) s g (fun S => S.niTakesBeats n ∧ ∀ b ∈ (S.ni n).wd, b.2 = false)
      (fun S => (S.beatIn n).modNi n fun x => { x with wd := x.wd ++ [(⟨data, !parityOk 16 data.toNat par.toNat⟩, false)] })
      (Seg.BadBeatReported n (!parityOk 16 data.toNat par.toNat)) := by
  refine Does.gathers rfl (fun S ⟨ht, hwd⟩ => (Seg.wdBeat_taken ht _).trans ?_) (fun _ _ => rfl)
  exact Seg.bursts_gathering (T := S.beatSeen n _) (by rw [(SameUnits.beatSeen S n _).ni]; exact hwd) _

theorem Does.wdBeat_answers (data : BitVec 1024) (par : BitVec 16) (e : Entry) :
    Does (.wdBeat g n data par true) s g
      (fun S => S.niTakesBeats n ∧ (!parityOk 16 data.toNat par.toNat) = false ∧ (S.ni n).wd = [] ∧
        (S.ni n).store.find? (fun e => e.phase == .data) = some e ∧ e.answer = true ∧ e.dead = false ∧ e.need = 1)
      (fun S => (S.beatIn n).modEntry n e.id fun f =>
        { f with data := [⟨data, false⟩], phase := .eligible, since := S.unitTime n }) := by
  refine Does.of_onSeg_eq (f' := fun S => ((S.beatSeen n (!parityOk 16 data.toNat par.toNat)).modNi n fun x =>
    { x with wd := x.wd ++ [(⟨data, !parityOk 16 data.toNat par.toNat⟩, true)] }).bursts n) rfl
    (fun S ⟨ht, _⟩ => Seg.wdBeat_taken ht _) ?_
  rintro - ⟨-, hgood, hwd, he, ha, hd, hn⟩
  have hunits := SameUnits.beatIn (s.seg g) n
  rw [← hunits.ni] at hwd he
  rw [hgood, ← hunits.unitTime]
  exact ⟨Follows.bursts_answer hwd he ha hd hn, trivial⟩

theorem Does.srBeat_gathers (data : BitVec 256) (par : BitVec 4) :
    Does (.srBeat g n data par false) s g (Seg.niTakesBeats n)
      (fun S => (S.beatIn n).modNi n fun x => { x with sr := x.sr ++ [(data, !parityOk 4 data.toNat par.toNat)] })
      (Seg.BadBeatReported n (!parityOk 4 data.toNat par.toNat)) :=
  Does.gathers rfl (fun S ht => ((Seg.srBeat_taken _ ht _).trans (if_neg Bool.false_ne_true)).trans
    (Seg.modNi_beatSeen S n _ fun y x => { x with sr := y.sr ++ [(data, !parityOk 4 data.toNat par.toNat)] }))
    (fun _ _ => rfl)

theorem Does.srBeat_snoops (data : BitVec 256) (par : BitVec 4) :
    Does (.srBeat g n data par true) s g
      (fun S => S.niTakesBeats n ∧ (!parityOk 4 data.toNat par.toNat) = false ∧ (S.ni n).sr = [] ∧
        ((Hdr.ofBits data).type = tSnoop ∨ (Hdr.ofBits data).type = tBackInval) ∧ S.lookupCode n (Hdr.ofBits data) = cOk)
      (fun S => (S.beatIn n).modNi n fun x => Ni.enter (Ni.launched { x with sr := [] } ((Hdr.ofBits data).dest.truncate 8))
        (S.snoopEntry n (Hdr.ofBits data))) := by
  refine Does.of_onSeg_eq (f' := fun S => ((S.beatSeen n (!parityOk 4 data.toNat par.toNat)).modNi n fun x =>
    { x with sr := [] }).srTake n ((S.ni n).sr ++ [(data, !parityOk 4 data.toNat par.toNat)])) rfl
    (fun S ⟨ht, _⟩ => (Seg.srBeat_taken _ ht _).trans (if_pos rfl)) ?_
  rintro - ⟨-, hgood, hsr, htype, hcode⟩
  have hunits := SameUnits.beatIn (s.seg g) n
  have hfol := Follows.srTake_snoop (n := n) htype ((hunits.lookupCode n _).trans hcode)
  rw [hunits.snoopEntry] at hfol
  rw [hgood, hsr]
  exact ⟨hfol, trivial⟩

theorem Does.mgInputBeat_gathers (data : BitVec 64) (par : Bool) :
    Does (.mgInputBeat g n data par false) s g
      (fun S => (S.ni n).up = true ∧ (S.ni n).resetting = false ∧ ((S.ni n).mgIn ≠ [] ∨ (S.ni n).regacc = none))
      (fun S => (S.beatIn n).modNi n fun x => { x with mgIn := x.mgIn ++ [(data, !parityOk 1 data.toNat (b2n par))] })
      (Seg.BadBeatReported n (!parityOk 1 data.toNat (b2n par))) :=
  Does.gathers rfl (fun S ⟨hu, hr, hm⟩ => ((Seg.mgBeat_taken _ hu hr hm _).trans (if_neg Bool.false_ne_true)).trans
    (Seg.modNi_beatSeen S n _ fun y x => { x with mgIn := y.mgIn ++ [(data, !parityOk 1 data.toNat (b2n par))] }))
    (fun _ _ => rfl)

/-- No second REGACC while one waits for its answer (R210). -/
theorem Does.mgInputBeat_second (data : BitVec 64) (par last : Bool) :
    Does (.mgInputBeat g n data par last) s g
      (fun S => (S.ni n).mgIn = [] ∧ (S.ni n).regacc.isSome = true ∧ (MgtHdr.ofBits data 0).type = tRegacc) (fun S => S) :=
  Does.of_onSeg_eq (f' := fun S => S) rfl (fun _ ⟨hm, hreg, ht⟩ => if_pos (Seg.mgReady_second hm hreg ht))
    fun _ _ => ⟨.refl _, trivial⟩

theorem Does.mgInputBeat_regacc (data first : BitVec 64) (par : Bool) :
    Does (.mgInputBeat g n data par true) s g
      (fun S => (S.ni n).up = true ∧ (S.ni n).resetting = false ∧ (!parityOk 1 data.toNat (b2n par)) = false ∧
        (S.ni n).mgIn = [(first, false)] ∧ (S.regaccHdr n first).type = tRegacc ∧
        S.mgtDestOk n (S.regaccHdr n first).dest = true)
      (fun S => ((S.beatIn n).modNi n fun x =>
        { x with mgIn := [], regacc := some (S.regaccHdr n first).tag, regaccRd := !data.getLsbD 34 }).injectMgt n
        (S.regaccHdr n first) [data])
      (fun S t => Counted S t (pgNi n) 0x800 1) := by
  refine Does.of_onSeg_eq (f' := fun S => ((S.beatSeen n (!parityOk 1 data.toNat (b2n par))).modNi n fun x =>
    { x with mgIn := [] }).mgTake n ((S.ni n).mgIn ++ [(data, !parityOk 1 data.toNat (b2n par))])) rfl
    (fun S ⟨hu, hr, _, hm, _⟩ =>
      (Seg.mgBeat_taken _ hu hr (.inl (by rw [hm]; exact List.cons_ne_nil _ _)) _).trans (if_pos rfl)) ?_
  rintro - ⟨-, -, hgood, hm, ht, hd⟩
  have hunits := SameUnits.beatIn (s.seg g) n
  have hhdr := hunits.regaccHdr n first
  obtain ⟨hfol, hcount⟩ := Follows.mgTake_regacc (s := (s.seg g).beatIn n) (n := n) (first := first) (data := data)
    (by rw [hhdr]; exact ht) (by rw [hhdr, hunits.mgtDestOk]; exact hd)
  rw [hhdr] at hfol
  rw [hgood, hm]
  refine ⟨hfol, ?_⟩
  have hpg : 0x10 ≤ pgNi n := by unfold pgNi; omega
  unfold Counted at hcount ⊢
  rw [Seg.cnt_settle _ hpg]
  exact hcount.trans (by rw [Seg.cnt_beatIn _ _ hpg])

theorem Does.wdStallTimeout_event :
    Does (.wdStallTimeout g n) s g
      (fun S => S.niRuns n = true ∧ (S.ni n).wd = [] ∧ ∃ e ∈ (S.ni n).store, e.phase = .data) (fun S => S)
      (fun _ t => t.latched (pgNi n) 14) := by
  refine Does.of_onSeg_eq (f' := fun S => S.evt (pgNi n) 14) rfl (fun S ⟨hruns, hwd, hdata⟩ => ?_) fun _ _ =>
    ⟨Follows.evt .., Seg.latched_settle _ (Seg.latched_evt _ _ _ _ (by decide))⟩
  exact if_pos ⟨by rw [if_pos hwd]; exact Seg.dataWaits_pos hdata, hruns⟩

theorem Does.wdStallTimeout_none :
    Does (.wdStallTimeout g n) s g (fun S => S.niRuns n = false ∨ ∀ e ∈ (S.ni n).store, e.phase ≠ .data) (fun S => S) := by
  refine Does.of_onSeg_eq (f' := fun S => S) rfl (fun S hno => if_neg ?_) fun _ _ => ⟨.refl _, trivial⟩
  rintro ⟨hlt, hruns⟩
  rcases hno with hno | hno
  · rw [hno] at hruns; cases hruns
  · rw [Seg.dataWaits_none hno] at hlt; exact Nat.not_lt_zero _ hlt

end

/-- Settles O39, port by port. -/
theorem inputBeats : Obligations.InputBeats := by
  intro s g n
  refine ⟨?_, ?_, Does.wdStallTimeout_event s g n, Does.wdStallTimeout_none s g n⟩
  · intro taken htaken
    refine ⟨fun data par bad hbad => ?_, fun data par bad h hbad hh => ?_⟩
    · rw [hbad, htaken]
      exact ⟨Does.wdBeat_gathers s g n data par, Does.wdBeat_answers s g n data par⟩
    · rw [hbad, htaken, hh]
      exact ⟨Does.srBeat_gathers s g n data par, Does.srBeat_snoops s g n data par⟩
  · intro data par bad hbad
    rw [hbad]
    refine ⟨Does.mgInputBeat_gathers s g n data par, Does.mgInputBeat_second s g n data par, ?_⟩
    intro first h hh
    rw [hh]
    exact Does.mgInputBeat_regacc s g n data first par

end Sys2Proof.Machine
end

section
namespace Sys2Proof.Machine

/-! ### Completions at the management port -/

/-- The port's outputs after an access with an error code, and the second half that a 64-bit read leaves there. -/
def Mp.answered (m : Mp) (a : Access) (code : Nat) (data : BitVec 64) : Mp :=
  { m with
    ack := true, err := code != 0
    rdata := if code ≠ 0 then BitVec.ofNat 32 code else if a.wr then 0 else data.truncate 32
    half := if code = 0 ∧ a.size = 3 ∧ a.wr = false then some (false, a.addr, (data >>> 32).truncate 32) else none }

theorem Mp.answered_read (m : Mp) {a : Access} (hw : a.wr = false) (data : BitVec 64) :
    m.answered a 0 data =
      { m with
        ack := true, err := false, rdata := data.truncate 32
        half := if a.size = 3 then some (false, a.addr, (data >>> 32).truncate 32) else none } := by
  simp [Mp.answered, hw]

/-- The counters of SEG that a completion of the management port moves. -/
def Seg.accessCounted (s : Seg) (code : Nat) : Seg :=
  (s.count pgSeg 0x820).when (code != 0) (·.count pgSeg 0x818)

theorem Seg.answer_mp (s : Seg) {a : Access} (ha : a.req = .mp) (code : Nat) (data : BitVec 64) :
    s.answer a code data = (s.accessCounted code).setMp ((s.accessCounted code).mp.answered a code data) := by
  unfold Seg.answer Seg.accessCounted
  simp only [ha, ↓reduceIte]
  rfl

theorem Follows.accessCounted (s : Seg) (code : Nat) : Follows s (s.accessCounted code) :=
  (Follows.count ..).when _ _ fun x => Follows.count x _ _

theorem Follows.answer_mp (s : Seg) {a : Access} (ha : a.req = .mp) (code : Nat) (data : BitVec 64) :
    Follows (s.setMp (s.mp.answered a code data)) (s.answer a code data) := by
  have h := Follows.accessCounted s code
  rw [s.answer_mp ha, h.mp]
  exact h.setMp _

theorem Seg.latched_answer_mp {s : Seg} {a : Access} (ha : a.req = .mp) (code : Nat) (data : BitVec 64) {p b : Nat}
    (h : s.latched p b) : (s.answer a code data).latched p b := by
  have hc : (s.accessCounted code).latched p b := by
    have h1 := (Central.count s (p := pgSeg) (off := 0x820) (by decide) (by decide)).raises.latched h
    unfold Seg.accessCounted Seg.when
    split
    · exact (Central.count _ (by decide) (by decide)).raises.latched h1
    · exact h1
  rw [s.answer_mp ha]
  exact hc

theorem Seg.mpWaiting_idle {s : Seg} (h : s.ctl.stalled = []) : s.mpWaiting = false := by
  unfold Seg.mpWaiting; rw [h]; rfl

/-! ### Requests of the port (R77, R78) -/

/-- A request with no half before it, other than the first half of a write, is submitted as one access. -/
theorem Seg.mpTake_whole {s : Seg} {wr : Bool} {size : BitVec 2} {addr wdata : Word} (hr : s.mp.ready = true)
    (hw : s.mpWaiting = false) (hh : s.mp.half = none) (hs : ¬ (size = 3 ∧ wr = true)) :
    s.mpTake wr size addr wdata = (s.setMp { ready := true }).submit
      { req := .mp, wr := wr, size := size, addr := addr, data := wdata.zeroExtend 64 } := by
  unfold Seg.mpTake
  simp only [hr, hw, hh, hs, Bool.not_true, Bool.false_eq_true, ↓reduceIte]

/-- The first half of a 64-bit write is kept when no row refuses it. -/
theorem Seg.mpTake_firstHalf {s : Seg} {addr wdata : Word} (hr : s.mp.ready = true) (hw : s.mpWaiting = false)
    (hh : s.mp.half = none) (hsoak : s.soak = false)
    (he : s.accessError { req := .mp, wr := true, size := 3, addr := addr } = 0) :
    s.mpTake true 3 addr wdata = s.setMp { ready := true, ack := true, half := some (true, addr, wdata) } := by
  unfold Seg.mpTake
  simp only [hr, hw, hh, Bool.not_true, Bool.false_eq_true, ↓reduceIte, and_self]
  have hsoak' : (s.setMp { ready := true }).soak = false := hsoak
  have he' : (s.setMp { ready := true }).accessError { req := .mp, wr := true, size := 3, addr := addr, data := 0 } = 0 := he
  simp only [hsoak', he', Bool.false_eq_true, false_and, and_false, ↓reduceIte, ne_eq, not_true_eq_false]
  rfl

theorem Seg.mpTake_secondRead {s : Seg} {addr wdata v : Word} (hr : s.mp.ready = true) (hw : s.mpWaiting = false)
    (hh : s.mp.half = some (false, addr, v)) :
    s.mpTake false 3 (addr + 4) wdata = s.setMp { ready := true, ack := true, rdata := v } := by
  unfold Seg.mpTake
  simp only [hr, hw, hh, Bool.not_true, Bool.false_eq_true, ↓reduceIte, and_self]
  rfl

theorem Seg.mpTake_secondWrite {s : Seg} {addr wdata v : Word} (hr : s.mp.ready = true) (hw : s.mpWaiting = false)
    (hh : s.mp.half = some (true, addr, v)) :
    s.mpTake true 3 (addr + 4) wdata = (s.setMp { ready := true }).submit
      { req := .mp, wr := true, size := 3, addr := addr, data := wdata ++ v } := by
  unfold Seg.mpTake
  simp only [hr, hw, hh, Bool.not_true, Bool.false_eq_true, ↓reduceIte, and_self]

/-! ### Reads -/

/-- A read that no row refuses, of a unit that is up. -/
theorem Seg.decideAccess_read {s : Seg} {a : Access} {k : Kind} {i : Nat} (hk : pageKind (addrPage a.addr) = some (k, i))
    (he : s.accessError a = 0) (hw : a.wr = false) (hu : s.pageState k i = 0) :
    s.decideAccess a = (s.tick1, .done 0 (s.readData k i (addrPage a.addr) (addrOff a.addr) a.size)) := by
  have hr : s.reachUnit k i a = (s.tick1, .done 0 (s.readData k i (addrPage a.addr) (addrOff a.addr) a.size)) := by
    unfold Seg.reachUnit
    simp only [s.wakePage_up k i hu, hu, hw]
    rfl
  unfold Seg.decideAccess Seg.decideRows
  simp [hk, he, hw, hr]

/-- A read of the port: the free-value counter moves, and the port's outputs are the answer. -/
theorem Follows.mpTake_read {s : Seg} {size : BitVec 2} {addr wdata : Word} {k : Kind} {i : Nat}
    (hk : pageKind (addrPage addr) = some (k, i)) (hr : s.mp.ready = true) (hh : s.mp.half = none) (hst : s.ctl.stalled = [])
    (hu : s.pageState k i = 0)
    (he : s.accessError { req := .mp, wr := false, size := size, addr := addr, data := wdata.zeroExtend 64 } = 0) :
    Follows (s.tick1.setMp (Mp.answered { ready := true }
        { req := .mp, wr := false, size := size, addr := addr, data := wdata.zeroExtend 64 } 0
        (s.readData k i (addrPage addr) (addrOff addr) size)))
      (s.mpTake false size addr wdata) := by
  rw [Seg.mpTake_whole hr (Seg.mpWaiting_idle hst) hh (by simp), Seg.submit_open (s.setMp { ready := true }) _ rfl hst (fun _ => rfl)]
  unfold Seg.runAccess
  rw [Seg.decideAccess_read (s := s.setMp { ready := true }) hk he rfl hu]
  exact Follows.answer_mp (s.setMp { ready := true }).tick1 rfl 0 _

/-! ### A word that is one RW-live field (R34) -/

/-- The word at `off` is one field of 32 bits that a write changes even while the page is enabled. -/
def liveWord (k : Kind) (off : Nat) : Bool := (wordRows k off).map (fun r => (r.hi, r.lo, r.acc)) == [(31, 0, .rwl)]

theorem Field.set_get_whole (off : Nat) (w v : Word) : (⟨off, 31, 0⟩ : Field).set w ((⟨off, 31, 0⟩ : Field).get v) = v := by
  apply BitVec.eq_of_toNat_eq
  simp only [Field.set, Field.get, Field.width, BitVec.toNat_ofNat]
  omega

theorem wordRows_of_live {k : Kind} {off : Nat} (h : liveWord k off = true) :
    ∃ r, wordRows k off = [r] ∧ r.hi = 31 ∧ r.lo = 0 ∧ r.acc = .rwl := by
  unfold liveWord at h
  obtain ⟨r, hr, hf⟩ := List.map_eq_singleton_iff.1 (beq_iff_eq.1 h)
  simp only [Prod.mk.injEq] at hf
  exact ⟨r, hr, hf⟩

/-- A live word takes the value written. -/
theorem newWord_live {k : Kind} {off : Nat} (h : liveWord k off = true) (old v : Word) (wg closed : Bool) :
    newWord k off old v wg closed = v := by
  obtain ⟨r, hr, hhi, hlo, hacc⟩ := wordRows_of_live h
  unfold newWord
  simp only [hr, List.foldl_cons, List.foldl_nil, hhi, hlo, hacc]
  exact Field.set_get_whole off old v

/-- No write to a live word is ignored for ENABLE. -/
theorem rwDiffers_live {k : Kind} {off : Nat} (h : liveWord k off = true) (old v : Word) : rwDiffers k off old v = false := by
  obtain ⟨r, hr, -, -, hacc⟩ := wordRows_of_live h
  unfold rwDiffers
  simp [hr, hacc]

theorem Seg.storeWord_live {s : Seg} {k : Kind} {i p off : Nat} {v : Word} (h : liveWord k off = true)
    (hx : off < 0x400 ∨ s.expertEn = true) (hl : s.locked k p off v = false) (wg : Bool) (r : Requester) (told : Option Bool) :
    s.storeWord k i p off v wg r told = s.applyWord k i p off v v r told := by
  have hx' : (decide (0x400 ≤ off) && decide (off < 0x800) && !s.expertEn) = false := by
    rcases hx with hx | hx
    · rw [decide_eq_false (by omega)]; rfl
    · rw [hx, Bool.not_true, Bool.and_false]
  unfold Seg.storeWord
  simp only [hx', hl, newWord_live h, rwDiffers_live h, Bool.and_false, Bool.false_eq_true, ↓reduceIte]
  rfl

/-! ### The second half of a 64-bit write, here of the two words from 0x400 of KILN (R78) -/

theorem mgmtAddr_next (g : Fin 4) : mgmtAddr g.val pgKiln 0x404 = mgmtAddr g.val pgKiln 0x400 + 4 := by
  revert g; decide

theorem addr_kilnPair (g : Fin 4) :
    addrMbz (mgmtAddr g.val pgKiln 0x400) = 0 ∧ addrSeg (mgmtAddr g.val pgKiln 0x400) = g.val := by
  revert g; decide

theorem Seg.accessError_kilnPair {s : Seg} {g : Fin 4} (hg : s.strap = g.val) (hsoak : s.soak = false) (data : BitVec 64) :
    s.accessError { req := .mp, wr := true, size := 3, addr := mgmtAddr g.val pgKiln 0x400, data := data } = 0 := by
  unfold Seg.accessError
  simp only [addr_kilnPair g, hg, addrPage_mgmtAddr _ (show pgKiln < 16384 by decide) (show 0x400 < 4096 by decide),
    addrOff_mgmtAddr _ (show 0x400 < 4096 by decide), hsoak]
  rw [if_neg (by simp)]
  rfl

theorem Seg.expertEn_putKiln (s : Seg) (v : Word) : (s.putWord pgKiln 0x400 v).expertEn = s.expertEn := by
  have hflag : (s.putWord pgKiln 0x400 v).word pgSeg 0x110 = s.word pgSeg 0x110 :=
    Seg.word_setWord_other s v (by decide) (by decide) (by decide) (by decide) (.inl (by decide))
  have hkey : 1024 * pgSeg + 0x110 / 4 ≠ 1024 * pgKiln + 0x400 / 4 := by decide
  have hflip : (s.putWord pgKiln 0x400 v).mismatched pgSeg 0x110 = s.mismatched pgSeg 0x110 :=
    congrArg (· != 0) (SMap.get_put_other (0 : Word) 0 s.flips (0 : Word) hkey)
  unfold Seg.expertEn Seg.flag Seg.rd
  rw [show Reg.SEG.SEG_CTRL_EXPERT_EN.off = 0x110 from rfl, hflag, hflip]
  rfl

/-- Either word of the pair, with EXPERT_EN at 1. -/
theorem Seg.storeWord_kiln {s : Seg} {off : Nat} (ho : off = 0x400 ∨ off = 0x404) (hx : s.expertEn = true) (i : Nat) (v : Word)
    (r : Requester) (told : Option Bool) : s.storeWord .kiln i pgKiln off v false r told = s.putWord pgKiln off v := by
  rcases ho with rfl | rfl
  · exact Seg.storeWord_live (by decide) (.inr hx) rfl false r told
  · exact Seg.storeWord_live (by decide) (.inr hx) rfl false r told

theorem append_low (x y : BitVec 32) : (x ++ y).truncate 32 = y := by
  ext j hj
  rw [BitVec.getElem_setWidth, BitVec.getLsbD_append, if_pos hj, BitVec.getLsbD_eq_getElem]

theorem append_high (x y : BitVec 32) : ((x ++ y) >>> 32).truncate 32 = x := by
  ext j hj
  rw [BitVec.getElem_setWidth, BitVec.getLsbD_ushiftRight, BitVec.getLsbD_append, if_neg (by omega), Nat.add_sub_cancel_left,
    BitVec.getLsbD_eq_getElem]

theorem Seg.plainWrite_kilnPair {s : Seg} (hx : s.expertEn = true) (a : Access) (hz : a.size = 3) (v wdata : Word)
    (hd : a.data = wdata ++ v) :
    s.plainWrite .kiln 0 pgKiln 0x400 a = (s.putWord pgKiln 0x400 v).putWord pgKiln 0x404 wdata := by
  have hlo : a.data.truncate 32 = v := by rw [hd]; exact append_low wdata v
  have hhi : (a.data >>> 32).truncate 32 = wdata := by rw [hd]; exact append_high wdata v
  unfold Seg.plainWrite
  rw [if_neg (by decide), if_pos hz, if_neg (by simp [hx]), hlo, hhi, Seg.storeWord_kiln (.inl rfl) hx,
    Seg.storeWord_kiln (.inr rfl) ((s.expertEn_putKiln v).trans hx)]

/-- The whole write of the pair, submitted with nothing in its way. -/
theorem Follows.submit_kilnPair {S : Seg} {g : Fin 4} {v wdata : Word} (hg : S.strap = g.val) (hr : S.mp.ready = true)
    (hh : S.mp.half = none) (hst : S.ctl.stalled = []) (hgd : S.ctl.guards = []) (hsoak : S.soak = false)
    (hx : S.expertEn = true) :
    Follows (((S.putWord pgKiln 0x400 v).putWord pgKiln 0x404 wdata).acked .mp)
      (S.submit { req := .mp, wr := true, size := 3, addr := mgmtAddr g.val pgKiln 0x400, data := wdata ++ v }) := by
  have hpage : addrPage (mgmtAddr g.val pgKiln 0x400) = pgKiln := addrPage_mgmtAddr _ (by decide) (by decide)
  have hoff : addrOff (mgmtAddr g.val pgKiln 0x400) = 0x400 := addrOff_mgmtAddr _ (by decide)
  have hdec := S.decideAccess_go (k := .kiln) (i := 0)
    { req := .mp, wr := true, size := 3, addr := mgmtAddr g.val pgKiln 0x400, data := wdata ++ v } (by rw [hpage]; rfl)
    (Seg.accessError_kilnPair hg hsoak _) rfl rfl (.inl (by rw [hoff]; decide)) hgd
    (by rw [hoff]; exact .inr (.inr (by decide)))
  rw [hpage, hoff, Seg.plainWrite_kilnPair hx _ rfl v wdata rfl] at hdec
  rw [Seg.submit_open S _ hr hst (fun _ => hh), Seg.runAccess_done _ _ _ hdec]
  exact Seg.answer_ok ((S.putWord pgKiln 0x400 v).putWord pgKiln 0x404 wdata)
    { req := .mp, wr := true, size := 3, addr := mgmtAddr g.val pgKiln 0x400, data := wdata ++ v } rfl rfl

/-- The second half of a write to the pair: both words take effect. -/
theorem Follows.mpTake_kilnPair {s : Seg} {g : Fin 4} {v wdata : Word} (hg : s.strap = g.val) (hr : s.mp.ready = true)
    (hh : s.mp.half = some (true, mgmtAddr g.val pgKiln 0x400, v)) (hst : s.ctl.stalled = []) (hgd : s.ctl.guards = [])
    (hsoak : s.soak = false) (hx : s.expertEn = true) :
    Follows (((s.putWord pgKiln 0x400 v).putWord pgKiln 0x404 wdata).setMp { ready := true, ack := true })
      (s.mpTake true 3 (mgmtAddr g.val pgKiln 0x404) wdata) := by
  rw [mgmtAddr_next, Seg.mpTake_secondWrite hr (Seg.mpWaiting_idle hst) hh]
  exact Follows.submit_kilnPair (S := s.setMp { ready := true }) hg rfl rfl hst hgd hsoak hx

/-! ### The timeout (R80, R81) -/

theorem Seg.retryStalled_idle {s : Seg} (h : s.ctl.stalled = []) : s.retryStalled = s := by
  unfold Seg.retryStalled
  rw [h]
  exact Seg.runStalled.eq_1 s

/-- The completion with TIMEOUT of an access of the port. -/
def Seg.timedOut (s : Seg) (a : Access) : Seg := ((s.evt pgSeg 8 a.addr).answer a 4 0).retryStalled

theorem Seg.timedOut_idle {s : Seg} {a : Access} (ha : a.req = .mp) (hst : s.ctl.stalled = []) :
    s.timedOut a = (s.evt pgSeg 8 a.addr).answer a 4 0 := by
  refine Seg.retryStalled_idle ?_
  rw [(Follows.answer_mp (s.evt pgSeg 8 a.addr) ha 4 0).ctl]
  exact (congrArg Ctl.stalled (Follows.evt s pgSeg 8 a.addr false).ctl).trans hst

theorem Follows.timedOut {s : Seg} {a : Access} (ha : a.req = .mp) (hst : s.ctl.stalled = []) :
    Follows (s.setMp { s.mp with ack := true, err := true, rdata := 4, half := none }) (s.timedOut a) := by
  have hev := Follows.evt s pgSeg 8 a.addr false
  rw [Seg.timedOut_idle ha hst]
  refine (hev.setMp _).trans ?_
  rw [← hev.mp]
  exact Follows.answer_mp _ ha 4 0

theorem Seg.latched_timedOut {s : Seg} {a : Access} (ha : a.req = .mp) (hst : s.ctl.stalled = []) :
    (s.timedOut a).latched pgSeg 8 := by
  rw [Seg.timedOut_idle ha hst]
  exact Seg.latched_answer_mp ha 4 0 (Seg.latched_evt s pgSeg a.addr _ (by decide))

/-- What a write of the port that waited has done at its timeout, where it has taken effect (log 7). -/
def Seg.takeEffect (s : Seg) (a : Access) : Seg :=
  match s.decideRows a with
  | .done s _ => s
  | .go s a =>
    match pageKind (addrPage a.addr) with
    | some (k, i) => s.plainWrite k i (addrPage a.addr) (addrOff a.addr) a
    | none => s

/-- The timeout of the port's access that waits. -/
def Seg.mpTimeout (s : Seg) : Seg :=
  match s.ctl.stalled.find? (fun a => a.req == .mp) with
  | none => s
  | some a =>
    ((s.modCtl fun c => { c with stalled := c.stalled.filter (fun a => a.req != .mp) }).tick1.when
      (a.wr && Config.tookEffect s.free) (·.takeEffect a)).timedOut a

theorem exec_mpAccessTimeout (g : Fin 4) (s : State) : exec (.mpAccessTimeout g) s = onSeg s g Seg.mpTimeout := rfl

theorem Seg.mpTimeout_one {s : Seg} {a : Access} (ha : a.req = .mp) (hst : s.ctl.stalled = [a]) :
    s.mpTimeout = ((s.modCtl fun c => { c with stalled := [] }).tick1.when (a.wr && Config.tookEffect s.free)
      (·.takeEffect a)).timedOut a := by
  have hfind : s.ctl.stalled.find? (fun a => a.req == .mp) = some a := by simp [hst, ha]
  have hrest : s.modCtl (fun c => { c with stalled := c.stalled.filter (fun a => a.req != .mp) }) =
      s.modCtl fun c => { c with stalled := [] } := by
    unfold Seg.modCtl
    simp [hst, ha]
  unfold Seg.mpTimeout
  simp only [hfind, hrest]

/-! ### A write of PAGE_EVT_MASK that waited (R34) -/

theorem liveWord_mask (k : Kind) : liveWord k 0x014 = true := by cases k <;> decide

theorem Seg.plainWrite_mask (s : Seg) (k : Kind) (i p : Nat) (a : Access) (hz : a.size = 2) :
    s.plainWrite k i p 0x014 a = (s.setWord p 0x014 (a.data.truncate 32)).heal p 0x014 := by
  have habsent : ¬ absentWord k i 0x014 = true := by simp [absentWord]
  rw [Seg.plainWrite_word _ _ _ _ _ _ hz rfl,
    Seg.storeWord_live (liveWord_mask k) (.inl (by decide)) (by simp [Seg.locked])]
  unfold Seg.applyWord
  rw [if_neg habsent, if_neg (by decide)]
  cases k <;> rfl

theorem Seg.breakGuard_none {s : Seg} (h : s.ctl.guards = []) (a : Access) : s.breakGuard a = s := by
  unfold Seg.breakGuard
  simp [h]

theorem Seg.guardRow_none {s : Seg} {a : Access} {k : Kind} {i : Nat} (h : s.ctl.guards = [])
    (hw : guardWord k i (addrOff a.addr) = false) : s.guardRow a k i = .go s a := by
  unfold Seg.guardRow
  simp [h, hw]

theorem pageKind_lt {p : Nat} {ki : Kind × Nat} (h : pageKind p = some ki) : p < 16384 := by
  refine Nat.lt_of_not_le fun hp => ?_
  unfold pageKind at h
  repeat rw [if_neg (by omega)] at h
  cases h

/-- `a` is a write of the port to PAGE_EVT_MASK of page `p`, not yet decided. -/
structure Access.IsMaskWrite (a : Access) (p : Nat) : Prop where
  req : a.req = .mp
  wr : a.wr = true
  size : a.size = 2
  page : addrPage a.addr = p
  off : addrOff a.addr = 0x014
  badDom : a.badDom = false
  committed : a.committed = false
  passed : a.passed = false

theorem Access.IsMaskWrite.of_eq {a : Access} {g : Fin 4} {p : Nat} (hp : p < 16384)
    (h : a = { req := .mp, wr := true, size := 2, addr := mgmtAddr g.val p 0x014, data := a.data }) : a.IsMaskWrite p := by
  rw [h]
  exact ⟨rfl, rfl, rfl, addrPage_mgmtAddr _ hp (by decide), addrOff_mgmtAddr _ (by decide), rfl, rfl, rfl⟩

section
variable {s : Seg} {a : Access} {p i : Nat} {k : Kind} (hk : pageKind p = some (k, i)) (ha : a.IsMaskWrite p)
include hk ha

/-- No row refuses it for its width or its tenant. -/
theorem Seg.accessError_mask : s.accessError a ∈ [0, 1, 3, 4, 5] := by
  have hwidth : widthOk k i true (2 : BitVec 2).toNat 0x014 = true := rfl
  have htenant : s.tenantOk a p 0x014 = true := by simp [Seg.tenantOk, Requester.dom, ha.badDom, ha.req]
  unfold Seg.accessError
  simp only [ha.page, ha.off, ha.wr, ha.size, hk, hwidth, htenant, Bool.not_true, Bool.false_eq_true, ↓reduceIte]
  repeat' split
  all_goals decide

/-- Refused, it leaves the segment as it is; otherwise it goes to its unit. -/
theorem Seg.decideRows_mask (hg : s.ctl.guards = []) :
    s.decideRows a = .done s (s.accessError a) ∨ s.decideRows a = .go s a := by
  have hcode := s.accessError_mask hk ha
  have h2 : s.accessError a ≠ 2 := fun h => by rw [h] at hcode; exact absurd hcode (by decide)
  have h6 : s.accessError a ≠ 6 := fun h => by rw [h] at hcode; exact absurd hcode (by decide)
  have hguard : guardWord k i (addrOff a.addr) = false := by
    obtain ⟨r, hr, -, -, hacc⟩ := wordRows_of_live (liveWord_mask k)
    simp [guardWord, ha.off, hr, hacc]
  unfold Seg.decideRows
  simp only [ha.page, hk, ha.off, Seg.breakGuard_none hg, Seg.guardRow_none hg hguard, Seg.noteError, h2, h6, ↓reduceIte, ha.wr,
    ha.committed, ha.passed]
  by_cases he : s.accessError a = 0
  · right; simp [he]
  · left; simp [he]

theorem Seg.takeEffect_mask (hg : s.ctl.guards = []) :
    s.takeEffect a = s ∨ s.takeEffect a = (s.setWord p 0x014 (a.data.truncate 32)).heal p 0x014 := by
  unfold Seg.takeEffect
  rcases s.decideRows_mask hk ha hg with h | h
  · left; simp only [h]
  · right; simp only [h, ha.page, hk, ha.off]
    exact s.plainWrite_mask k i p a ha.size

end

/-! ### The obligation -/

section
variable (s : State) (g : Fin 4)

theorem Does.mp64BitFirstRequest_read {k : Kind} {i : Nat} {addr : Word} (wdata : Word) (hk : pageKind (addrPage addr) = some (k, i)) :
    Does (.mp64BitFirstRequest g false addr wdata) s g
      (fun S => S.mp.ready = true ∧ S.mp.half = none ∧ S.ctl.stalled = [] ∧ S.pageState k i = 0 ∧
        S.accessError { req := .mp, wr := false, size := 3, addr := addr, data := wdata.zeroExtend 64 } = 0)
      (fun S => S.tick1.setMp
        { ready := true, ack := true, rdata := S.readWord k i (addrPage addr) (addrOff addr),
          half := some (false, addr, S.readWord k i (addrPage addr) (addrOff addr + 4)) }) := by
  refine Does.of_onSeg rfl fun _ ⟨hr, hh, hst, hu, he⟩ => ⟨?_, trivial⟩
  have h := Follows.mpTake_read hk hr hh hst hu he
  rw [show (s.seg g).readData k i (addrPage addr) (addrOff addr) 3 = (s.seg g).readWord k i (addrPage addr) (addrOff addr + 4) ++
    (s.seg g).readWord k i (addrPage addr) (addrOff addr) from rfl] at h
  rw [Mp.answered_read _ rfl, append_low, append_high] at h
  exact h

theorem Does.mpRequest_read {k : Kind} {i : Nat} {size : BitVec 2} {addr : Word} (wdata : Word)
    (hk : pageKind (addrPage addr) = some (k, i)) (hs : size ≠ 3) :
    Does (.mpRequest g false size addr wdata) s g
      (fun S => S.mp.ready = true ∧ S.mp.half = none ∧ S.ctl.stalled = [] ∧ S.pageState k i = 0 ∧
        S.accessError { req := .mp, wr := false, size := size, addr := addr, data := wdata.zeroExtend 64 } = 0)
      (fun S => S.tick1.setMp
        { ready := true, ack := true, rdata := (S.readData k i (addrPage addr) (addrOff addr) size).truncate 32 }) := by
  refine Does.of_onSeg rfl fun _ ⟨hr, hh, hst, hu, he⟩ => ⟨?_, trivial⟩
  have h := Follows.mpTake_read hk hr hh hst hu he
  rw [Mp.answered_read _ rfl, if_neg hs] at h
  exact h

theorem Does.mpAccessTimeout_read {a : Access} (ha : a.req = .mp) (hw : a.wr = false) :
    Does (.mpAccessTimeout g) s g (fun S => S.ctl.stalled = [a])
      (fun S => (S.tick1.modCtl fun c => { c with stalled := [] }).setMp
        { S.mp with ack := true, err := true, rdata := 4, half := none }) (fun _ t => t.latched pgSeg 8) := by
  refine Does.of_onSeg_eq (f' := fun S => (S.modCtl fun c => { c with stalled := [] }).tick1.timedOut a)
    (exec_mpAccessTimeout g s) (fun S hst => ?_) fun _ _ => ⟨Follows.timedOut ha rfl, ?_⟩
  · rw [Seg.mpTimeout_one ha hst, hw]; rfl
  · exact Seg.latched_settle _ (Seg.latched_timedOut ha rfl)

/-- The waiting write has taken effect, or has not. -/
theorem Seg.mpTimeout_mask {S : Seg} {a : Access} {p i : Nat} {k : Kind} (hk : pageKind p = some (k, i)) (ha : a.IsMaskWrite p)
    (hst : S.ctl.stalled = [a]) (hg : S.ctl.guards = []) :
    ∃ x, (x = S.tick1 ∨ x = (S.tick1.setWord p 0x014 (a.data.truncate 32)).heal p 0x014) ∧
      S.mpTimeout = (x.modCtl fun c => { c with stalled := [] }).timedOut a := by
  have htaken := Seg.takeEffect_mask (s := (S.modCtl fun c => { c with stalled := [] }).tick1) hk ha hg
  rw [Seg.mpTimeout_one ha.req hst, ha.wr, Bool.true_and]
  cases Config.tookEffect S.free with
  | false => exact ⟨_, .inl rfl, rfl⟩
  | true =>
    rcases htaken with h | h
    · exact ⟨_, .inl rfl, congrArg (·.timedOut a) h⟩
    · exact ⟨_, .inr rfl, congrArg (·.timedOut a) h⟩

theorem mpAccessTimeout_mask {a : Access} {p i : Nat} {k : Kind} (hk : pageKind p = some (k, i)) (ha : a.IsMaskWrite p)
    (hr : (s.seg g).inReset = false) (hst : (s.seg g).ctl.stalled = [a]) (hg : (s.seg g).ctl.guards = []) :
    ∃ t x, exec (.mpAccessTimeout g) s = .next (s.setSeg g t) ∧
      (x = (s.seg g).tick1 ∨ x = ((s.seg g).tick1.setWord p 0x014 (a.data.truncate 32)).heal p 0x014) ∧
      Follows ((x.modCtl fun c => { c with stalled := [] }).setMp
        { x.mp with ack := true, err := true, rdata := 4, half := none }) t := by
  obtain ⟨x, hx, ht⟩ := Seg.mpTimeout_mask hk ha hst hg
  refine ⟨(s.seg g).mpTimeout.settle, x, ?_, hx, ?_⟩
  · rw [exec_mpAccessTimeout, onSeg, State.modSeg, hr]; rfl
  · rw [ht]
    exact (Follows.timedOut (s := x.modCtl fun c => { c with stalled := [] }) ha.req rfl).trans (Follows.settle _)

end

/-- Settles O12: the requests of the port one by one, then the two timeouts. -/
theorem managementPortAccess : Obligations.ManagementPortAccess := by
  refine ⟨fun s g k i size addr wdata hk => ⟨?_, Does.mpRequest_read s g wdata hk, ?_, fun v => ?_, fun v => ?_⟩,
    fun s g a ha _ => ⟨Does.mpAccessTimeout_read s g ha, fun k i p hk hform => ?_⟩⟩
  · rintro wr rfl rfl
    exact Does.mp64BitFirstRequest_read s g wdata hk
  · exact Does.of_onSeg_eq rfl (fun S ⟨hr, hh, hst, hsoak, he⟩ => Seg.mpTake_firstHalf hr (Seg.mpWaiting_idle hst) hh hsoak he)
      fun _ _ => ⟨.refl _, trivial⟩
  · exact Does.of_onSeg_eq rfl (fun S ⟨hr, hh, hw⟩ => Seg.mpTake_secondRead hr hw hh) fun _ _ => ⟨.refl _, trivial⟩
  · exact Does.of_onSeg rfl fun _ ⟨hg, hr, hh, hst, hgd, hsoak, hx⟩ => ⟨Follows.mpTake_kilnPair hg hr hh hst hgd hsoak hx, trivial⟩
  · exact mpAccessTimeout_mask s g hk (.of_eq (pageKind_lt hk) hform)

end Sys2Proof.Machine
end
